-- ==== Sys2Proof/Word.lean ====
section
/-! DEFINITION. The word types of the module (R16, R149, R191): a byte, the 8-byte scratchpad word, and the
register widths. Multi-byte values are little-endian (R16); the byte-order helpers are in Machine/Bits.lean. -/

namespace Sys2Proof

/-- One byte. -/
abbrev Byte := BitVec 8

/-- One 32-bit lane, accumulator word or address register. -/
abbrev Word := BitVec 32

/-- One 64-bit slot word, register or scratchpad word. -/
abbrev DWord := BitVec 64

/-- A plain table: a list of keys and values, the newest entry of a key first. -/
abbrev Tbl (α : Type) := List (Nat × α)

end Sys2Proof
end

