-- ==== Sys2Proof/Syntax.lean ====
section
/-! DEFINITION. The commands of the block: one constructor per row of spec/opcode_table.json. The operands are the
model's own choice (the table gives none): the unit that acts, the instruction's fields as the encoding names them,
the bytes of a request, or what was observed. -/

namespace Sys2Proof

/-- R540: a core fault that a check finds while an operation runs: its cause code, array, tile and row. -/
structure CoreFault where
  cause : Nat
  array : Nat := 0xFF
  tile : Nat := 0xFFFF
  row : Nat := 0xFF
  deriving DecidableEq, Repr

/-- R137, R226, R227, R540, R591: a stored part of a core that an error has struck, so that its next check finds it: a
stationary register or the scale of a half column (active, or shadow), an accumulator word, a byte of a vector register, a bit
of a mask register, a byte of an address register, a word of the scratchpad (with one wrong bit, or more than its code
corrects), a bundle or a descriptor-table entry in the first or the second half of the sequencer memory. -/
inductive Upset where
  | reg (shadow : Bool) (array row col : Nat)
  | scale (shadow : Bool) (array half col : Nat)
  | acc (array key : Nat)
  | vec (r byte : Nat)
  | mask (r bit : Nat)
  | addr (r byte : Nat)
  | word (w : Nat) (double : Bool)
  | bundle (second : Bool) (idx : Nat)
  | entry (second : Bool) (idx : Nat)
  deriving DecidableEq, Repr

/-- The physical core on which a slot's operation issues, and the errors that have struck its stored state since the last
command to it. -/
structure CoreEnv where
  core : Nat
  upsets : List Upset := []
  deriving DecidableEq, Repr

/-- R156: the fields of `mm.pass` and `mm.lds`; `nvec` is the vector count minus 1. -/
structure MatF where
  array : Nat
  qset : Nat := 0
  fmt : Nat := 0
  scaled : Bool := false
  swap : Bool := false
  add : Bool := false
  bank : Nat := 0
  row : Nat := 0
  nvec : Nat := 0
  vreg : Nat := 0
  sreg : Nat := 0
  qreg : Nat := 0
  rmode : Nat := 0
  deriving DecidableEq, Repr

/-- R200, R201: the fields of a vector instruction; those an instruction does not use are ignored. -/
structure VecF where
  width : Nat := 0
  men : Bool := false
  mreg : Nat := 0
  zero : Bool := false
  vd : Nat := 0
  va : Nat := 0
  vb : Nat := 0
  vc : Nat := 0
  acc : Bool := false
  array : Nat := 0
  bank : Nat := 0
  rq : Nat := 0
  negp : Bool := false
  negc : Bool := false
  cond : Nat := 0
  gs : Nat := 0
  sf : Nat := 0
  tf : Nat := 0
  part : Nat := 0
  sr : Bool := false
  nsat : Bool := false
  spos : Nat := 0
  n : Nat := 0
  deriving DecidableEq, Repr

/-- R210: the fields of `vx.ld` and `vx.st`. -/
structure LdF where
  vr : Nat
  areg : Nat
  rmode : Nat := 0
  size : Nat := 0
  part : Nat := 0
  deriving DecidableEq, Repr

/-- R161: the fields of `st.arm`, `st.stash` and `st.unstash`. -/
structure ArmF where
  slot : Nat
  entry : Nat
  breg : Nat := 0
  deriving DecidableEq, Repr

/-- R148: the fields of `ct.step`. -/
structure StepF where
  delta : Nat := 1
  repeat_ : Nat := 0
  incaDst : Nat := 0
  incaSrc : Nat := 0
  incbDst : Nat := 0
  incbSrc : Nat := 0
  deriving DecidableEq, Repr

/-- The vector operations on lanes and masks (R201). -/
inductive VOp where
  | add | sub | mul | fma | min | max | mov | abs | neg | cmp
  | gsum | gmax | gmin
  | exp2 | log2 | rcp | rsqrt | sqrt | tanh | sigm
  | cvt | qmx | dqmx
  | mand | mor | mxor | mnot | mfirst
  deriving DecidableEq, Repr

/-- R139: an operation of the matrix, vector, or stream and scratchpad slot. -/
inductive SlotOp where
  | pass (f : MatF)
  | lds (f : MatF)
  | mode (array : Nat) (quarter : Bool)
  | wake (mask : Nat)
  | rest (mask : Nat)
  | vec (op : VOp) (f : VecF)
  | movi (f : VecF) (imm : Word)
  | ld (f : LdF)
  | st (f : LdF)
  | arm (kind : Nat) (f : ArmF)
  | mov (sreg rmode dreg : Nat)
  | fill (dreg : Nat) (pattern : Word)
  | gate (mask : Nat)
  | ungate (mask : Nat)
  deriving DecidableEq, Repr

/-- R148: the control slot of a bundle. -/
inductive CtlOp where
  | step (f : StepF)
  | blk (delta body count : Nat)
  | seta (delta dst : Nat) (imm : Word)
  | adda (delta dst src : Nat) (imm : Word)
  | end_
  deriving DecidableEq, Repr

/-- R139: a bundle: the operations of its first three slots and its control slot, and its place in sequencer-memory
order. -/
structure Bundle where
  ops : List SlotOp := []
  ctl : CtlOp
  idx : Nat := 0
  deriving DecidableEq, Repr

/-- R298: the end of an HBM read burst: its address, the agent (physical core and stream slot, or none), the symbol
errors met (position, error), whether they lie in the stored granule, the replays of R300, whether they were exhausted and
the lane of the pseudo-channel that caused them (R322), and a fault that the agent's core shows in the same cycle (R329). -/
structure HbmRead where
  addr : Nat
  core : Nat := 0xFFFF
  slot : Nat := 0xFF
  err : List (Nat × Nat) := []
  stored : Bool := false
  replays : Nat := 0
  exhausted : Bool := false
  lane : Nat := 0
  fault : Option CoreFault := none
  deriving DecidableEq, Repr

/-- R297: the end of an HBM write burst: its address and data, the agent, the replays and the lane that caused them. -/
structure HbmWrite where
  addr : Nat
  data : List Byte
  core : Nat := 0xFFFF
  slot : Nat := 0xFF
  replays : Nat := 0
  exhausted : Bool := false
  lane : Nat := 0
  cycle : Nat := 0
  deriving DecidableEq, Repr

/-- R306, R578: one sample of every temperature, in quarters of a degree Celsius. -/
structure Temps where
  hs : List Nat
  cd : List Nat
  hub : Nat
  regulator : Nat
  deriving DecidableEq, Repr

/-- R371: the fields of an update-program instruction: destination and sources. -/
structure UpF where
  d : Nat := 0
  a : Nat := 0
  b : Nat := 0
  c : Nat := 0
  deriving DecidableEq, Repr

/-- A ZMI request as a partner sends it: the mailbox block (64: the board management controller), the envelope ring
slot it came in (none: the inline area, or a sideband message), and the envelope's bytes, header first (13). A row
names the command and form; the bytes give the rest. -/
structure ZReq where
  block : Nat
  slot : Option Nat := none
  env : List Byte
  deriving DecidableEq, Repr

/-- R437, R439: an SPDM or vendor request: the endpoint (0 the PF, n VF n, 64 the board management controller),
whether it came inside the endpoint's secured session, the request's bytes from its SPDM version on, and whether the
verification data it carries (the authentication of FINISH) holds. -/
structure SpdmReq where
  endpoint : Nat
  secured : Bool := false
  msg : List Byte
  ok : Bool := true
  deriving DecidableEq, Repr

/-- R442: a TDISP request for a VF, with its nonce. -/
structure TdispReq where
  vf : Nat
  nonce : List Byte := []
  deriving DecidableEq, Repr

/-- R493: an IDE_KM message: the function, the stream and the key, for the function's selective stream or the one link
stream. -/
structure IdeReq where
  fn : Nat
  stream : Nat
  key : List Byte
  link : Bool := false
  deriving DecidableEq, Repr

/-- What a boot step meets: cores that fail their self-test with the failing array (0xFF: none named), channels that
fail training (stack, channel), image sets and records (0 fold table, 1 repair list, 2 fence record) whose check fails,
cadastre copies that fail their CRC, a failed known-answer test, compute dies that fail as a whole, a hub die that fails
its self-test, and hub memory that fails its retention check. -/
structure BootEnv where
  selfTest : List (Nat × Nat) := []
  training : List (Nat × Nat) := []
  badImage : List Nat := []
  badRecords : List Nat := []
  badCopyA : Bool := false
  badCopyB : Bool := false
  securityFail : Bool := false
  lostDies : List Nat := []
  hubFail : Bool := false
  hubMemoryBad : Bool := false
  deriving DecidableEq, Repr

/-- R510, R513, R515: a Courier frame with the port it arrived on, on a port in 802.3 mode the IEEE 802.3 frame that carries it,
and whether the link layer replayed it. -/
structure CFrame where
  port : Nat
  bytes : List Byte
  replayed : Bool := false
  deriving DecidableEq, Repr

/-- R242, R250: one access that a granule serves: the die and physical granule, the die-store or package-physical
address, whether it writes, the error met, and the agent (physical core and stream slot, or none). -/
structure GranReq where
  die : Nat
  granule : Nat
  addr : Nat
  write : Bool := false
  corrected : Bool := false
  uncorrectable : Bool := false
  core : Nat := 0xFFFF
  slot : Nat := 0xFF
  cycle : Nat := 0
  deriving DecidableEq, Repr

/-- R12: a value written to a register, and the bits of it that hardware sets in the same cycle (R12); a command that stands
for such an event comes before it. -/
structure W1c where
  v : Nat
  hw : Nat := 0
  deriving DecidableEq, Repr

/-- The commands: one constructor per row of the table. -/
inductive Instr where
  /-- FRAME_TICK (R38). -/
  | frameTick
  /-- FRAME_BOUNDARY_CHANGE_APPLY (R43). -/
  | frameBoundaryChangeApply
  /-- SEGMENT_START (R44). -/
  | segmentStart (parcel seq start : Nat)
  /-- SEQUENCER_FILL_START (R166). -/
  | sequencerFillStart (core : Nat)
  /-- SEQUENCER_FILL_COMPLETE (R167). -/
  | sequencerFillComplete (core at_ : Nat)
  /-- HOLD_RESUME (R169). -/
  | holdResume (core at_ : Nat)
  /-- HOLD_BOUND_EXCEEDED (R49). -/
  | holdBoundExceeded (core at_ : Nat)
  /-- MM_NOP (R140). -/
  | mmNop (e : CoreEnv)
  /-- MM_PASS (R102). -/
  | mmPass (e : CoreEnv) (f : MatF)
  /-- MM_LDS (R112). -/
  | mmLds (e : CoreEnv) (f : MatF)
  /-- MM_MODE (R125). -/
  | mmMode (e : CoreEnv) (array : Nat) (quarter : Bool)
  /-- MM_WAKE (R130). -/
  | mmWake (e : CoreEnv) (mask : Nat)
  /-- MM_REST (R132). -/
  | mmRest (e : CoreEnv) (mask : Nat)
  /-- VX_NOP (R201). -/
  | vxNop (e : CoreEnv)
  /-- VX_ADD (R203). -/
  | vxAdd (e : CoreEnv) (f : VecF)
  /-- VX_SUB (R203). -/
  | vxSub (e : CoreEnv) (f : VecF)
  /-- VX_MUL (R203). -/
  | vxMul (e : CoreEnv) (f : VecF)
  /-- VX_FMA (R203). -/
  | vxFma (e : CoreEnv) (f : VecF)
  /-- VX_MIN (R203). -/
  | vxMin (e : CoreEnv) (f : VecF)
  /-- VX_MAX (R203). -/
  | vxMax (e : CoreEnv) (f : VecF)
  /-- VX_MOV (R203). -/
  | vxMov (e : CoreEnv) (f : VecF)
  /-- VX_ABS (R203). -/
  | vxAbs (e : CoreEnv) (f : VecF)
  /-- VX_NEG (R203). -/
  | vxNeg (e : CoreEnv) (f : VecF)
  /-- VX_MOVI (R202). -/
  | vxMovi (e : CoreEnv) (f : VecF) (imm : Word)
  /-- VX_CMP (R199). -/
  | vxCmp (e : CoreEnv) (f : VecF)
  /-- VX_GSUM (R204). -/
  | vxGsum (e : CoreEnv) (f : VecF)
  /-- VX_GMAX (R204). -/
  | vxGmax (e : CoreEnv) (f : VecF)
  /-- VX_GMIN (R204). -/
  | vxGmin (e : CoreEnv) (f : VecF)
  /-- VX_EXP2 (R205). -/
  | vxExp2 (e : CoreEnv) (f : VecF)
  /-- VX_LOG2 (R205). -/
  | vxLog2 (e : CoreEnv) (f : VecF)
  /-- VX_RCP (R205). -/
  | vxRcp (e : CoreEnv) (f : VecF)
  /-- VX_RSQRT (R205). -/
  | vxRsqrt (e : CoreEnv) (f : VecF)
  /-- VX_SQRT (R205). -/
  | vxSqrt (e : CoreEnv) (f : VecF)
  /-- VX_TANH (R205). -/
  | vxTanh (e : CoreEnv) (f : VecF)
  /-- VX_SIGM (R205). -/
  | vxSigm (e : CoreEnv) (f : VecF)
  /-- VX_CVT (R206). -/
  | vxCvt (e : CoreEnv) (f : VecF)
  /-- VX_QMX (R208). -/
  | vxQmx (e : CoreEnv) (f : VecF)
  /-- VX_DQMX (R209). -/
  | vxDqmx (e : CoreEnv) (f : VecF)
  /-- VX_MAND (R201). -/
  | vxMand (e : CoreEnv) (f : VecF)
  /-- VX_MOR (R201). -/
  | vxMor (e : CoreEnv) (f : VecF)
  /-- VX_MXOR (R201). -/
  | vxMxor (e : CoreEnv) (f : VecF)
  /-- VX_MNOT (R201). -/
  | vxMnot (e : CoreEnv) (f : VecF)
  /-- VX_MFIRST (R201). -/
  | vxMfirst (e : CoreEnv) (f : VecF)
  /-- VX_LD (R212). -/
  | vxLd (e : CoreEnv) (f : LdF)
  /-- VX_ST (R212). -/
  | vxSt (e : CoreEnv) (f : LdF)
  /-- ST_NOP (R140). -/
  | stNop (e : CoreEnv)
  /-- ST_ARM (R162). -/
  | stArm (e : CoreEnv) (f : ArmF)
  /-- ST_STASH (R278). -/
  | stStash (e : CoreEnv) (f : ArmF)
  /-- ST_UNSTASH (R278). -/
  | stUnstash (e : CoreEnv) (f : ArmF)
  /-- SP_MOV (R161). -/
  | spMov (e : CoreEnv) (sreg rmode dreg : Nat)
  /-- SP_FILL (R161). -/
  | spFill (e : CoreEnv) (dreg : Nat) (pattern : Word)
  /-- SP_GATE (R234). -/
  | spGate (e : CoreEnv) (mask : Nat)
  /-- GATE_GRANT (R234). -/
  | gateGrant (core quarter : Nat)
  /-- SP_UNGATE (R235). -/
  | spUngate (e : CoreEnv) (mask : Nat)
  /-- CT_STEP (R143). -/
  | ctStep (e : CoreEnv) (f : StepF)
  /-- CT_BLK (R145). -/
  | ctBlk (e : CoreEnv) (delta body count : Nat)
  /-- CT_SETA (R148). -/
  | ctSeta (e : CoreEnv) (delta dst : Nat) (imm : Word)
  /-- CT_ADDA (R148). -/
  | ctAdda (e : CoreEnv) (delta dst src : Nat) (imm : Word)
  /-- CT_END (R147). -/
  | ctEnd (e : CoreEnv)
  /-- DESCRIPTOR_LANDED (R264). -/
  | descriptorLanded (core slot completeAt landedAt : Nat)
  /-- STREAM_DEADLOCK (R275). -/
  | streamDeadlock (core at_ : Nat)
  /-- HBM_READ_COMPLETE (R298). -/
  | hbmReadComplete (cycle : Nat) (rs : List HbmRead)
  /-- HBM_WRITE_COMPLETE (R297). -/
  | hbmWriteComplete (w : HbmWrite)
  /-- STACK_FATAL_ERROR (R312). -/
  | stackFatalError (stack channel : Nat)
  /-- FOLD_APPLY (R314). -/
  | foldApply
  /-- RETRAIN_WINDOW (R310). -/
  | retrainWindow (stack : Nat) (ok : Bool)
  /-- TEMP_SAMPLE (R306). -/
  | tempSample (t : Temps)
  /-- POWER_SAMPLE (R563). -/
  | powerSample (inputW : Nat) (dieW : List Nat)
  /-- THERMAL_HOLD_ENTER (R308). -/
  | thermalHoldEnter
  /-- THERMAL_HOLD_EXIT (R580). -/
  | thermalHoldExit
  /-- ITEM_ADMIT (R331). -/
  | itemAdmit (block : Nat)
  /-- ITEM_REISSUE (R301). -/
  | itemReissue (parcel : Nat)
  /-- UPDATE_GROUP_TAKE_UP (R351). -/
  | updateGroupTakeUp (parcel group : Nat)
  /-- UPDATE_PASS2_START (R366). -/
  | updatePass2Start (parcel group : Nat)
  /-- UPDATE_PASS2_COMPLETE (R383). -/
  | updatePass2Complete (parcel group : Nat)
  /-- SEAL_WAIT_EXPIRY (R383). -/
  | sealWaitExpiry (parcel group : Nat)
  /-- SEAL_COMMIT_APPLY (R384). -/
  | sealCommitApply (parcel group : Nat)
  /-- IN_DOUBT_QUERY (R387). -/
  | inDoubtQuery (parcel group : Nat)
  /-- UP_ADD (R371). -/
  | upAdd (parcel : Nat) (f : UpF)
  /-- UP_SUB (R371). -/
  | upSub (parcel : Nat) (f : UpF)
  /-- UP_MUL (R371). -/
  | upMul (parcel : Nat) (f : UpF)
  /-- UP_FMA (R371). -/
  | upFma (parcel : Nat) (f : UpF)
  /-- UP_DIV (R371). -/
  | upDiv (parcel : Nat) (f : UpF)
  /-- UP_SQRT (R371). -/
  | upSqrt (parcel : Nat) (f : UpF)
  /-- UP_RSQRT (R371). -/
  | upRsqrt (parcel : Nat) (f : UpF)
  /-- UP_MIN (R371). -/
  | upMin (parcel : Nat) (f : UpF)
  /-- UP_MAX (R371). -/
  | upMax (parcel : Nat) (f : UpF)
  /-- UP_ABS (R371). -/
  | upAbs (parcel : Nat) (f : UpF)
  /-- UP_NEG (R371). -/
  | upNeg (parcel : Nat) (f : UpF)
  /-- UP_SIGN (R371). -/
  | upSign (parcel : Nat) (f : UpF)
  /-- UP_SEL (R371). -/
  | upSel (parcel : Nat) (f : UpF)
  /-- UP_EXP2 (R371). -/
  | upExp2 (parcel : Nat) (f : UpF)
  /-- UP_LOG2 (R371). -/
  | upLog2 (parcel : Nat) (f : UpF)
  /-- UP_END (R371). -/
  | upEnd (parcel : Nat)
  /-- COLLECTIVE_BEGIN (R526). -/
  | collectiveBegin (parcel seq : Nat)
  /-- SLICE_EXPIRY (R414). -/
  | sliceExpiry (parcel : Nat)
  /-- SLICE_END (R414). -/
  | sliceEnd (parcel : Nat)
  /-- TENANCY_RESTORE (R416). -/
  | tenancyRestore (parcel : Nat)
  /-- HELD_COMMAND_PERFORM (R418). -/
  | heldCommandPerform (parcel : Nat)
  /-- RESERVE_PROMOTION (R545). -/
  | reservePromotion (core : Nat)
  /-- PARCEL_SEAL_APPLY (R449). -/
  | parcelSealApply (parcel : Nat)
  /-- MAINT_DRAIN_EFFECT (R46). -/
  | maintDrainEffect
  /-- PARCEL_CREATE_DONE (R408). -/
  | parcelCreateDone (parcel : Nat)
  /-- PARCEL_RESET_DONE (R410). -/
  | parcelResetDone (parcel : Nat)
  /-- PARCEL_RELEASE_DONE (R411). -/
  | parcelReleaseDone (parcel : Nat)
  /-- SEALED_DELIVERY (R460). -/
  | sealedDelivery (parcel : Nat)
  /-- HELLO (R477). -/
  | hello (r : ZReq)
  /-- CAPS_GET (R483). -/
  | capsGet (r : ZReq)
  /-- PARCEL_CREATE_NEW (R406). -/
  | parcelCreateNew (r : ZReq)
  /-- PARCEL_CREATE_RESTORE (R403). -/
  | parcelCreateRestore (r : ZReq)
  /-- PARCEL_CREATE_RESTORE_DONE (R403). -/
  | parcelCreateRestoreDone (r : ZReq)
  /-- PARCEL_DESTROY_RESET (R410). -/
  | parcelDestroyReset (r : ZReq)
  /-- PARCEL_DESTROY_RELEASE (R411). -/
  | parcelDestroyRelease (r : ZReq)
  /-- PARCEL_SEAL (R448). -/
  | parcelSeal (r : ZReq)
  /-- PARCEL_QUERY (R483). -/
  | parcelQuery (r : ZReq)
  /-- TENANCY_SET_WRITE (R420). -/
  | tenancySetWrite (r : ZReq)
  /-- TENANCY_SET_DEACTIVATE (R420). -/
  | tenancySetDeactivate (r : ZReq)
  /-- PLAN_LOAD (R177). -/
  | planLoad (r : ZReq)
  /-- PLAN_UNLOAD (R190). -/
  | planUnload (r : ZReq)
  /-- WEIGHTS_LOAD (R446). -/
  | weightsLoad (r : ZReq)
  /-- WEIGHTS_LOAD_WRAPPED (R445). -/
  | weightsLoadWrapped (r : ZReq)
  /-- TENSOR_WRITE (R303). -/
  | tensorWrite (r : ZReq)
  /-- TENSOR_READ (R303). -/
  | tensorRead (r : ZReq)
  /-- RING_SETUP_ENABLE (R490). -/
  | ringSetupEnable (r : ZReq)
  /-- RING_SETUP_DISABLE (R490). -/
  | ringSetupDisable (r : ZReq)
  /-- ITEM_SUBMIT (R483). -/
  | itemSubmit (r : ZReq)
  /-- GROUP_SET_WRITE_GROUP (R361). -/
  | groupSetWriteGroup (r : ZReq)
  /-- GROUP_SET_READ_GROUP (R483). -/
  | groupSetReadGroup (r : ZReq)
  /-- GROUP_SET_WRITE_PROGRAM (R372). -/
  | groupSetWriteProgram (r : ZReq)
  /-- GROUP_SET_READ_PROGRAM (R483). -/
  | groupSetReadProgram (r : ZReq)
  /-- STEP_COMMIT_UPDATE (R350). -/
  | stepCommitUpdate (r : ZReq)
  /-- STEP_COMMIT_RESOLVE_ABORT (R388). -/
  | stepCommitResolveAbort (r : ZReq)
  /-- STEP_COMMIT_CLEAR_HOLD (R558). -/
  | stepCommitClearHold (r : ZReq)
  /-- DEED_GET_PARCEL (R455). -/
  | deedGetParcel (r : ZReq)
  /-- DEED_GET_PACKAGE (R457). -/
  | deedGetPackage (r : ZReq)
  /-- SURVEY_READ (R389). -/
  | surveyRead (r : ZReq)
  /-- MANIFEST_OP_ADD (R422). -/
  | manifestOpAdd (r : ZReq)
  /-- MANIFEST_OP_PAUSE (R422). -/
  | manifestOpPause (r : ZReq)
  /-- MANIFEST_OP_RESUME (R422). -/
  | manifestOpResume (r : ZReq)
  /-- MANIFEST_OP_REMOVE (R422). -/
  | manifestOpRemove (r : ZReq)
  /-- MANIFEST_OP_READ (R422). -/
  | manifestOpRead (r : ZReq)
  /-- MANIFEST_OP_REGISTER (R423). -/
  | manifestOpRegister (r : ZReq)
  /-- MANIFEST_OP_UNREGISTER (R423). -/
  | manifestOpUnregister (r : ZReq)
  /-- TELEMETRY_GET (R461). -/
  | telemetryGet (r : ZReq)
  /-- PERIOD_SET (R51). -/
  | periodSet (r : ZReq)
  /-- MAINT_DRAIN_BEGIN (R323). -/
  | maintDrainBegin (r : ZReq)
  /-- MAINT_DRAIN_END (R323). -/
  | maintDrainEnd (r : ZReq)
  /-- HBM_REPAIR_LIST (R322). -/
  | hbmRepairList (r : ZReq)
  /-- HBM_REPAIR_ROW (R323). -/
  | hbmRepairRow (r : ZReq)
  /-- HBM_REPAIR_LANE (R323). -/
  | hbmRepairLane (r : ZReq)
  /-- HBM_MARGIN (R324). -/
  | hbmMargin (r : ZReq)
  /-- FENCE_QUERY (R483). -/
  | fenceQuery (r : ZReq)
  /-- RESERVE_PROMOTE (R546). -/
  | reservePromote (r : ZReq)
  /-- EVENT_READ (R483). -/
  | eventRead (r : ZReq)
  /-- FW_STAGE (R435). -/
  | fwStage (r : ZReq)
  /-- FW_ACTIVATE (R435). -/
  | fwActivate (r : ZReq)
  /-- LINK_QUERY (R532). -/
  | linkQuery (r : ZReq)
  /-- LINK_CONFIG_COURIER (R532). -/
  | linkConfigCourier (r : ZReq)
  /-- LINK_CONFIG_8023 (R510). -/
  | linkConfig8023 (r : ZReq)
  /-- LINK_CONFIG_DISABLE (R532). -/
  | linkConfigDisable (r : ZReq)
  /-- FED_FORM (R517). -/
  | fedForm (r : ZReq)
  /-- FED_JOIN (R517). -/
  | fedJoin (datumPostmark : Nat)
  /-- FED_LEAVE (R532). -/
  | fedLeave (r : ZReq)
  /-- ROUTE_SET (R512). -/
  | routeSet (r : ZReq)
  /-- MEMBER_RESTORE (R521). -/
  | memberRestore (r : ZReq)
  /-- CHANNEL_SET (R522). -/
  | channelSet (r : ZReq)
  /-- CHANNEL_FREE (R532). -/
  | channelFree (r : ZReq)
  /-- CHANNEL_QUERY (R532). -/
  | channelQuery (r : ZReq)
  /-- COLLECTIVE_SUBMIT (R526). -/
  | collectiveSubmit (r : ZReq)
  /-- GET_VERSION (R437). -/
  | getVersion (r : SpdmReq)
  /-- GET_CAPABILITIES (R437). -/
  | getCapabilities (r : SpdmReq)
  /-- NEGOTIATE_ALGORITHMS (R437). -/
  | negotiateAlgorithms (r : SpdmReq)
  /-- GET_DIGESTS (R437). -/
  | getDigests (r : SpdmReq)
  /-- GET_CERTIFICATE (R436). -/
  | getCertificate (r : SpdmReq)
  /-- CHALLENGE (R437). -/
  | challenge (r : SpdmReq)
  /-- GET_MEASUREMENTS (R437). -/
  | getMeasurements (r : SpdmReq)
  /-- KEY_EXCHANGE (R437). -/
  | keyExchange (r : SpdmReq)
  /-- FINISH (R437). -/
  | finish (r : SpdmReq)
  /-- KEY_UPDATE (R437). -/
  | keyUpdate (r : SpdmReq)
  /-- HEARTBEAT (R437). -/
  | heartbeat (r : SpdmReq)
  /-- END_SESSION (R437). -/
  | endSession (r : SpdmReq)
  /-- KEY_SET (R441). -/
  | keySet (r : SpdmReq)
  /-- KEY_CLEAR (R441). -/
  | keyClear (r : SpdmReq)
  /-- SIGNER_SET (R440). -/
  | signerSet (r : SpdmReq)
  /-- DEED_PARCEL (R439). -/
  | deedParcel (r : SpdmReq)
  /-- DEED_PACKAGE (R439). -/
  | deedPackage (r : SpdmReq)
  /-- STOP_INTERFACE (R442). -/
  | stopInterface (r : TdispReq)
  /-- PLDM_REQUEST (R584). -/
  | pldmRequest (msg : List Byte)
  /-- MCTP_CONTROL (R583). -/
  | mctpControl (msg : List Byte)
  /-- SENSOR_UPDATE (R584). -/
  | sensorUpdate
  /-- TELEMETRY_WINDOW_UPDATE (R586). -/
  | telemetryWindowUpdate
  /-- MBX_DOORBELL_INLINE (R474). -/
  | mbxDoorbellInline (fn block : Nat) (value : Nat)
  /-- REQ_TAIL_WRITE (R474). -/
  | reqTailWrite (fn block value : Nat)
  /-- ENV_TAIL_WRITE (R475). -/
  | envTailWrite (fn block value : Nat)
  /-- CPL_HEAD_WRITE (R486). -/
  | cplHeadWrite (fn block value : Nat)
  /-- DLR_HEAD_WRITE (R486). -/
  | dlrHeadWrite (fn block value : Nat)
  /-- MBX_CTRL_WRITE (R467). -/
  | mbxCtrlWrite (fn block value : Nat)
  /-- MBX_IRQ_STATUS_WRITE (R12). -/
  | mbxIrqStatusWrite (fn block : Nat) (value : W1c)
  /-- MBX_IRQ_MASK_WRITE (R491). -/
  | mbxIrqMaskWrite (fn block value : Nat)
  /-- EVLOG_HEAD_WRITE (R555). -/
  | evlogHeadWrite (value : Nat)
  /-- REGISTER_WRITE (R10). -/
  | registerWrite (fn offset width : Nat) (value : W1c)
  /-- BAR2_READ (R499). -/
  | bar2Read (addr len : Nat)
  /-- BAR2_WRITE (R499). -/
  | bar2Write (addr : Nat) (data : List Byte)
  /-- ATS_INVALIDATE (R495). -/
  | atsInvalidate (fn addr : Nat)
  /-- FLR_PF (R497). -/
  | flrPf
  /-- FLR_VF (R497). -/
  | flrVf (vf : Nat)
  /-- PERST_ASSERT (R569). -/
  | perstAssert
  /-- HOT_RESET (R568). -/
  | hotReset
  /-- PERST_DEASSERT (R567). -/
  | perstDeassert
  /-- CONFIG_READY (R496). -/
  | configReady
  /-- POWER_ON (R565). -/
  | powerOn (millivolts : Nat)
  /-- UNDERVOLTAGE (R562). -/
  | undervoltage (millivolts microseconds : Nat)
  /-- OVERVOLTAGE (R562). -/
  | overvoltage (millivolts microseconds : Nat)
  /-- POWER_OVERDRAW (R564). -/
  | powerOverdraw (watts : Nat)
  /-- MOD_RESET_L (R566). -/
  | modResetL
  /-- COLD_BOOT (R572). -/
  | coldBoot (b : BootEnv)
  /-- BOOT_HBM_STEP (R574). -/
  | bootHbmStep (b : BootEnv)
  /-- BOOT_CORE_SELF_TEST (R574). -/
  | bootCoreSelfTest (b : BootEnv)
  /-- REFCLK_LOSS (R577). -/
  | refclkLoss
  /-- REFCLK_RETURN (R577). -/
  | refclkReturn
  /-- QUAD_PORT_FAIL (R542). -/
  | quadPortFail (quad : Nat)
  /-- DIE_LOST (R549). -/
  | dieLost (die : Nat)
  /-- EDGE_FAIL (R549). -/
  | edgeFail (dieA dieB : Nat)
  /-- LANE_FAIL (R507). -/
  | laneFail (port lane : Nat)
  /-- PORT_DOWN (R508). -/
  | portDown (port : Nat)
  /-- PORT_RETRAIN (R508). -/
  | portRetrain (port : Nat)
  /-- COURIER_FRAME_FORWARD (R512). -/
  | courierFrameForward (fr : CFrame)
  /-- DATA (R524). -/
  | data (fr : CFrame)
  /-- CREDIT (R524). -/
  | credit (fr : CFrame)
  /-- RESET (R525). -/
  | reset (fr : CFrame)
  /-- ABORT (R530). -/
  | abort (fr : CFrame)
  /-- SKEW (R529). -/
  | skew (fr : CFrame)
  /-- HOLD (R520). -/
  | hold (fr : CFrame)
  /-- TICK (R516). -/
  | tick (fr : CFrame)
  /-- VOTE (R383). -/
  | vote (fr : CFrame)
  /-- DECISION (R386). -/
  | decision (fr : CFrame)
  /-- QUERY (R387). -/
  | query (fr : CFrame)
  /-- ANSWER (R386). -/
  | answer (fr : CFrame)
  /-- NORM (R365). -/
  | norm (fr : CFrame)
  /-- TALLY (R392). -/
  | tally (fr : CFrame)
  /-- HOLD_SEND (R519). -/
  | holdSend
  /-- PEER_LOST (R521). -/
  | peerLost (member channel : Nat)
  /-- TICK_LOST (R518). -/
  | tickLost (offset : Int)
  /-- ALIGNED_RESTORE (R518). -/
  | alignedRestore
  /-- GRANULE_SERVICE (R250). -/
  | granuleService (g : GranReq)
  /-- UPDATE_PASS1_COMPLETE (R365). -/
  | updatePass1Complete (parcel group : Nat)
  /-- PORT_UP (R508). -/
  | portUp (port member peerPort : Nat)
  /-- FLIT (R506). -/
  | flit (port : Nat) (flit : List Byte)
  /-- HUB_LINK_LOST (R548). -/
  | hubLinkLost (row : Nat)
  /-- LOCK_INTERFACE (R442). -/
  | lockInterface (r : TdispReq)
  /-- START_INTERFACE (R442). -/
  | startInterface (r : TdispReq)
  /-- IDE_KM (R493). -/
  | ideKm (r : IdeReq)
  /-- CONFIGURATION_WRITE (R466). -/
  | configurationWrite (fn offset value : Nat)
  /-- MOD_RESET_L_DEASSERT (R566). -/
  | modResetLDeassert
  /-- WARM_RESET (R568). -/
  | warmReset (b : BootEnv)
  /-- DEBUG_TOKEN (R463). -/
  | debugToken (token : List Byte) (valid : Bool)
  deriving DecidableEq, Repr

end Sys2Proof
end

