-- ==== Sys2Proof/Decode.lean ====
section
/-! DEFINITION. Decoding a word of the table. No row of spec/opcode_table.json gives any bits (every row's list of
fields is empty), so no word spells a command (log entry 13). -/

namespace Sys2Proof

/-- The command that a word of the table spells: none, since the table gives no row any bits. -/
def decodeTableWord (_nbits _w : Nat) : Option Instr := none

end Sys2Proof
end

