-- ==== Sys2Proof/Config.lean ====
section
/-! DEFINITION. What an implementation fixes and what the manual leaves open. Every constant here is opaque: it
has no body, so that no proof can see a value of it. -/

namespace Sys2Proof.Config

/-- DESIGN CHOICE (log entry 5): a byte whose contents the manual calls undefined (R177 STORE, R235, R250, R285,
R530), as a function of the tag drawn when it became undefined and of its address. -/
opaque freeByte : Nat → Nat → Byte

/-- DESIGN CHOICE (log entry 5): a number that the manual leaves open, as a function of the draw. -/
opaque freeNat : Nat → Nat

/-- R205: which value within its bound `vx.exp2` returns is a fixed function of the operand bits that is not
published: here which of the codes within 2 ulp, for a finite operand that is not an integer (log entry 11). -/
opaque exp2Choice : Word → Nat

/-- R205: as `exp2Choice`, for `vx.log2` of a positive finite operand that is not a power of two (log entry 11). -/
opaque log2Choice : Word → Nat

/-- R205: as `exp2Choice`, for `vx.tanh` of a finite non-zero operand (log entry 11). -/
opaque tanhChoice : Word → Nat

/-- R205: as `exp2Choice`, for `vx.sigm` of a finite operand (log entry 11). -/
opaque sigmChoice : Word → Nat

/-- R205: as `exp2Choice`, for which of the codes within 1 ulp `vx.rcp` returns for a finite non-zero operand (log entry
11). -/
opaque rcpChoice : Word → Nat

/-- R205: as `rcpChoice`, for `vx.rsqrt` (log entry 11). -/
opaque rsqrtChoice : Word → Nat

/-- R432: the unique device secret, 32 bytes, random and fused at manufacture (log entry 10). -/
opaque uds : List Byte

/-- R430: what the hub's physical entropy source gives at a draw (log entry 10). -/
opaque entropy : Nat → List Byte

/-- R436: the Parfonos root certificate, the device authority's and the DIK certificate written at manufacture, in DER;
the manual names them and does not give them (log entry 10). -/
opaque rootCert : List Byte
opaque caCert : List Byte
opaque dikCert : List Byte

/-- R436: the DER fields of the alias certificate before its public key (version, serial number, algorithm, issuer, validity
and subject), as a function of the public key, and its extensions besides the TcbInfo (log entry 10). -/
opaque aliasNames : List Byte → List Byte
opaque aliasExts : List Byte

/-- R437: the message bytes of an SPDM response beyond what the manual fixes, as a function of the request code,
the request and the draw (log entry 10). -/
opaque spdmBytes : Nat → List Byte → Nat → List Byte

/-- R437: the digest of an SPDM transcript up to a response: its code, the request and the draw stand for the messages that
led to it (log entry 44). -/
opaque spdmDigest : Nat → List Byte → Nat → List Byte

/-- R322: the 32-bit row address, in the stack's own unpublished encoding, of the DRAM row in which a granule of a
pseudo-channel lies (log entry 16). -/
opaque rowOf : Nat → Nat → BitVec 32

/-- R483: FW_BUILD, the build number of the firmware, which the manual names but does not give (log entry 10). -/
opaque fwBuild : Nat

/-- R324: whether a channel passes at a timing and voltage step, which the manual does not fix (log
entry 16). -/
opaque marginPass : Nat → Nat → Nat → Bool

/-- R322, R323: whether the repairable lane of a given number carries data (the manual numbers 72 lanes a
pseudo-channel and does not say which hold the code) (log entry 16). -/
opaque isDataLane : Nat → Bool

/-- R434, R435: what the firmware's own checks read of an image package: the four image digests, the security
version, the signing key (0 to 3) and whether its header asks to raise the fused version; none when its
signature, its order code or its hardware identifier fails. The manual gives no layout of a package (log entry 10). -/
opaque fwImage : List Byte → Option (List (List Byte) × Nat × Nat × Bool)

/-- R494: the Revision ID that the functions report below their Class Code, which the manual does not give (log entry 41). -/
opaque revisionId : BitVec 8

/-- R433: the digest of the hub ROM, which the manual does not give (log entry 10). -/
opaque romDigest : List Byte

/-- R433: the SHA-256 of the fuse map, the security version and the debug state, whose layout the manual does not give, as
a function of them (log entry 10). -/
opaque fuseDigest : List Nat → List Byte

/-- R433: the boot configuration record, which the manual does not give (log entry 10). -/
opaque bootRecord : List Byte

/-- R583, R584: the bytes of an MCTP control or PLDM response that the manual does not give, as a function of the kind
(0 MCTP, 1 PLDM), the request and the draw (log entry 45). -/
opaque sideBytes : Nat → List Byte → Nat → List Byte

/-- R587: the bits of the static SMBus and I3C address above those that SLOT_ID gives (log entry 45). -/
opaque sideAddrHigh : Nat

end Sys2Proof.Config
end

