-- ==== Sys2Proof/Machine/Bits.lean ====
section
/-! DEFINITION. Bit fields, byte order (R16), small list operations, the two CRCs the manual defines (R296, R505)
and the field arithmetic of the Class W code (R295). -/

namespace Sys2Proof.Machine

/-- Bits [hi:lo] of a number. -/
def bits (x hi lo : Nat) : Nat := x / 2 ^ lo % 2 ^ (hi + 1 - lo)

/-- Bit k of a number. -/
def bit (x k : Nat) : Bool := x / 2 ^ k % 2 == 1

/-- A one-bit field from a Bool. -/
def b2n (b : Bool) : Nat := if b then 1 else 0

/-- Byte k of a number. -/
def byteOf (x k : Nat) : Byte := BitVec.ofNat 8 (x / 256 ^ k)

/-- R16: a number as n bytes, the least significant first. -/
def leBytes : Nat → Nat → List Byte
  | _, 0 => []
  | x, n + 1 => BitVec.ofNat 8 x :: leBytes (x / 256) n

/-- R16: the number that bytes hold, the first the least significant. -/
def leNat : List Byte → Nat
  | [] => 0
  | b :: r => b.toNat + 256 * leNat r

/-- The n bytes from offset o of a payload, zero bytes where the payload ends. -/
def slice (p : List Byte) (o n : Nat) : List Byte :=
  let q := (p.drop o).take n
  q ++ List.replicate (n - q.length) 0

/-- The number in n bytes from offset o. -/
def le (p : List Byte) (o n : Nat) : Nat := leNat (slice p o n)

/-- n zero bytes. -/
def zeros (n : Nat) : List Byte := List.replicate n 0

/-- Writes bytes over a list from offset o; bytes past its end are dropped. -/
def overlay (p : List Byte) (o : Nat) (bs : List Byte) : List Byte :=
  let n := p.length
  (p.take o ++ (zeros (o - n)) ++ bs ++ p.drop (o + bs.length)).take n

/-- Whether every byte from offset o, n long, is zero. -/
def allZero (p : List Byte) (o n : Nat) : Bool := (slice p o n).all (· == 0)

/-- The indices below n whose bit is set in a map. -/
def bitsSet (x n : Nat) : List Nat := (List.range n).filter (bit x ·)

/-- The map with exactly the given bits set. -/
def mapOf (l : List Nat) : Nat := l.foldl (fun a k => if bit a k then a else a + 2 ^ k) 0

/-- ceil(a / b) for b > 0. -/
def ceilDiv (a b : Nat) : Nat := (a + b - 1) / b

/-- Elements of a list from index i, with the default past its end. -/
def nth {α : Type} (l : List α) (i : Nat) (d : α) : α := l.getD i d

/-- Puts an element in a sorted list, after those it is not less than. -/
def insBy {α : Type} (lt : α → α → Bool) (x : α) : List α → List α
  | [] => [x]
  | y :: r => if lt x y then x :: y :: r else y :: insBy lt x r

/-- Sorts a list; equal elements keep their order. -/
def sortBy {α : Type} (lt : α → α → Bool) (l : List α) : List α := l.foldl (fun a x => insBy lt x a) []

/-- Changes element i of a list. -/
def modifyAt {α : Type} (l : List α) (i : Nat) (f : α → α) : List α := l.modify i f

/-- The value of a key in a table. -/
def tblGet {α : Type} (t : Tbl α) (k : Nat) : Option α := (t.find? (fun e => e.1 == k)).map (·.2)

/-- Sets a key of a table. -/
def tblPut {α : Type} (t : Tbl α) (k : Nat) (v : α) : Tbl α := (k, v) :: t.filter (fun e => e.1 != k)

/-- Removes a key of a table. -/
def tblDel {α : Type} (t : Tbl α) (k : Nat) : Tbl α := t.filter (fun e => e.1 != k)

/-- R88, R556: a 48-bit counter stops at its largest value. -/
def max48 : Nat := 2 ^ 48 - 1

/-- R88: adds to a 48-bit counter, which stops at 2^48 − 1. -/
def add48 (c n : Nat) : Nat := min (c + n) max48

/-- R556: whether adding n makes a 48-bit counter reach its maximum now. -/
def reaches48 (c n : Nat) : Bool := c < max48 && max48 ≤ c + n

/-- A 32-bit free-running count. -/
def wrap32 (x : Nat) : Nat := x % 2 ^ 32

/-- The distance from a to b of free-running 32-bit counts (R469). -/
def dist32 (a b : Nat) : Nat := (b + 2 ^ 32 - a % 2 ^ 32) % 2 ^ 32

/-- One bit of the reflected CRC-32C shift register (RFC 3720, R296). -/
def crc32cBit (c : Nat) : Nat := if c % 2 == 1 then (c / 2) ^^^ 0x82F63B78 else c / 2

/-- One byte of CRC-32C. -/
def crc32cByte (c : Nat) (b : Byte) : Nat :=
  (List.range 8).foldl (fun x _ => crc32cBit x) (c ^^^ b.toNat)

/-- R296: CRC-32C, reflected, initial value and final XOR 0xFFFF_FFFF. -/
def crc32c (bs : List Byte) : Nat := (bs.foldl crc32cByte 0xFFFFFFFF) ^^^ 0xFFFFFFFF

/-- One bit of the CRC-64 of R505, most significant bit first. -/
def crc64Bit (c : Nat) : Nat :=
  if bit c 63 then ((c * 2) % 2 ^ 64) ^^^ 0x42F0E1EBA9EA3693 else (c * 2) % 2 ^ 64

/-- One byte of the CRC-64 of R505. -/
def crc64Byte (c : Nat) (b : Byte) : Nat :=
  (List.range 8).foldl (fun x _ => crc64Bit x) (c ^^^ (b.toNat * 2 ^ 56))

/-- R505: CRC-64 with the ECMA-182 polynomial, no reflection, initial value and final XOR all ones. -/
def crc64 (bs : List Byte) : Nat := (bs.foldl crc64Byte (2 ^ 64 - 1)) ^^^ (2 ^ 64 - 1)

/-- R295: multiplication by x in GF(2^16) with primitive polynomial x^16 + x^12 + x^3 + x + 1. -/
def gfX (a : Nat) : Nat := if bit a 15 then ((a * 2) % 65536) ^^^ 0x100B else a * 2

/-- R295: multiplication of a by α^k. -/
def gfMulAlpha (a : Nat) : Nat → Nat
  | 0 => a
  | k + 1 => gfX (gfMulAlpha a k)

/-- R295: the three syndromes, at α^0, α^1 and α^2, of an error pattern (position, 16-bit error). The code is
linear, so the syndromes of a codeword read with errors are those of the errors. -/
def syndromes (err : List (Nat × Nat)) : Nat × Nat × Nat :=
  err.foldl (fun (a : Nat × Nat × Nat) e =>
    (a.1 ^^^ e.2, a.2.1 ^^^ gfMulAlpha e.2 e.1, a.2.2 ^^^ gfMulAlpha e.2 (2 * e.1))) (0, 0, 0)

/-- What the Class W check finds (R295). -/
inductive RsResult where
  | clean
  | corrected (pos err : Nat)
  | misdirected (pos : Nat)
  | uncorrectable
  deriving DecidableEq, Repr

/-- R295: the outcome is decided by the syndromes alone: all zero, consistent with one error at a position of the
code (5 to 132, 0 to 2, or the address positions 3 and 4), or neither. -/
def rsCheck (err : List (Nat × Nat)) : RsResult :=
  let s := syndromes err
  if s.1 == 0 && s.2.1 == 0 && s.2.2 == 0 then .clean
  else
    match (List.range 133).find? (fun p =>
        s.1 != 0 && gfMulAlpha s.1 p == s.2.1 && gfMulAlpha s.1 (2 * p) == s.2.2) with
    | some p => if p == 3 || p == 4 then .misdirected p else .corrected p s.1
    | none => .uncorrectable

/-- Big-endian bytes of a number. -/
def beBytes (x n : Nat) : List Byte := (leBytes x n).reverse

end Sys2Proof.Machine
end

