-- ==== Sys2Proof/Machine/Crypto.lean ====
section
/-! DEFINITION. The public algorithms that the manual names (R430): SHA-256 (FIPS 180-4), HMAC with SHA-256 (FIPS 198-1),
HMAC_DRBG (SP 800-90A), derivation with HMAC (SP 800-108), AES-256-GCM (FIPS 197 and SP 800-38D, R444, R523), ECDSA on P-256
with its key pair generation (FIPS 186-5, R188) and ECDH on P-256 (SP 800-56A). The manual names them and does not repeat
them (log entry 10). -/

namespace Sys2Proof.Machine

/-- The number of a string of bytes, most significant byte first. -/
def be (b : List Byte) : Nat := b.foldl (fun a x => 256 * a + x.toNat) 0

/-- The largest r below 2^k, above a given start, with r^n at most x: an integer root found bit by bit. -/
def rootBits (n x : Nat) : Nat → Nat → Nat
  | 0, r => r
  | k + 1, r => rootBits n x k (if (r + 2 ^ k) ^ n ≤ x then r + 2 ^ k else r)

/-- The primes below 312, of which there are 64. -/
def primes64 : List Nat := (List.range 312).filter (fun p => decide (1 < p) && (List.range 18).all (fun d => d < 2 || p ≤ d || p % d != 0))

/-- FIPS 180-4 section 4.2.2: the constants of the rounds: 32 bits of the fraction of the cube root of each prime. -/
def shaK : List Nat := primes64.map (fun p => rootBits 3 (p * 2 ^ 96) 36 0 % 2 ^ 32)

/-- FIPS 180-4 section 5.3.3: the initial hash value: 32 bits of the fraction of the square root of the first primes. -/
def shaInit : List Nat := (primes64.take 8).map (fun p => rootBits 2 (p * 2 ^ 64) 36 0 % 2 ^ 32)

/-- A word of 32 bits rotated right by each of some amounts, the results added without carry. -/
def rotXor (rs : List Nat) (x : Nat) : Nat := rs.foldl (fun y r => y ^^^ (x / 2 ^ r + x * 2 ^ (32 - r) % 2 ^ 32)) 0

/-- FIPS 180-4 section 6.2.2: one round on the eight working words; `kw` is its constant plus its schedule word. -/
def shaStep (kw : Nat) : List Nat → List Nat
  | [a, b, c, d, e, f, g, h] =>
    let up := h + kw + rotXor [6, 11, 25] e + (g ^^^ (e &&& (f ^^^ g)))
    let top := up + rotXor [2, 13, 22] a + (b &&& (a ||| c) ||| a &&& c)
    [wrap32 top, a, b, c, wrap32 (d + up), e, f, g]
  | v => v

/-- FIPS 180-4 section 6.2.2: the rounds of a block over a window of 16 schedule words, the next word entering as one
leaves. -/
def shaRounds : List Nat → List Nat → List Nat → List Nat
  | [], _, v => v
  | k :: ks, w, v =>
    let far := nth w 14 0
    let near := nth w 1 0
    let new := (rotXor [17, 19] far ^^^ far / 2 ^ 10) + nth w 9 0 + (rotXor [7, 18] near ^^^ near / 2 ^ 3) + nth w 0 0
    shaRounds ks (w.drop 1 ++ [wrap32 new]) (shaStep (k + nth w 0 0) v)

/-- FIPS 180-4 section 6.2.2: a hash value after one block of 64 bytes. -/
def shaBlock (v : List Nat) (block : List Byte) : List Nat :=
  let words := (List.range 16).map (fun j => be (slice block (4 * j) 4))
  List.zipWith (fun x y => wrap32 (x + y)) v (shaRounds shaK words v)

/-- R430: SHA-256 of a string of bytes: 32 bytes in the order SHA-256 produces. -/
def sha256 (b : List Byte) : List Byte :=
  let m := b ++ 0x80 :: zeros ((119 - b.length % 64) % 64) ++ beBytes (8 * b.length) 8
  let v := (List.range (m.length / 64)).foldl (fun v j => shaBlock v (slice m (64 * j) 64)) shaInit
  v.flatMap (fun x => beBytes x 4)

/-- FIPS 198-1: HMAC with SHA-256. -/
def hmac (key text : List Byte) : List Byte :=
  let k := if 64 < key.length then sha256 key else key
  let pad (c : Byte) : List Byte := (k ++ zeros (64 - k.length)).map (· ^^^ c)
  sha256 (pad 0x5C ++ sha256 (pad 0x36 ++ text))

/-- SP 800-90A section 10.1.2: the state of HMAC_DRBG, its key and its value. -/
structure Drbg where
  k : List Byte
  v : List Byte
  deriving DecidableEq, Repr

/-- SP 800-90A section 10.1.2.2: HMAC_DRBG takes in data. -/
def drbgUpdate (data : List Byte) (g : Drbg) : Drbg :=
  let mix (tag : Byte) (g : Drbg) : Drbg :=
    let k := hmac g.k (g.v ++ tag :: data)
    ⟨k, hmac k g.v⟩
  let g := mix 0 g
  if data.isEmpty then g else mix 1 g

/-- SP 800-90A section 10.1.2.3: HMAC_DRBG from a seed. -/
def drbgSeed (seed : List Byte) : Drbg := drbgUpdate seed ⟨zeros 32, List.replicate 32 1⟩

/-- SP 800-90A section 10.1.2.5: 32 random bytes, and the state after them. -/
def drbgNext (g : Drbg) : List Byte × Drbg :=
  let v := hmac g.k g.v
  (v, drbgUpdate [] { g with v := v })

/-- FIPS 197 section 4.2: multiplication by x in GF(2^8). -/
def xtime (a : Nat) : Nat := if a < 128 then 2 * a else (2 * a) ^^^ 0x11B

/-- FIPS 197 section 4.2: the product in GF(2^8), over k bits of the second factor. -/
def gmul : Nat → Nat → Nat → Nat
  | 0, _, _ => 0
  | k + 1, a, b => (if b % 2 == 1 then a else 0) ^^^ gmul k (xtime a) (b / 2)

/-- FIPS 197 section 4.4: the multiplicative inverse a^254; zero has zero. -/
def ginv (a : Nat) : Nat :=
  let sq (x : Nat) : Nat := gmul 8 x x
  let a2 := sq a
  let a3 := gmul 8 a2 a
  let a12 := sq (sq a3)
  let a15 := gmul 8 a12 a3
  let a240 := sq (sq (sq (sq a15)))
  gmul 8 (gmul 8 a240 a12) a2

/-- FIPS 197 section 5.1.1: the substitution box. -/
def sbox (a : Nat) : Nat :=
  let b := ginv a
  let r (n : Nat) : Nat := (b <<< n ||| b >>> (8 - n)) % 256
  b ^^^ r 1 ^^^ r 2 ^^^ r 3 ^^^ r 4 ^^^ 0x63

/-- The substitution box as a table. -/
def sboxes : List Nat := (List.range 256).map sbox

/-- FIPS 197 section 5.2: the key schedule of AES-256: further words of four bytes, newest first. -/
def aesSched (sb : List Nat) : Nat → Nat → List (List Nat) → List (List Nat)
  | 0, _, w => w
  | k + 1, i, w =>
    let t := nth w 0 []
    let t := if i % 8 == 0 then
        let u := (t.drop 1 ++ t.take 1).map (fun x => nth sb x 0)
        ((nth u 0 0) ^^^ (gmul 8 (2 ^ (i / 8 - 1)) 1)) :: u.drop 1
      else if i % 8 == 4 then t.map (fun x => nth sb x 0) else t
    aesSched sb k (i + 1) (List.zipWith (· ^^^ ·) (nth w 7 []) t :: w)

/-- FIPS 197: the round keys of a 32-byte key, 16 bytes each. -/
def aesKeys (key : List Byte) : List (List Nat) :=
  let w0 := (List.range 8).map (fun k => (slice key (4 * k) 4).map (·.toNat))
  let w := (aesSched sboxes 52 8 w0.reverse).reverse
  (List.range 15).map (fun r => ((w.drop (4 * r)).take 4).flatten)

/-- FIPS 197 section 5.1.3: one column of MixColumns. -/
def mixCol (c : List Nat) : List Nat :=
  (List.range 4).map (fun i =>
    let x (k : Nat) : Nat := nth c ((i + k) % 4) 0
    xtime (x 0) ^^^ xtime (x 1) ^^^ x 1 ^^^ x 2 ^^^ x 3)

/-- FIPS 197 section 5.1: one round on 16 bytes, the last one without MixColumns. -/
def aesRound (sb : List Nat) (last : Bool) (s k : List Nat) : List Nat :=
  let t := (List.range 16).map (fun i => nth sb (nth s ((i + 4 * (i % 4)) % 16) 0) 0)
  let t := if last then t else (List.range 4).flatMap (fun c => mixCol ((t.drop (4 * c)).take 4))
  List.zipWith (· ^^^ ·) t k

/-- FIPS 197: AES-256 of one block of 16 bytes. -/
def aesBlock (keys : List (List Nat)) (b : List Byte) : List Byte :=
  let s0 := List.zipWith (· ^^^ ·) (b.map (·.toNat)) (nth keys 0 [])
  let s1 := ((keys.drop 1).take 13).foldl (aesRound sboxes false) s0
  (aesRound sboxes true s1 (nth keys 14 [])).map (BitVec.ofNat 8)

/-- SP 800-38D section 6.3: the product of two blocks, bit 0 the most significant. -/
def ghMul : Nat → Nat → Nat → Nat → Nat
  | 0, _, _, z => z
  | k + 1, x, v, z =>
    ghMul k x (if v % 2 == 1 then v / 2 ^^^ (0xE1 * 2 ^ 120) else v / 2) (if x / 2 ^ k % 2 == 1 then z ^^^ v else z)

/-- A string of bytes padded with zeros to whole blocks. -/
def padBlocks (b : List Byte) : List Byte := b ++ zeros ((16 - b.length % 16) % 16)

/-- SP 800-38D section 6.4: GHASH over whole blocks. -/
def ghash (h : Nat) : Nat → Nat → List Byte → Nat
  | 0, y, _ => y
  | k + 1, y, b => ghash h k (ghMul 128 (y ^^^ be (b.take 16)) h 0) (b.drop 16)

/-- SP 800-38D section 6.5: the counter mode from a block counter. -/
def gctr (keys : List (List Nat)) (iv : List Byte) : Nat → Nat → List Byte → List Byte
  | 0, _, _ => []
  | k + 1, c, b =>
    List.zipWith (· ^^^ ·) (b.take 16) (aesBlock keys (iv ++ beBytes c 4)) ++ gctr keys iv k (c + 1) (b.drop 16)

/-- SP 800-38D section 7: the tag of a ciphertext, with a 12-byte IV. -/
def gcmTag (keys : List (List Nat)) (iv aad c : List Byte) : List Byte :=
  let h := be (aesBlock keys (zeros 16))
  let m := padBlocks aad ++ padBlocks c ++ beBytes (8 * aad.length) 8 ++ beBytes (8 * c.length) 8
  gctr keys iv 1 1 (beBytes (ghash h (m.length / 16) 0 m) 16)

/-- R430, R523: AES-256-GCM encryption: the ciphertext followed by the tag. -/
def gcmSeal (key iv aad p : List Byte) : List Byte :=
  let keys := aesKeys key
  let c := gctr keys iv ((p.length + 15) / 16) 2 p
  c ++ gcmTag keys iv aad c

/-- R430, R444: AES-256-GCM decryption: the plaintext, or none when the tag fails. -/
def gcmOpen (key iv aad c tag : List Byte) : Option (List Byte) :=
  let keys := aesKeys key
  if gcmTag keys iv aad c == tag then some (gctr keys iv ((c.length + 15) / 16) 2 c) else none

/-- The field and the order of P-256, and its coefficient b (SP 800-186 section 3.2.1.3). -/
def p256P : Nat := 2 ^ 256 - 2 ^ 224 + 2 ^ 192 + 2 ^ 96 - 1
def p256N : Nat := 0xffffffff00000000ffffffffffffffffbce6faada7179e84f3b9cac2fc632551
def p256B : Nat := 0x5ac635d8aa3a93e7b3ebbd55769886bc651d06b0cc53b0f63bce3c3e27d2604b

/-- The base point of P-256. -/
def p256G : Nat × Nat :=
  (0x6b17d1f2e12c4247f8bce6e563a440f277037d812deb33a0f4a13945d898c296,
   0x4fe342e2fe1a7f9b8ee7eb4a7c0f9e162bce33576b315ececbb6406837bf51f5)

/-- A power modulo m, over k bits of the exponent. -/
def powMod (m : Nat) : Nat → Nat → Nat → Nat
  | 0, _, _ => 1
  | k + 1, x, e => (if e % 2 == 1 then x else 1) * powMod m k (x * x % m) (e / 2) % m

/-- The sum of two points of P-256; none is the point at infinity. -/
def ecAdd (a b : Option (Nat × Nat)) : Option (Nat × Nat) :=
  match a, b with
  | none, b => b
  | a, none => a
  | some (x1, y1), some (x2, y2) =>
    let m := p256P
    if x1 == x2 && (y1 + y2) % m == 0 then none
    else
      let num := if x1 == x2 then 3 * x1 * x1 + m - 3 else y2 + m - y1
      let den := if x1 == x2 then 2 * y1 else x2 + m - x1
      let l := num * powMod m 256 (den % m) (m - 2) % m
      let x := (l * l + 2 * m - x1 - x2) % m
      some (x, (l * (x1 + m - x) + m - y1) % m)

/-- A multiple of a point, over k bits of the factor. -/
def ecMul : Nat → Nat → Option (Nat × Nat) → Option (Nat × Nat)
  | 0, _, _ => none
  | k + 1, n, q => let r := ecMul k (n / 2) (ecAdd q q); if n % 2 == 1 then ecAdd r q else r

/-- SP 800-56A section 5.6.2.3: whether a 65-byte SEC1 point is a point of P-256. -/
def onCurve (point : List Byte) : Bool :=
  let x := be (slice point 1 32)
  let y := be (slice point 33 32)
  let m := p256P
  point.length == 65 && point.take 1 == [4] && decide (x < m) && decide (y < m)
    && (y * y) % m == (x * x * x + (m - 3) * x + p256B) % m

/-- R188, R430: whether an ECDSA P-256 signature (r, s) of a digest verifies under the 65-byte SEC1 point of a public
key (FIPS 186-5 section 6.4.2). -/
def ecdsaVerify (point digest : List Byte) (r s : Nat) : Bool :=
  let x := be (slice point 1 32)
  let y := be (slice point 33 32)
  let n := p256N
  let good := onCurve point && 1 ≤ r && r < n && 1 ≤ s && s < n
  if !good then false
  else
    let w := powMod n 256 s (n - 2)
    match ecAdd (ecMul 256 (be digest * w % n) (some p256G)) (ecMul 256 (r * w % n) (some (x, y))) with
    | none => false
    | some q => q.1 % n == r

/-- FIPS 186-5 section 6.4.1: the ECDSA signature (r, s) of a digest under a private key d with the secret number k. -/
def ecdsaSign (d k : Nat) (digest : List Byte) : Nat × Nat :=
  let n := p256N
  let r := ((ecMul 256 k (some p256G)).map (·.1 % n)).getD 0
  (r, powMod n 256 k (n - 2) * (be digest + r * d) % n)

/-- FIPS 186-5 section A.2.2: a private key, or a secret number of a signature, by rejection sampling; n candidates. -/
def p256Key : Nat → Drbg → Nat
  | 0, _ => 1
  | n + 1, g =>
    let x := drbgNext g
    let c := be x.1
    if c ≤ p256N - 2 then c + 1 else p256Key n x.2

/-- The SEC1 bytes of the public key of a private key. -/
def p256Point (d : Nat) : List Byte :=
  match ecMul 256 d (some p256G) with
  | some q => 4 :: beBytes q.1 32 ++ beBytes q.2 32
  | none => zeros 65

/-- SP 800-56A section 5.7.1.2: the secret that ECDH gives a private key and the SEC1 point of a partner. -/
def ecdh (d : Nat) (point : List Byte) : List Byte :=
  beBytes (((ecMul 256 d (some (be (slice point 1 32), be (slice point 33 32)))).map (·.1)).getD 0) 32

/-- SP 800-108 in feedback mode, as the SPDM key schedule expands a secret: n bytes, at most 32. -/
def expand (secret info : List Byte) (n : Nat) : List Byte := (hmac secret (info ++ [1])).take n

/-- The bytes of an ASCII string. -/
def ascii (s : String) : List Byte := s.toList.map (fun c => BitVec.ofNat 8 c.toNat)

end Sys2Proof.Machine
end

