-- ==== Sys2Proof/Machine/Float.lean ====
section
/-! DEFINITION. The number formats and their exact arithmetic (02: R56 to R84): decoding to exact values, the one
rounding to a format, narrowing, stochastic rounding, block quantization and the scalar operations. -/

namespace Sys2Proof.Machine

/-- R86: the exception a result element is counted under, if any. -/
inductive Exc where
  | none
  | invalid
  | divzero
  | overflow
  | underflow
  deriving DecidableEq, Repr

/-- An exact value: NaN, an infinity, or (−1)^neg × m × 2^e (R56). A zero has m = 0 and keeps its sign. -/
inductive FVal where
  | nan
  | inf (neg : Bool)
  | fin (neg : Bool) (m : Nat) (e : Int)
  deriving DecidableEq, Repr

/-- R57: a floating-point layout. Magnitude codes above `maxCode` are special: `infCode` is infinity, the others
NaN. `nanCode` is the canonical NaN of R79. -/
structure Fmt where
  width : Nat
  manBits : Nat
  bias : Nat
  signed : Bool
  maxCode : Nat
  infCode : Option Nat
  nanCode : Nat
  deriving DecidableEq, Repr

def fmtE2M1 : Fmt := ⟨4, 1, 1, true, 0x7, none, 0x7⟩
def fmtE4M3 : Fmt := ⟨8, 3, 7, true, 0x7E, none, 0x7F⟩
def fmtE5M2 : Fmt := ⟨8, 2, 15, true, 0x7B, some 0x7C, 0x7E⟩
def fmtUE5M3 : Fmt := ⟨8, 3, 15, false, 0xFE, none, 0xFF⟩
def fmtBF16 : Fmt := ⟨16, 7, 127, true, 0x7F7F, some 0x7F80, 0x7FC0⟩
def fmtFP16 : Fmt := ⟨16, 10, 15, true, 0x7BFF, some 0x7C00, 0x7E00⟩
def fmtFP32 : Fmt := ⟨32, 23, 127, true, 0x7F7FFFFF, some 0x7F800000, 0x7FC00000⟩
def fmtFP64 : Fmt := ⟨64, 52, 1023, true, 0x7FEFFFFFFFFFFFFF, some 0x7FF0000000000000, 0x7FF8000000000000⟩

/-- The number of magnitude bits of a format. -/
def Fmt.magBits (f : Fmt) : Nat := if f.signed then f.width - 1 else f.width

/-- R56, R57: the value of a code. -/
def decodeF (f : Fmt) (c : Nat) : FVal :=
  let mag := c % 2 ^ f.magBits
  let neg := f.signed && bit c (f.width - 1)
  if mag ≤ f.maxCode then
    let ex := mag / 2 ^ f.manBits
    let m := mag % 2 ^ f.manBits
    if ex == 0 then .fin neg m (1 - (f.bias : Int) - f.manBits)
    else .fin neg (m + 2 ^ f.manBits) ((ex : Int) - f.bias - f.manBits)
  else if f.infCode == some mag then .inf neg else .nan

/-- The code of a sign and a magnitude code. -/
def signCode (f : Fmt) (neg : Bool) (mag : Nat) : Nat :=
  if f.signed && neg then mag + 2 ^ (f.width - 1) else mag

/-- The number of bits of m. -/
def bitLen (m : Nat) : Nat := if m == 0 then 0 else Nat.log2 m + 1

/-- floor(log2 (m × 2^e)) for m > 0. -/
def expOf (m : Nat) (e : Int) : Int := (bitLen m : Int) - 1 + e

/-- Round-to-nearest-even of m × 2^e (plus less than one unit of m when `sticky`) to a multiple of 2^q, as a count
of 2^q. -/
def rneUnits (m : Nat) (e q : Int) (sticky : Bool) : Nat :=
  if e ≥ q then m * 2 ^ (e - q).toNat
  else
    let d := (q - e).toNat
    let n := m / 2 ^ d
    let r := m % 2 ^ d
    let half := 2 ^ (d - 1)
    if r > half || (r == half && (sticky || n % 2 == 1)) then n + 1 else n

/-- The smallest quantum of a format. -/
def qMin (f : Fmt) : Int := 1 - (f.bias : Int) - f.manBits

/-- The quantum of a format at the magnitude m × 2^e, subnormal-aware. -/
def quantum (f : Fmt) (m : Nat) (e : Int) : Int := max (expOf m e - f.manBits) (qMin f)

/-- The magnitude code of n units of quantum q (it may exceed `maxCode`: then the value is too large). -/
def codeOfUnits (f : Fmt) (n : Nat) (q : Int) : Nat := n + (q - qMin f).toNat * 2 ^ f.manBits

/-- R72, R74, R76: the one rounding of an arithmetic result: round-to-nearest-even, overflow to infinity, subnormals
kept. -/
def roundArith (f : Fmt) (sticky : Bool) : FVal → Nat × Exc
  | .nan => (f.nanCode, .none)
  | .inf neg => (signCode f neg (f.infCode.getD f.maxCode), .none)
  | .fin neg m e =>
    if m == 0 && !sticky then (signCode f neg 0, .none)
    else
      let q := quantum f m e
      let n := rneUnits m e q sticky
      let c := codeOfUnits f n q
      if c > f.maxCode then (signCode f neg (f.infCode.getD f.maxCode), .overflow)
      else if n == 0 then (signCode f neg 0, .underflow)
      else (signCode f neg c, .none)

/-- R82, R83: what a narrowing conversion gives for an already rounded magnitude code. -/
def narrowCode (f : Fmt) (nsat neg : Bool) (c : Nat) : Nat × Exc :=
  if c > f.maxCode then
    match nsat, f.infCode with
    | true, some i => (signCode f neg i, .overflow)
    | _, _ => (signCode f neg f.maxCode, .overflow)
  else if c == 0 then (signCode f neg 0, .underflow)
  else (signCode f neg c, .none)

/-- R82: the cases of a narrowing conversion that do not round: NaN, infinity, zero, and a negative source of a
format without a sign. -/
def narrowSpecial (f : Fmt) : FVal → Option (Nat × Exc)
  | .nan => some (f.nanCode, .none)
  | .inf neg =>
    if !f.signed && neg then some (0, .invalid)
    else match f.infCode with
      | some i => some (signCode f neg i, .none)
      | none => some (signCode f neg f.maxCode, .overflow)
  | .fin neg m _ =>
    if m == 0 then some (signCode f neg 0, .none)
    else if !f.signed && neg then some (0, .invalid)
    else none

/-- R76, R82: narrowing with round-to-nearest-even. -/
def narrowRne (f : Fmt) (nsat : Bool) (x : FVal) : Nat × Exc :=
  match narrowSpecial f x, x with
  | some r, _ => r
  | none, .fin neg m e => narrowCode f nsat neg (codeOfUnits f (rneUnits m e (quantum f m e) false) (quantum f m e))
  | none, _ => (f.nanCode, .none)

/-- R77: narrowing with stochastic rounding under the 16 random bits r. -/
def narrowSr (f : Fmt) (nsat : Bool) (r : Nat) (x : FVal) : Nat × Exc :=
  match narrowSpecial f x, x with
  | some res, _ => res
  | none, .fin neg m e =>
    let q := quantum f m e
    if e ≥ q then narrowCode f nsat neg (codeOfUnits f (m * 2 ^ (e - q).toNat) q)
    else
      let d := (q - e).toNat
      let n := m / 2 ^ d
      let f16 := (m % 2 ^ d) * 65536 / 2 ^ d
      let n' := if f16 + r ≥ 65536 then n + 1 else n
      narrowCode f nsat neg (codeOfUnits f n' q)
  | none, _ => (f.nanCode, .none)

/-- R82: conversion to INT8, nearest with ties to even, saturating. -/
def narrowInt8 : FVal → Nat × Exc
  | .nan => (0, .invalid)
  | .inf neg => (if neg then 0x80 else 0x7F, .overflow)
  | .fin neg m e =>
    let n := rneUnits m e 0 false
    if neg then (if n > 128 then (0x80, .overflow) else ((256 - n) % 256, .none))
    else (if n > 127 then (0x7F, .overflow) else (n, .none))

/-- Two's complement value of an n-bit code. -/
def toSigned (c n : Nat) : Int := if c % 2 ^ n < 2 ^ (n - 1) then (c % 2 ^ n : Nat) else ((c % 2 ^ n : Nat) : Int) - 2 ^ n

/-- The exact value of an integer. -/
def ofInt (i : Int) : FVal := .fin (i < 0) i.natAbs 0

/-- The n-bit two's complement code of an integer. -/
def ofSigned (i : Int) (n : Nat) : Nat := (i % (2 ^ n : Int)).toNat

/-- Sign of a value; NaN counts as positive. -/
def FVal.neg? : FVal → Bool
  | .nan => false
  | .inf n => n
  | .fin n _ _ => n

/-- Whether a value is NaN. -/
def FVal.isNan : FVal → Bool
  | .nan => true
  | _ => false

/-- Whether a value is neither NaN nor infinite. -/
def FVal.isFin : FVal → Bool
  | .fin _ _ _ => true
  | _ => false

/-- Whether a value is a zero of either sign. -/
def FVal.isZero : FVal → Bool
  | .fin _ m _ => m == 0
  | _ => false

/-- The value with the opposite sign. -/
def negV : FVal → FVal
  | .nan => .nan
  | .inf n => .inf (!n)
  | .fin n m e => .fin (!n) m e

/-- The value with sign positive. -/
def absV : FVal → FVal
  | .nan => .nan
  | .inf _ => .inf false
  | .fin _ m e => .fin false m e

/-- The signed integer of a finite value in units of 2^q, q at most its exponent. -/
def unitsAt (neg : Bool) (m : Nat) (e q : Int) : Int :=
  let n : Int := ((m * 2 ^ (e - q).toNat : Nat) : Int)
  if neg then -n else n

/-- Exact sum. An exact zero sum of values that are not both negative zeros is +0 under round-to-nearest-even. -/
def addV : FVal → FVal → FVal
  | .nan, _ => .nan
  | _, .nan => .nan
  | .inf a, .inf b => if a == b then .inf a else .nan
  | .inf a, _ => .inf a
  | _, .inf b => .inf b
  | .fin na ma ea, .fin nb mb eb =>
    let q := min ea eb
    let s := unitsAt na ma ea q + unitsAt nb mb eb q
    if s == 0 then .fin (na && nb && ma == 0 && mb == 0) 0 q else .fin (s < 0) s.natAbs q

/-- Exact product. -/
def mulV : FVal → FVal → FVal
  | .nan, _ => .nan
  | _, .nan => .nan
  | .inf a, .inf b => .inf (a != b)
  | .inf a, .fin b m _ => if m == 0 then .nan else .inf (a != b)
  | .fin a m _, .inf b => if m == 0 then .nan else .inf (a != b)
  | .fin a m e, .fin b n f => .fin (a != b) (m * n) (e + f)

/-- Order of two non-NaN values with −0 below +0 (R203): −1, 0 or 1. -/
def ordV (x y : FVal) : Int :=
  match x, y with
  | .nan, _ => 0
  | _, .nan => 0
  | .inf a, .inf b => if a == b then 0 else if a then -1 else 1
  | .inf a, _ => if a then -1 else 1
  | _, .inf b => if b then 1 else -1
  | .fin na ma ea, .fin nb mb eb =>
    let q := min ea eb
    let a := unitsAt na ma ea q
    let b := unitsAt nb mb eb q
    if a < b then -1 else if a > b then 1
    else if ma == 0 && mb == 0 && na != nb then (if na then -1 else 1) else 0

/-- Order of two non-NaN values with zeros equal (IEEE 754-2019 comparison): −1, 0 or 1. -/
def cmpV (x y : FVal) : Int :=
  if x.isZero && y.isZero then 0 else ordV x y

/-- The result of an operation: the exact value, whether a discarded tail lies below it, and the exception already
decided. -/
structure Raw where
  v : FVal
  sticky : Bool := false
  exc : Exc := .none
  deriving DecidableEq, Repr

/-- R80: a NaN made from operands that are not NaN is counted INVALID. -/
def rawOf (operandNan : Bool) (v : FVal) : Raw :=
  ⟨v, false, if v.isNan && !operandNan then .invalid else .none⟩

/-- a + b, exact. -/
def rawAdd (a b : FVal) : Raw := rawOf (a.isNan || b.isNan) (addV a b)

/-- a × b, exact. -/
def rawMul (a b : FVal) : Raw := rawOf (a.isNan || b.isNan) (mulV a b)

/-- a × b + c, exact. -/
def rawFma (a b c : FVal) : Raw := rawOf (a.isNan || b.isNan || c.isNan) (addV (mulV a b) c)

/-- R80, R203: minimum, NaN if an operand is NaN. -/
def rawMin (a b : FVal) : Raw :=
  if a.isNan || b.isNan then ⟨.nan, false, .none⟩ else ⟨if ordV a b ≤ 0 then a else b, false, .none⟩

/-- R80, R203: maximum, NaN if an operand is NaN. -/
def rawMax (a b : FVal) : Raw :=
  if a.isNan || b.isNan then ⟨.nan, false, .none⟩ else ⟨if ordV a b ≥ 0 then a else b, false, .none⟩

/-- a / b as a quotient of at least 64 significant bits with a sticky tail (IEEE 754-2019; R86). -/
def rawDiv (a b : FVal) : Raw :=
  match a, b with
  | .nan, _ => ⟨.nan, false, .none⟩
  | _, .nan => ⟨.nan, false, .none⟩
  | .inf _, .inf _ => ⟨.nan, false, .invalid⟩
  | .inf x, .fin y _ _ => ⟨.inf (x != y), false, .none⟩
  | .fin x _ _, .inf y => ⟨.fin (x != y) 0 0, false, .none⟩
  | .fin x m e, .fin y n f =>
    if n == 0 then (if m == 0 then ⟨.nan, false, .invalid⟩ else ⟨.inf (x != y), false, .divzero⟩)
    else if m == 0 then ⟨.fin (x != y) 0 0, false, .none⟩
    else
      let k := 64 + bitLen n
      ⟨.fin (x != y) (m * 2 ^ k / n) (e - f - k), m * 2 ^ k % n != 0, .none⟩

/-- floor(√n) by one bit at a time, from bit k down. -/
def isqrtLoop (n : Nat) : Nat → Nat → Nat
  | 0, r => r
  | k + 1, r =>
    let c := r + 2 ^ k
    isqrtLoop n k (if c * c ≤ n then c else r)

/-- floor(√n). -/
def isqrt (n : Nat) : Nat := isqrtLoop n (bitLen n / 2 + 1) 0

/-- √a with at least 64 significant bits and a sticky tail; −0 gives −0, a negative value INVALID (R80, R205). -/
def rawSqrt : FVal → Raw
  | .nan => ⟨.nan, false, .none⟩
  | .inf neg => if neg then ⟨.nan, false, .invalid⟩ else ⟨.inf false, false, .none⟩
  | .fin neg m e =>
    if m == 0 then ⟨.fin neg 0 e, false, .none⟩
    else if neg then ⟨.nan, false, .invalid⟩
    else
      let k := 130 + ((e % 2).toNat)
      let n := m * 2 ^ k
      let r := isqrt n
      ⟨.fin false r ((e - k) / 2), r * r != n, .none⟩

/-- R87: the place of an exception in the order INVALID, DIVZERO, OVERFLOW, UNDERFLOW. -/
def excRank : Exc → Nat
  | .invalid => 0
  | .divzero => 1
  | .overflow => 2
  | .underflow => 3
  | .none => 4

/-- R87: one element is counted once, in the order INVALID, DIVZERO, OVERFLOW, UNDERFLOW. -/
def excMerge (a b : Exc) : Exc := if excRank b < excRank a then b else a

/-- R74: rounds an operation's result once to a format. -/
def finish (f : Fmt) (r : Raw) : Nat × Exc :=
  let p := roundArith f r.sticky r.v
  (p.1, excMerge r.exc p.2)

/-- The exact value of an FP32 code. -/
def f32 (c : Nat) : FVal := decodeF fmtFP32 c

/-- The exact value of an FP64 code. -/
def f64 (c : Nat) : FVal := decodeF fmtFP64 c

/-- Rounds to FP32, the code alone. -/
def to32 (r : Raw) : Nat := (finish fmtFP32 r).1

/-- Rounds to FP64, the code alone. -/
def to64 (r : Raw) : Nat := (finish fmtFP64 r).1

/-- An exact value with nothing discarded. -/
def exact (v : FVal) : Raw := ⟨v, false, .none⟩

/-- The FP64 code nearest to an FP32 code (exact, R84). -/
def w32to64 (c : Nat) : Nat := to64 (exact (f32 c))

/-- The FP32 code nearest to an FP64 code. -/
def n64to32 (c : Nat) : Nat := to32 (exact (f64 c))

/-- The largest magnitude of a list of finite values (R67). -/
def maxAbs (vs : List FVal) : FVal :=
  vs.foldl (fun a v => if cmpV (absV v) a > 0 then absV v else a) (.fin false 0 0)

/-- R67: the exponent emax of an element type. -/
def emaxOf (f : Fmt) : Int :=
  if f = fmtE2M1 then 2 else if f = fmtE4M3 then 8 else if f = fmtE5M2 then 15 else 16

/-- R67, R68: one element of a block, scaled by 2^(−k) and narrowed without counting saturation or underflow; a
negative non-zero value of UE5M3 becomes +0 and counts INVALID. FP4 saturates and flushes alike. -/
def quantElem (f : Fmt) (k : Int) (v : FVal) : Nat × Exc :=
  let x := match v with
    | .fin n m e => FVal.fin n m (e - k)
    | y => y
  let r := narrowRne f false x
  (r.1, if r.2 = .invalid then .invalid else .none)

/-- R67: quantizes a block: the scale code, the element codes and their exceptions (one INVALID for a block with a
NaN or an infinity). -/
def quantBlock (f : Fmt) (vs : List FVal) : Nat × List Nat × List Exc :=
  if vs.any (fun v => !v.isFin) then (0xFF, vs.map (fun _ => 0), [.invalid])
  else
    let k : Int := match maxAbs vs with
      | .fin _ m e => if m == 0 then -127 else max (expOf m e - emaxOf f) (-127)
      | _ => -127
    let es := vs.map (quantElem f k)
    ((k + 127).toNat, es.map (·.1), es.map (·.2))

/-- R59, R69: the value of an element under a scale code; NaN under scale 0xFF. -/
def scaled (v : FVal) (scale : Nat) : FVal :=
  if scale == 0xFF then .nan
  else match v with
    | .fin n m e => .fin n m (e + scale - 127)
    | x => x

/-- R363: adds two FP32 codes with one rounding. -/
def add32 (a b : Nat) : Nat := to32 (rawAdd (f32 a) (f32 b))

/-- Adds two FP64 codes with one rounding. -/
def add64 (a b : Nat) : Nat := to64 (rawAdd (f64 a) (f64 b))

/-- Adjacent pairs of a list, the last one alone when the count is odd. -/
def pairUp {α : Type} (op : α → α → α) : List α → List α
  | a :: b :: r => op a b :: pairUp op r
  | [a] => [a]
  | [] => []

/-- R204, R363: a balanced binary tree over a list, with fuel at least the list's length. -/
def treeFold {α : Type} (op : α → α → α) (z : α) : Nat → List α → α
  | _, [] => z
  | _, [a] => a
  | 0, a :: _ => a
  | n + 1, l => treeFold op z n (pairUp op l)

/-- The consecutive pieces of n elements of a list (fuel at least its length). -/
def chunksOf {α : Type} (n : Nat) : Nat → List α → List (List α)
  | 0, _ => []
  | _, [] => []
  | f + 1, l => l.take n :: chunksOf n f (l.drop n)

/-- R363: a sum in the fixed order: chunks of 4,096 terms summed in sequence, then the chunk sums in a tree. -/
def orderedSum (op : Nat → Nat → Nat) (z : Nat) (l : List Nat) : Nat :=
  let cs := (chunksOf 4096 l.length l).map (fun c => match c with
    | [] => z
    | a :: r => r.foldl op a)
  treeFold op z cs.length cs

end Sys2Proof.Machine
end

