-- ==== Sys2Proof/Machine/Mem.lean ====
section
/-! DEFINITION. One addressed memory: a canonical list of the bytes that differ from zero, with the ranges whose
contents the manual calls undefined. An unlisted byte reads zero (R231, R241, R291; log entry 6); an undefined one
reads a free value of Config (R235, R250, R285, R530; log entry 5). -/

namespace Sys2Proof.Machine

/-- A range of undefined bytes: first address, number of bytes, tag of the free value drawn for it. -/
structure Undef where
  start : Nat
  len : Nat
  tag : Nat
  deriving DecidableEq, Repr

/-- A memory. `cells` holds address and byte pairs with strictly rising addresses and no zero byte. -/
structure Mem where
  cells : List Host.Cell := []
  undef : List Undef := []
  deriving DecidableEq, Repr

/-- Whether every address of a cell list lies above a. -/
def cellsAbove (a : Nat) : List Host.Cell → Bool
  | [] => true
  | c :: r => decide (a < c.1) && cellsAbove a r

/-- The canonical form of a cell list. -/
def cellsWf : List Host.Cell → Bool
  | [] => true
  | c :: r => c.2 != 0 && cellsAbove c.1 r && cellsWf r

/-- The canonical form of a memory: rising addresses and no entry equal to what an unlisted address reads as. -/
def memWf (m : Mem) : Bool := cellsWf m.cells

/-- The listed byte at an address, zero if it is not listed. -/
def cellAt (a : Nat) : List Host.Cell → Byte
  | [] => 0
  | c :: r => if c.1 = a then c.2 else cellAt a r

/-- Removes an address from a cell list. -/
def cellDel (a : Nat) : List Host.Cell → List Host.Cell
  | [] => []
  | c :: r => if c.1 = a then r else c :: cellDel a r

/-- Puts a byte that is not zero at its place in a cell list. -/
def cellIns (a : Nat) (b : Byte) : List Host.Cell → List Host.Cell
  | [] => [(a, b)]
  | c :: r => if a < c.1 then (a, b) :: c :: r else if c.1 = a then (a, b) :: r else c :: cellIns a b r

/-- Writes one byte into a cell list; writing zero removes the entry. -/
def cellPut (a : Nat) (b : Byte) (l : List Host.Cell) : List Host.Cell :=
  if b = 0 then cellDel a l else cellIns a b l

/-- What is left of an undefined range when n bytes from address a become defined. -/
def undefCut1 (a n : Nat) (u : Undef) : List Undef :=
  let lo := max a u.start
  let hi := min (a + n) (u.start + u.len)
  if lo < hi then
    (if u.start < lo then [⟨u.start, lo - u.start, u.tag⟩] else []) ++
    (if hi < u.start + u.len then [⟨hi, u.start + u.len - hi, u.tag⟩] else [])
  else [u]

/-- The undefined ranges when n bytes from address a become defined. -/
def undefCut (a n : Nat) (us : List Undef) : List Undef := us.flatMap (undefCut1 a n)

/-- The byte at an address. -/
def memRead (m : Mem) (a : Nat) : Byte :=
  match m.undef.find? (fun u => decide (u.start ≤ a) && decide (a < u.start + u.len)) with
  | some u => Config.freeByte u.tag a
  | none => cellAt a m.cells

/-- Writes one byte. -/
def memWrite (m : Mem) (a : Nat) (b : Byte) : Mem :=
  { cells := cellPut a b m.cells, undef := undefCut a 1 m.undef }

/-- The n bytes from an address. -/
def memReadN (m : Mem) (a : Nat) : Nat → List Byte
  | 0 => []
  | n + 1 => memRead m a :: memReadN m (a + 1) n

/-- Writes bytes from an address upward. -/
def memWriteN (m : Mem) (a : Nat) : List Byte → Mem
  | [] => m
  | b :: r => memWriteN (memWrite m a b) (a + 1) r

/-- Keeps the cells outside n bytes from address a. -/
def cellsOutside (a n : Nat) (l : List Host.Cell) : List Host.Cell :=
  l.filter (fun c => decide (c.1 < a) || decide (a + n ≤ c.1))

/-- Writes n zero bytes from address a. -/
def memZero (m : Mem) (a n : Nat) : Mem :=
  { cells := cellsOutside a n m.cells, undef := undefCut a n m.undef }

/-- Makes n bytes from address a undefined under a tag. -/
def memUndef (m : Mem) (a n tag : Nat) : Mem :=
  { cells := cellsOutside a n m.cells, undef := ⟨a, n, tag⟩ :: undefCut a n m.undef }

end Sys2Proof.Machine
end

