-- ==== Sys2Proof/Machine/CoreState.lean ====
section
/-! DEFINITION. The state of one core: matrix arrays (03), register files and sequencer (04), vector results in flight
(05), scratchpad (06) and stream slots (07). Plain data. -/

namespace Sys2Proof.Machine

/-- R129: the power state of an array. -/
inductive APower where
  | off
  | resting
  | awake
  deriving DecidableEq, Repr

/-- The table before R117: the state of an array's (or quadrant's) shadow registers. -/
inductive ShadowState where
  | empty
  | loading
  | full
  | free
  deriving DecidableEq, Repr

/-- R97, R113: half a column of stationary registers (16 rows), with the element format and scale they carry. -/
structure HalfCol where
  fmt : Nat := 0
  scale : Nat := 0
  elems : List Nat := []
  deriving DecidableEq, Repr

/-- One matrix array (R96 to R98, R107, R129). Half columns are keyed 32 × (row half) + column, accumulator words
1,024 × bank + 32 × row + column; what a table does not list reads zero. `intWords` holds the keys of the words that
an INT8 pass wrote last (R109). -/
structure MArray where
  power : APower := .off
  quarter : Bool := false
  active : Tbl HalfCol := []
  shadow : Tbl HalfCol := []
  shadowState : Tbl ShadowState := []
  acc : Tbl Nat := []
  intWords : List Nat := []
  deriving DecidableEq, Repr

/-- A pass or a load in progress: its fields with the address registers read at issue (R144), the vectors and scales
read so far, keyed 64 × quadrant + index. -/
structure MatOp where
  isPass : Bool
  issue : Nat
  f : MatF
  addr : Nat
  stride : Nat
  saddr : Nat
  qoff : Nat
  data : Tbl (List Nat) := []
  scales : Tbl (List Nat) := []
  deriving DecidableEq, Repr

/-- An effect that falls due at the end of a plan cycle. -/
inductive Due where
  /-- R105: the rounded column result of a vector reaches an accumulator word; the exception so far. -/
  | acc (array key val : Nat) (exc : Exc) (add int : Bool)
  /-- R193: bits of a vector register. -/
  | vreg (r mask val : Nat)
  /-- R193: bits of a mask register. -/
  | mreg (r mask val : Nat)
  /-- R225: bytes of the scratchpad, from a byte address. -/
  | sp (byteAddr : Nat) (bytes : List Byte)
  /-- R268: the near bytes of an inbound descriptor that has landed before its plan deadline, from which they are
  defined, each access with its byte address (R259). -/
  | near (accesses : List (Nat × List Byte))
  /-- R130: an array becomes AWAKE. -/
  | awake (array : Nat)
  /-- R132: an array becomes RESTING. -/
  | rest (array : Nat)
  /-- R158: an array takes a new mode. -/
  | mode (array : Nat) (quarter : Bool)
  /-- R162: the stream engine accepts an arm: slot, table entry, offset of the near side, arming opcode, the
  intra-frame cycle and the plan cycle of the arming instruction. -/
  | accept (slot entry base kind u t : Nat)
  deriving DecidableEq, Repr

/-- R254 to R257: a descriptor as the stream engine holds it, with the deadlines of its own arm (R163, R271) and its place in
the order of acceptance (R265). -/
structure Desc where
  kind : Nat := 0
  far : Nat := 0
  policy : Nat := 0
  tag : Nat := 0
  partner : Nat := 0
  deadline : Nat := 0
  farAddr : Nat := 0
  spByte : Nat := 0
  n0 : Nat := 32
  n1 : Nat := 1
  n2 : Nat := 1
  n3 : Nat := 1
  fs1 : Int := 0
  fs2 : Int := 0
  fs3 : Int := 0
  ss1 : Int := 0
  ss2 : Int := 0
  ss3 : Int := 0
  waitBound : Nat := 4096
  entry : Nat := 0
  planDl : Nat := 0
  frameDl : Int := 0
  pairIdx : Nat := 0
  order : Nat := 0
  completeAt : Option Nat := none
  landedAt : Option Nat := none
  moved : Bool := false
  deriving DecidableEq, Repr

/-- R252, R269: one stream slot. -/
structure Slot where
  active : Option Desc := none
  next : Option Desc := none
  deriving DecidableEq, Repr

/-- R165: one half of the sequencer memory: the segment it holds (parcel, item number, segment index), its bundles,
its descriptor table and its initial registers; `fullAt` is the postmark and cycle in which the fill completed, and `later`
says of the second half that its fill began after one of the first half that is still under way. -/
structure SeqHalf where
  seg : Option (Nat × Nat × Nat) := none
  filling : Bool := false
  fullAt : Nat × Nat := (0, 0)
  later : Bool := false
  bundles : List (List Byte) := []
  descs : List (List Byte) := []
  aregs : List Word := []
  deriving DecidableEq, Repr

/-- R173: what a core's holds in a segment leave for FEED_LATE. -/
structure HoldRec where
  cycles : Nat := 0
  episodes : Nat := 0
  firstSlot : Nat := 0xFF
  firstPlan : Nat := 0
  deriving DecidableEq, Repr

/-- The table before R169: IDLE, ISSUING, or HOLD with the reason (R167, R169) and the intra-frame cycle at which
it began. -/
inductive SeqState where
  | idle
  | issuing
  | hold (forFill : Bool) (since : Nat)
  deriving DecidableEq, Repr

/-- R145: a block being recorded: the bundles still to come and issued, and the iterations that follow. -/
structure Block where
  body : Nat
  count : Nat
  recorded : List Bundle := []
  deriving DecidableEq, Repr

/-- What a core has still to issue by itself: repeats of a bundle (R143) and iterations of a block (R145). -/
inductive Todo where
  | wait (cycles : Nat)
  | issue (b : Bundle)
  deriving DecidableEq, Repr

/-- The sequencer of a core (R139 to R150, R163 to R174). -/
structure Seq where
  st : SeqState := .idle
  item : Option (Nat × Nat × Nat) := none
  plan : Nat := 0
  start : Nat := 0
  hold : HoldRec := {}
  bundle : List SlotOp := []
  nextIdx : Nat := 0
  blocks : List Block := []
  todo : List Todo := []
  ended : Bool := false
  h0 : SeqHalf := {}
  h1 : SeqHalf := {}
  deriving DecidableEq, Repr

/-- R234, R235: the gating of one scratchpad quarter: a pending request and the first cycle in which it may be granted; a
grant in the plan cycle in which the core stands; off; the plan cycle from which accesses are accepted after a power-up. -/
structure Quarter where
  pendingGate : Bool := false
  gateAt : Nat := 0
  granted : Bool := false
  off : Bool := false
  usableAt : Nat := 0
  deriving DecidableEq, Repr

/-- One core (R28): the state of its units. `vregs`, `mregs` and `aregs` list the registers from number 0; a register
past the end of the list reads zero. `usable` is the postmark and cycle from which quarters powered up after a failure
accept accesses (R237), `lastLanded` those of the last descriptor to land (R267); `gone` lists the
descriptors that have landed, with their slots: each keeps its position until the cycle of its landing (R264, R269) and its place
in the deadline check until the cycle after its completion (R169); `accepted` counts
the descriptors accepted in the segment (R265), and `upsets` lists what errors have struck and no check has found (R540). -/
structure Core where
  vregs : List (BitVec 4096) := List.replicate 64 0
  mregs : List (BitVec 128) := List.replicate 8 0
  aregs : List Word := List.replicate 32 0
  rng : List Word := List.replicate 256 0
  arrays : Tbl MArray := []
  ops : List MatOp := []
  due : List (Nat × Due) := []
  sp : Mem := {}
  quarters : Tbl Quarter := []
  slots : Tbl Slot := []
  pairs : Tbl Nat := []
  seq : Seq := {}
  spCorrected : Nat := 0
  usable : Nat × Nat := (0, 0)
  lastLanded : Nat × Nat := (0, 0)
  gone : List (Nat × Desc) := []
  accepted : Nat := 0
  upsets : List Upset := []
  deriving DecidableEq, Repr

/-- R98, R129: array k of a core. -/
def Core.array (c : Core) (k : Nat) : MArray := (tblGet c.arrays k).getD {}

/-- Sets array k of a core. -/
def Core.setArray (c : Core) (k : Nat) (a : MArray) : Core := { c with arrays := tblPut c.arrays k a }

/-- R252: stream slot k of a core. -/
def Core.slot (c : Core) (k : Nat) : Slot := (tblGet c.slots k).getD {}

/-- Sets stream slot k of a core. -/
def Core.setSlot (c : Core) (k : Nat) (x : Slot) : Core := { c with slots := tblPut c.slots k x }

/-- R216: quarter k (0 to 15) of a core's scratchpad. -/
def Core.quarter (c : Core) (k : Nat) : Quarter := (tblGet c.quarters k).getD {}

/-- Sets quarter k of a core. -/
def Core.setQuarter (c : Core) (k : Nat) (x : Quarter) : Core := { c with quarters := tblPut c.quarters k x }

/-- R149: the address register; a0 reads zero. -/
def Core.areg (c : Core) (k : Nat) : Word := if k = 0 then 0 else nth c.aregs k 0

/-- R149: writes an address register; a write of a0 is discarded. -/
def Core.setAreg (c : Core) (k : Nat) (w : Word) : Core :=
  if k = 0 then c else { c with aregs := c.aregs.set k w }

/-- R151: the scratchpad word address in an address register. -/
def Core.addr (c : Core) (k : Nat) : Nat := bits (c.areg k).toNat 20 0

/-- R151: the stride, in words, in an address register. -/
def Core.stride (c : Core) (k : Nat) : Nat := bits (c.areg k).toNat 31 21

/-- R149: a vector register as a number of 4,096 bits. -/
def Core.vreg (c : Core) (k : Nat) : Nat := (nth c.vregs k 0).toNat

/-- R149: a mask register as a number of 128 bits. -/
def Core.mreg (c : Core) (k : Nat) : Nat := (nth c.mregs k 0).toNat

/-- The intra-frame cycle in which a core stands (R44, R171). -/
def Core.frameCycle (c : Core) : Nat := c.seq.start + c.seq.plan + c.seq.hold.cycles

/-- R540: whether a part that an error strikes holds state: an OFF array and a free half of the sequencer memory hold none,
and a0 carries no parity (R591). -/
def Core.holds (c : Core) : Upset → Bool
  | .reg _ a _ _ | .scale _ a _ _ | .acc a _ => (c.array a).power != .off
  | .bundle second _ | .entry second _ => (if second then c.seq.h1 else c.seq.h0).seg.isSome
  | .addr r _ => r != 0
  | _ => true

/-- R226: an error strikes: a second one in a scratchpad word is more than its code corrects. -/
def Core.strike (c : Core) (u : Upset) : Core :=
  if !c.holds u then c
  else match u with
    | .word w d =>
      let again := c.upsets.any (fun x => x == .word w false || x == .word w true)
      { c with upsets := .word w (d || again) :: c.upsets.filter (fun x => x != .word w false && x != .word w true) }
    | u => { c with upsets := u :: c.upsets.filter (· != u) }

/-- R540: what is cleared, overwritten or filled anew is sound again. -/
def Core.heal (c : Core) (p : Upset → Bool) : Core := { c with upsets := c.upsets.filter (fun u => !p u) }

/-- Whether an error lies in a scratchpad word that a byte range touches. -/
def inRange (a n : Nat) : Upset → Bool
  | .word w _ => decide (a < 8 * (w + 1)) && decide (8 * w < a + n)
  | _ => false

/-- R225, R226: writes bytes into a core's scratchpad, with fresh check bits. -/
def Core.spWrite (c : Core) (a : Nat) (bs : List Byte) : Core :=
  { c with sp := memWriteN c.sp a bs, upsets := c.upsets.filter (fun u => !inRange a bs.length u) }

/-- R227: the scratchpad word, of those read, that has more wrong bits than its code corrects. -/
def Core.spBad (c : Core) (read : Nat → Bool) : Option CoreFault :=
  c.upsets.findSome? (fun u => match u with
    | .word w true => if read w then some { cause := 2, tile := w / 1024, row := w / 32 % 32 } else none
    | _ => none)

/-- R226: the number of single-bit errors that a read of words corrects. -/
def Core.spFixed (c : Core) (read : Nat → Bool) : Nat :=
  (c.upsets.filter (fun u => match u with
    | .word w false => read w
    | _ => false)).length

/-- R591: whether a read of address registers finds an error. -/
def Core.aregBad (c : Core) (rs : List Nat) : Bool :=
  c.upsets.any (fun u => match u with
    | .addr r _ => rs.contains r
    | _ => false)
end Sys2Proof.Machine
end

