-- ==== Sys2Proof/Machine/ParcelState.lean ====
section
/-! DEFINITION. The state of parcels, tenancies, items, updates and channels (09, 10, 11, 12, 13, 14, 15), and the
sets of names they use: item statuses (R8), reply statuses (R9), event kinds (R552). Plain data. -/

namespace Sys2Proof.Machine

/-- R8: item completion statuses. -/
inductive IStatus where
  | done | doneLate | doneRetried
  | coreFenced | actDetect | memUncorrected | memLost | bankOff | stashOverrun | streamDeadlock
  | frameOverrun | lengthExceedsPlan | stepSkew | stepAborted | thermalHold | peerLost
  | divergenceHold | parcelReset | descriptor | security | internal
  deriving DecidableEq, Repr

/-- R8: the value of an item status. -/
def IStatus.code : IStatus → Nat
  | .done => 0x00 | .doneLate => 0x01 | .doneRetried => 0x02
  | .coreFenced => 0x10 | .actDetect => 0x11 | .memUncorrected => 0x12 | .memLost => 0x13
  | .bankOff => 0x14 | .stashOverrun => 0x15 | .streamDeadlock => 0x16 | .frameOverrun => 0x17
  | .lengthExceedsPlan => 0x18 | .stepSkew => 0x19 | .stepAborted => 0x1A | .thermalHold => 0x1B
  | .peerLost => 0x1C | .divergenceHold => 0x1D | .parcelReset => 0x1E | .descriptor => 0x1F
  | .security => 0x20 | .internal => 0x2F

/-- R8: a value of 0x10 or above is a failure. -/
def IStatus.fails (s : IStatus) : Bool := decide (0x10 ≤ s.code)

/-- R9: ZMI reply statuses. -/
inductive RStatus where
  | ok | okPartial | badOpcode | badLength | badBaseline | badParcel | noResource | sealedRefused
  | notPrivileged | busy | verifyFailed | signatureFailed | cadastreRecovery | thermalHold
  | maintenance | hostDmaFailed | notInMaintenance | internal
  deriving DecidableEq, Repr

/-- R9: the value of a reply status. -/
def RStatus.code : RStatus → Nat
  | .ok => 0x0000 | .okPartial => 0x0001 | .badOpcode => 0x0100 | .badLength => 0x0101
  | .badBaseline => 0x0102 | .badParcel => 0x0103 | .noResource => 0x0104 | .sealedRefused => 0x0105
  | .notPrivileged => 0x0106 | .busy => 0x0107 | .verifyFailed => 0x0108 | .signatureFailed => 0x0109
  | .cadastreRecovery => 0x010A | .thermalHold => 0x010B | .maintenance => 0x010C
  | .hostDmaFailed => 0x010D | .notInMaintenance => 0x010E | .internal => 0x01FF

/-- R551: an event record before it is numbered and laid out; the payload is in the PF form. -/
structure Event where
  postmark : Nat
  cycle : Nat := 0
  kind : Nat
  parcel : Nat := 0xFF
  tenancy : Nat := 0xFF
  len : Nat := 0
  flags : Nat := 0
  seq : Nat := 0xFFFFFFFF
  payload : List Byte := []
  deriving DecidableEq, Repr

/-- R550, R554: one event log: its records with their numbers, the newest last; the newest number, the newest
consumed and the count lost. -/
structure EvLog where
  recs : List (Nat × Event) := []
  tail : Nat := 0
  head : Nat := 0
  lost : Nat := 0
  lostFlag : Bool := false
  deriving DecidableEq, Repr

/-- Who a reply goes to: mailbox block (64: BMC), envelope ring slot (none: inline or sideband), opcode, sequence
number, parcel and tenancy fields, the session it belongs to, and the indirect reply buffer (R471, R472). A ticket is
`dead` once a reset has taken its requester's session (R568). -/
structure Ticket where
  block : Nat
  slot : Option Nat := none
  op : Nat := 0
  seq : Nat := 0
  parcel : Nat := 0xFFFF
  tenancy : Nat := 0xFFFF
  session : Nat := 0
  baseline : Nat := 0
  indirect : Option (Nat × Nat) := none
  dead : Bool := false
  deriving DecidableEq, Repr

/-- R419: how far a suspended command has come: the bytes of its range that are done, the header, the key
and the number of its KEY_SET of a wrapped load, and the plaintext or the plan image read so far; the verification checks that a PLAN_LOAD has
passed, with what the segments checked so far leave on the cores. -/
structure Susp where
  done : Nat := 0
  checks : Nat := 0
  sums : Tbl Int := []
  head : List Byte := []
  key : List Byte := []
  keySet : Nat := 0
  data : List Byte := []
  deriving DecidableEq, Repr

/-- R418, R419: a held command: its ticket, form and payload, and where it stopped when a slice's end suspended it. -/
structure Held where
  tk : Ticket
  form : Nat := 0
  payload : List Byte
  susp : Option Susp := none
  deriving DecidableEq, Repr

/-- What an item runs on or as. -/
inductive ItemKind where
  | plan
  | batch (reg : Nat)
  | update
  | coll
  deriving DecidableEq, Repr

/-- R386, and the REPLICATED course of R380: where a group of an update item stands. -/
inductive GPhase where
  | wait | pass1 | norm | pass2 | voted | inDoubt | committed
  | done (st : IStatus)
  deriving DecidableEq, Repr

/-- One group of an update item: its gate, phase, sums, factors applied, and the norms, votes and flags seen. -/
structure GroupRun where
  group : Nat
  gate : Nat := 0xFFFFFFFF
  phase : GPhase := .wait
  sw : Nat := 0
  sg : Nat := 0
  swAll : Nat := 0
  sgAll : Nat := 0
  rows : List Nat := []
  cols : List Nat := []
  norms : Tbl (Nat × Nat) := []
  normCols : Tbl (List Nat) := []
  cf : Nat := 0x3F800000
  tr : Nat := 0x3F800000
  sdw : Nat := 0
  tally : Nat := 0
  elements : Nat := 0
  clipped : Bool := false
  torn : Bool := false
  skipped : Bool := false
  step : Nat := 0
  votes : Tbl (Nat × Bool) := []
  votedAt : Nat := 0
  normed : Bool := false
  addr : Nat := 0
  ev : Nat := 0
  elem : List Nat := []
  deriving DecidableEq, Repr

/-- R526: one collective descriptor of a collective item, as submitted. -/
structure CollOp where
  op : Nat
  fmt : Nat
  outFmt : Nat
  channel : Nat
  root : Nat
  src : Nat
  dst : Nat
  count : Nat
  deriving DecidableEq, Repr

/-- R526 to R528: where a collective item stands: the operation, the tensor of a GRADIENT operation, the message of the
ring that is awaited, and the bytes of it that have come. -/
structure CollRun where
  op : Nat := 0
  tensor : Nat := 0
  msg : Nat := 0
  got : List Byte := []
  deriving DecidableEq, Repr

/-- An item: an entry of a submission ring, a batch, an update or a collective item (R537). `built` is the
postmark of a batch's build, `admitted` the postmark and cycle of the admission
and `segEnd` the cycle in which the last segment ended (R335), `streams` lists the channels and tags that it used (R525), `cursors` the stash cursors at its first segment (R280),
`lostSeen` whether a LOST_ACCESS has been recorded for it (R326). -/
structure Item where
  seq : Nat
  tenancy : Nat
  kind : ItemKind := .plan
  itemId : Nat := 0
  length : Nat := 0
  userTag : Nat := 0
  classMax : Nat := 0
  begun : Bool := false
  seg : Nat := 0
  segRunning : Bool := false
  segStart : Nat := 0
  segFrame : Nat := 0
  segEnd : Nat := 0
  cursors : Tbl Nat := []
  exc : List Nat := [0, 0, 0, 0]
  held : Nat := 0
  late : Bool := false
  segsRun : Nat := 0
  reissuePending : Bool := false
  reissued : Bool := false
  gate : Nat := 0xFFFFFFFF
  batch : List Nat := []
  groups : List GroupRun := []
  tallyCh : Nat := 0xFFFF
  replicas : Nat := 1
  sealWait : Nat := 100
  tallies : Tbl (List (Nat × Nat × Nat × Nat)) := []
  tallySent : Bool := false
  tallyOver : Bool := false
  ops : List CollOp := []
  coll : CollRun := {}
  streams : List (Nat × Nat) := []
  built : Nat := 0
  lostSeen : Bool := false
  admitted : Nat × Nat := (0, 0)
  deriving DecidableEq, Repr

/-- What a failure says in a dead-letter entry (R488). -/
structure FailAt where
  status : IStatus
  desc : Nat := 0xFF
  core : Nat := 0xFFFF
  seg : Nat := 0xFFFF
  slot : Nat := 0xFF
  group : Nat := 0xFFFF
  addr : Nat := 0
  lotSlot : Nat := 0xFFFF
  deriving DecidableEq, Repr

/-- R283, R536: an item that has failed: as it stood, what its entries say, whether it waits for its re-issue instead (R301), the
number of the FEED_LATE record that its end raised, or 0, and how many causes have come. -/
structure Ended where
  parcel : Nat
  item : Item
  fail : FailAt
  pending : Bool
  lateEv : Nat := 0
  causes : Nat := 1
  deriving DecidableEq, Repr

/-- R283, R329, R536, R560: the failures of one cycle, given by its postmark and intra-frame cycle: the items that ended in it, and
the cores that they stopped, as these stood; later causes of the same cycle meet them. -/
structure Fails where
  at_ : Nat × Nat := (0, 0)
  items : List Ended := []
  cores : List (Nat × Core) := []
  deriving DecidableEq, Repr

/-- R190, R330: a loaded plan variant: its tenancy, class, unit, flags, where it is stored, and the
image's bytes. -/
structure Plan where
  tenancy : Nat
  itemId : Nat
  classMin : Nat
  classMax : Nat
  unit : Nat
  flags : Nat
  segments : Nat
  seed : Nat
  slot : Nat
  offset : Nat
  slots : Nat
  image : List Byte
  digest : List Byte
  deriving DecidableEq, Repr

/-- R441: a weight-key slot; `set` numbers the KEY_SET that filled it (R419). -/
structure KeySlot where
  key : List Byte
  label : List Byte
  set : Nat
  deriving DecidableEq, Repr

/-- R397, R417, R461, R446: one tenancy position: its descriptor, its saved state (each item in its one home), keys (`keySets` counts
the KEY_SETs),
ledger, overflow queues (R486), held commands (R418) and its log (R550). -/
structure Tenancy where
  mailbox : Nat := 0xFF
  sliceEnd : Nat := 0
  slice : Nat := 0
  maxExtend : Nat := 0
  nextSeq : Nat := 0
  failed : List Nat := []
  surveyLost : Bool := false
  surveyNext : Nat := 0
  divHold : Bool := false
  framesRun : Nat := 0
  overrun : Nat := 0
  switchesIn : Nat := 0
  itemsDone : Nat := 0
  itemsFailed : Nat := 0
  tensorWrites : Nat := 0
  keys : Tbl KeySlot := []
  keySets : Nat := 0
  signer : List Byte := []
  ledger : List (List Byte) := []
  cplQ : List (List Byte × Bool) := []
  dlrQ : List (List Byte) := []
  held : List Held := []
  seals : List Ticket := []
  log : EvLog := {}
  barred : Bool := false
  deriving DecidableEq, Repr

/-- R405: the state of a parcel entry. -/
inductive PState where
  | free | active | isSealed | resetting | releasing
  deriving DecidableEq, Repr

/-- R405: the value of a parcel state. -/
def PState.code : PState → Nat
  | .free => 0 | .active => 1 | .isSealed => 2 | .resetting => 3 | .releasing => 4

/-- R423: a serving registration. -/
structure Reg where
  tenancy : Nat
  itemId : Nat
  tableSlot : Nat
  padSlot : Nat
  winBase : Nat
  kvl : Nat
  batch : Nat
  advance : Nat
  deriving DecidableEq, Repr

/-- R422: a manifest entry; `pendingOp` is a change that waits for the batch that holds the entry (R428). -/
structure MEntry where
  seqTag : Nat := 0
  state : Nat := 0
  tenancy : Nat := 0
  reg : Nat := 0
  position : Nat := 0
  classMax : Nat := 0
  lastServed : Nat := 0
  kv : List Nat := [0xFFFF, 0xFFFF, 0xFFFF, 0xFFFF]
  pendingOp : Option Nat := none
  deriving DecidableEq, Repr

/-- R289: a lot table entry in the parts that are stored; LOST is computed from the lost marks (R316). -/
structure LotEnt where
  lot : Nat
  classA : Bool
  plan : Bool := false
  owner : Nat
  deriving DecidableEq, Repr

/-- R385: a staging journal entry: group, t, the decision once it is known and the frame in which it was written,
whether a commit has been applied, and the slots: state slot and its lot, staging slot and its lot. An entry stays until
the group votes again. -/
structure Journal where
  group : Nat
  t : Nat
  decision : Option Bool := none
  at_ : Nat := 0
  applied : Bool := false
  slots : List (Nat × Nat × Nat × Nat) := []
  deriving DecidableEq, Repr

/-- R513, R524: the unsent bytes of one LINK OUT descriptor, whose bytes are a message: how many are left, how many have gone
before them, and the descriptor's intra-frame deadline. -/
structure TxMark where
  left : Nat
  sent : Nat := 0
  dl : Int
  deriving DecidableEq, Repr

/-- R524: one stream of a POINT channel: bytes received and not taken, bytes accepted to send and not sent, credit. -/
structure Stream where
  rx : List Byte := []
  tx : List Byte := []
  txDl : List TxMark := []
  credit : Nat := 0
  used : Nat := 0
  granted : Nat := 0
  deriving DecidableEq, Repr

/-- An update frame that arrived before its group was open: type, channel, sender's rank, payload. -/
structure Early where
  type : Nat
  channel : Nat
  rank : Nat
  body : List Byte
  deriving DecidableEq, Repr

/-- R522: a channel entry with its counters (R523, R532) and streams. -/
structure Channel where
  kind : Nat := 0
  keySlot : Nat := 0xFF
  tenancy : Nat := 0
  peerParcel : Nat := 0
  peerMember : Nat := 0
  peerChannel : Nat := 0
  timeout : Nat := 0
  members : List Nat := []
  rank : Nat := 0
  sent : Nat := 0
  received : Nat := 0
  authFailed : Nat := 0
  txCounter : Nat := 0
  rxCounter : Tbl Nat := []
  streams : Tbl Stream := []
  deriving DecidableEq, Repr

/-- R413 to R416, R420: the slice of the running tenancy, with the SLICE_END and MAX_EXTEND that it began with. -/
structure Slice where
  first : Nat := 0
  len : Nat := 1
  sliceEnd : Nat := 0
  maxExtend : Nat := 0
  expired : Bool := false
  expiredAt : Nat := 0
  updateDone : Bool := false
  idleFrames : Nat := 0
  deactivated : Bool := false
  deriving DecidableEq, Repr

/-- Work in progress that changes a parcel's state: creation, reset, release, or a switch with its incoming
tenancy (R408, R410, R411, R416). -/
inductive PWork where
  | none
  | creating (tk : Ticket)
  | resetting (tk : Ticket) (prior : PState) (incoming : Option Nat)
  | releasing (tk : Ticket)
  | switching (incoming since : Nat)
  deriving DecidableEq, Repr

/-- One parcel (R394 to R397) with the tables hub memory keeps for it. For a SHARDED group: `aborted` gives the t whose abort
is recorded here (R384), `doomed` the t that a query has aborted before the group voted (R387), `heard` the t and the shards
whose messages of the seal in progress have come to a frozen group (R376). -/
structure Parcel where
  state : PState := .free
  running : Nat := 0xFF
  quads : List Nat := []
  granules : List (Nat × Nat × Bool) := []
  created : Nat := 0
  coreMap : List Nat := []
  lots : Tbl LotEnt := []
  tenancies : Tbl Tenancy := []
  slice : Slice := {}
  work : PWork := .none
  switchFrames : Nat := 0
  cursors : Tbl Nat := []
  noSegBefore : Nat × Nat := (0, 0)
  items : List Item := []
  plans : List Plan := []
  groups : Tbl (List Byte) := []
  programs : Tbl (List Byte) := []
  survey : List (List Byte) := []
  surveyDropped : Nat := 0
  journal : List Journal := []
  manifest : Tbl MEntry := []
  regs : Tbl Reg := []
  live : Tbl Nat := []
  channels : Tbl Channel := []
  inbox : List Early := []
  aborted : Tbl Nat := []
  doomed : Tbl Nat := []
  heard : Tbl (Nat × List Nat) := []
  sealPending : Bool := false
  sealedAt : Nat := 0
  coarse : List Byte := []
  thermEvent : Nat := 0
  deriving DecidableEq, Repr

/-- R394, R395, R399: one stored copy of the cadastre: its generation, the entries of the parcels that are not FREE, and whether
its CRC holds. The 270,400 bytes of a copy follow from these (log entry 19). -/
structure CadCopy where
  generation : Nat := 0
  image : List (Nat × List Byte) := []
  good : Bool := true
  deriving DecidableEq, Repr

/-- Tenancy position k of a parcel; a position not in use has mailbox 0xFF. -/
def Parcel.ten (p : Parcel) (k : Nat) : Tenancy := (tblGet p.tenancies k).getD {}

/-- Sets tenancy position k. -/
def Parcel.setTen (p : Parcel) (k : Nat) (t : Tenancy) : Parcel := { p with tenancies := tblPut p.tenancies k t }

/-- R409: the positions in use, in ascending order. -/
def Parcel.inUse (p : Parcel) : List Nat := (List.range 8).filter (fun k => (p.ten k).mailbox != 0xFF)

/-- R32: the physical core of a logical core. -/
def Parcel.phys (p : Parcel) (lc : Nat) : Nat := nth p.coreMap lc 0xFF

/-- R32: the logical core of a physical core. -/
def Parcel.logical (p : Parcel) (pc : Nat) : Option Nat := p.coreMap.findIdx? (· == pc)

/-- The first item with a sequence number. -/
def Parcel.item (p : Parcel) (seq : Nat) : Option Item := p.items.find? (fun i => i.seq == seq)

/-- Changes the item with a sequence number. -/
def Parcel.updItem (p : Parcel) (seq : Nat) (f : Item → Item) : Parcel :=
  { p with items := p.items.map (fun i => if i.seq == seq then f i else i) }

/-- R331: the variants of an item for a tenancy. -/
def Parcel.variants (p : Parcel) (ten itemId : Nat) : List Plan :=
  p.plans.filter (fun v => v.tenancy == ten && v.itemId == itemId)

/-- R331: the variant with the smallest CLASS_MAX that is at least a length. -/
def Parcel.cover (p : Parcel) (ten itemId len : Nat) : Option Plan :=
  ((p.variants ten itemId).filter (fun v => decide (len ≤ v.classMax))).foldl (fun (a : Option Plan) v =>
    match a with
    | none => some v
    | some x => if v.classMax < x.classMax then some v else some x) none

/-- The plan variant an item is bound to. -/
def Parcel.planOf (p : Parcel) (i : Item) : Option Plan :=
  (p.variants i.tenancy i.itemId).find? (fun v => v.classMax == i.classMax)

/-- R361: the group entry of 160 bytes; zero until written. -/
def Parcel.group (p : Parcel) (g : Nat) : List Byte := (tblGet p.groups g).getD (zeros 160)

/-- A channel of the parcel. -/
def Parcel.chan (p : Parcel) (c : Nat) : Channel := (tblGet p.channels c).getD {}

end Sys2Proof.Machine
end

