-- ==== Sys2Proof/Machine/HostState.lean ====
section
/-! DEFINITION. The state of the host side and of the package: mailbox blocks (13), PCIe and security (12, 14), dies,
stacks (06, 08), Courier ports and federation (14), power, boot and sensors (16). Plain data. -/

namespace Sys2Proof.Machine

/-- R469: one ring: base, LOG2, head and tail. -/
structure Ring where
  base : Nat := 0
  log2 : Nat := 0
  head : Nat := 0
  tail : Nat := 0
  deriving DecidableEq, Repr

/-- R467, R477: a session of a partner. -/
structure Session where
  number : Nat
  baseline : Nat
  deriving DecidableEq, Repr

/-- R469: a mailbox block. `envNext` counts the envelope slots taken (R475); the `Stopped` fields say that a ring waits
after an access that failed (R590), `open_` counts the commands of the block's session that have no reply yet (R478). -/
structure MBlock where
  enable : Bool := false
  irqStatus : Nat := 0
  irqMask : Nat := 0xFF
  session : Option Session := none
  inlineBusy : Bool := false
  inlineReq : List Byte := List.replicate 1024 0
  inlineRpl : List Byte := List.replicate 1024 0
  req : Ring := {}
  cpl : Ring := {}
  dlr : Ring := {}
  env : Ring := {}
  itemRings : Bool := false
  envRing : Bool := false
  envNext : Nat := 0
  envAnswered : List Nat := []
  stateShown : Nat := 0
  readStopped : Bool := false
  cplStopped : Bool := false
  dlrStopped : Bool := false
  open_ : Nat := 0
  deriving DecidableEq, Repr

/-- R565: the rails, in the order in which they rise. -/
inductive Rail where
  | hotSwap | aux | hub | hbm | cd (die : Nat)
  deriving DecidableEq, Repr

/-- R583, R587: the transport of the sideband, as SB_SEL straps it: the lines I3C_SCL and I3C_SDA, or SMB_SCL and SMB_SDA. -/
inductive SideBus where
  | i3c | smbus
  deriving DecidableEq, Repr

/-- What the module has shown outside it. -/
inductive Output where
  /-- R491, R503: an MSI-X message of a function and vector. -/
  | msix (fn vector : Nat)
  /-- R465: a reply envelope to the board management controller. -/
  | bmcReply (env : List Byte)
  /-- R437, R439: an SPDM response at an endpoint. -/
  | spdm (endpoint : Nat) (msg : List Byte)
  /-- R583, R584, R587: an MCTP control or PLDM response, or a PLDM platform event, with the transport and the static
  address of the module on it. -/
  | mctp (bus : SideBus) (addr : Nat) (msg : List Byte)
  | pldm (bus : SideBus) (addr : Nat) (msg : List Byte)
  | pldmEvent (bus : SideBus) (addr : Nat) (sensor : Nat) (value : Nat)
  /-- R565, R566: a rail comes into regulation or is removed; PWR_GOOD is asserted or deasserted. -/
  | rail (r : Rail) (on : Bool)
  | pwrGood (on : Bool)
  /-- R572: the step that GLOBAL_STATUS.BOOT_STAGE shows from now on. -/
  | bootStage (step : Nat)
  /-- R463, R451: the status that answers a debug token. -/
  | debug (status : Nat)
  /-- R496: the Device Readiness Status message. -/
  | drs
  /-- R496: Request Retry Status, the answer to a configuration request of a function before the configuration space is ready. -/
  | retryStatus (fn : Nat)
  /-- R499 to R501: the completion of a BAR2 read; none is a poisoned completion. -/
  | bar2 (data : Option (List Byte))
  /-- R513: a Courier frame sent on a port (0xFF: no port of the route is UP). -/
  | frame (port : Nat) (bytes : List Byte)
  /-- R504, R506: a flit sent on a port; a link-level answer to a flit: its acknowledgement, or a replay request from a sequence
  number. -/
  | flit (port : Nat) (bytes : List Byte)
  | flitAck (port seq : Nat)
  | flitReplay (port seq : Nat)
  /-- R495: an ATS invalidation completion. -/
  | atsDone (fn addr : Nat)
  deriving DecidableEq, Repr

/-- R313, R314: a channel declared dead whose fold is due: the channel, the cause of R321, the postmark and cycle of the
declaration. -/
structure FoldDue where
  channel : Nat
  cause : Nat
  at_ : Nat × Nat
  deriving DecidableEq, Repr

/-- R306, R305, R310 to R312, R328: one HBM stack; `window` is the postmark of its last retrain window. `unmapDue` holds the
channels that wait to be unmapped, each with the postmark of its declaration. -/
structure Stack where
  temp : Nat := 0
  refresh : Nat := 1
  below : List Bool := [true, true]
  sampled : Bool := false
  nextCh : Nat := 0
  fails : Nat := 0
  window : Option Nat := none
  exhausted : Tbl Nat := []
  correctedSeen : Bool := false
  corrected : Nat := 0
  uncorrected : Nat := 0
  detect : Nat := 0
  replay : Nat := 0
  foldDue : Option FoldDue := none
  unmapDue : List (Nat × Nat) := []
  unmapped : List Nat := []
  unreachable : Bool := false
  deriving DecidableEq, Repr

/-- R243, R248: a line of a cache-mode granule, with the parcels and items that have dirtied it since it was last clean. -/
structure Line where
  tag : Nat
  dirty : Bool
  writers : List (Nat × Nat)
  data : List Byte
  deriving DecidableEq, Repr

/-- R238, R243: one die-store granule: its owner and mode, and for cache mode its lines, keyed 16 × set + way, and
the tree bits of a set (15 bits). -/
structure Granule where
  owner : Option Nat := none
  cache : Bool := false
  lines : Tbl Line := []
  plru : Tbl Nat := []
  deriving DecidableEq, Repr

/-- One compute die: its granules, the bytes of its scratchpad-mode granules, its counter, its temperature; `hot` says that
it stands above 95 °C as R306 filters its readings, `below` that every sample of the frame lay 3 °C below (R578). -/
structure Die where
  granules : Tbl Granule := []
  store : Mem := {}
  dsCorrected : Nat := 0
  lost : Bool := false
  temp : Nat := 0
  hot : Bool := false
  below : Bool := true
  powerW : Nat := 0
  deriving DecidableEq, Repr

/-- R483 FENCE_QUERY: the state of a physical core. -/
inductive CState where
  | active | reserve | fenced | bad | promoted
  deriving DecidableEq, Repr

/-- R483: the value of a core state. -/
def CState.code : CState → Nat
  | .active => 0 | .reserve => 1 | .fenced => 2 | .bad => 3 | .promoted => 4

/-- R541, R483: what the package keeps of a physical core beside its units; `cause` is the fault's; `replaces` is the
fenced core whose position a promoted core took (R545). -/
structure CoreMeta where
  state : CState := .active
  fencedAt : Nat := 0
  cause : Nat := 0
  promoteDue : Bool := false
  replaces : Option Nat := none
  deriving DecidableEq, Repr

/-- R322: an entry of the repair candidate list: kind (1 row, 2 lane), stack, channel, pseudo-channel, row or lane,
postmark of listing. -/
structure Repair where
  kind : Nat
  stack : Nat
  channel : Nat
  pseudo : Nat
  row : Nat
  postmark : Nat
  deriving DecidableEq, Repr

/-- R508: the state of a Courier port. -/
inductive PortSt where
  | disabled | training | up | down
  deriving DecidableEq, Repr

/-- R508, R532: the value of a port state. -/
def PortSt.code : PortSt → Nat
  | .disabled => 0 | .training => 1 | .up => 2 | .down => 3

/-- One Courier port (R504 to R510). -/
structure Port where
  st : PortSt := .disabled
  mode8023 : Bool := false
  active : Nat := 0xF
  failed : Nat := 0
  peerMember : Nat := 0xFFFF
  peerPort : Nat := 0
  replays : Nat := 0
  rxNext : Nat := 0
  txNext : Nat := 0
  kept : List (Nat × List Byte) := []
  rxBuf : List Byte := []
  rxReplay : Bool := false
  replayTo : Option Nat := none
  pendingCfg : List Ticket := []
  deriving DecidableEq, Repr

/-- R520: a wait on a member: the parcel and channel, what is awaited (a stream's tag; 256 the ring of a collective;
from 1,024 on a group's NORM, 8,192 its vote or decision, 65,536 a TALLY), the cycle it began in, the sum of the DURATIONs
of the HOLD frames since. -/
structure Wait where
  parcel : Nat
  channel : Nat
  key : Nat
  member : Nat
  since : Nat
  ext : Nat := 0
  deriving DecidableEq, Repr

/-- R515 to R518: the federation as the package knows it. -/
structure Fed where
  federated : Bool := false
  aligned : Bool := false
  number : Nat := 0
  member : Nat := 0
  datum : Nat := 0
  upstream : Nat := 0xFF
  forming : Option (Ticket × Nat × Nat) := none
  samples : List Int := []
  quiet : Bool := false
  offset : Int := 0
  noTick : Nat := 0
  outFrames : Nat := 0
  inFrames : Nat := 0
  tickSeen : Bool := false
  tickPostmark : Nat := 0
  tickPeriod : Nat := 0
  lengthened : Bool := false
  routes : Tbl Nat := []
  lostMembers : List Nat := []
  waits : List Wait := []
  holdSeen : List (Nat × Nat × Nat) := []
  deriving DecidableEq, Repr

/-- R442: the TDISP state of a VF. -/
inductive Tdisp where
  | unlocked | locked | run | error
  deriving DecidableEq, Repr

/-- R432, R437: an SPDM secured session at an endpoint: whether FINISH has completed it, its number, how often its keys have
been updated, the secrets of the requester's and the responder's direction, and the main secret of its phase. -/
structure Spdm where
  finished : Bool
  number : Nat
  keyGen : Nat := 0
  req : List Byte := []
  rsp : List Byte := []
  main : List Byte := []
  deriving DecidableEq, Repr

/-- The PCIe function side: SR-IOV, BAR2, MSI-X, ATS, IDE, TDISP, SPDM (12, 14). -/
structure Pcie where
  perst : Bool := true
  linkUp : Bool := false
  cfgReady : Bool := false
  numVfs : Nat := 0
  vfEnable : Bool := false
  bar2En : Bool := false
  bar2Miss : Bool := false
  windows : Tbl Nat := []
  lapsed : List Nat := []
  msix : Tbl (List Byte) := []
  msixPending : List (Nat × Nat) := []
  atsOn : List Nat := []
  cfg : Tbl Nat := []
  ide : List (Nat × Nat × List Byte) := []
  linkIde : Option (List Byte) := none
  tdisp : Tbl Tdisp := []
  tdispNonce : Tbl (List Byte) := []
  spdmConn : Tbl Nat := []
  spdm : Tbl Spdm := []
  statusShown : Nat := 0
  deriving DecidableEq, Repr

/-- R431 to R436, R462, R463: the security module: its error state, M0 to M7, the storage key, CDI1, the private alias key
and the alias certificate; the UDS is `Config.uds`, and the DIK and CDI0 are erased during boot (R432). -/
structure Sec where
  error : Bool := false
  measure : List (List Byte) := List.replicate 8 (List.replicate 32 0)
  storage : List Byte := []
  cdi1 : List Byte := []
  aliasKey : Nat := 0
  aliasCert : List Byte := []
  dbgOpen : Bool := false
  dbgEver : Bool := false
  deriving DecidableEq, Repr

/-- R434, R435: an image set of boot storage: the digests of its four images, its security version. -/
structure ImageSet where
  digests : List (List Byte) := []
  svn : Nat := 0
  valid : Bool := true
  /-- Whether its header asks to raise the fused security version (R435). -/
  raises : Bool := false
  deriving DecidableEq, Repr

/-- What fuses and boot storage hold (R30, R136, R321, R322, R434, R435, R462, R498, R543). -/
structure Store where
  coreFuse : Tbl CState := []
  arrayFuse : Tbl (List Byte) := []
  stepping : Nat := 0
  svn : Nat := 0
  revoked : Nat := 0
  production : Bool := true
  dbgPermLock : Bool := true
  folds : Tbl Nat := []
  fenceRec : List Nat := []
  repairs : List Repair := []
  rowSeen : List (Nat × Nat × Nat) := []
  rowsUsed : Tbl Nat := []
  lanesUsed : Tbl Nat := []
  laneReplays : Tbl Nat := []
  sets : List ImageSet := [{}, {}]
  activeSet : Nat := 0
  staged : Option Nat := none
  deriving DecidableEq, Repr

/-- R561 to R581: power, reset, boot and temperature. In a boot: whether it is a warm one, the image set that runs,
whether hub memory is retained, and whether it waits for a temperature (R574). `holdDue` is the cause of a thermal hold
that a reading called for in frame `holdAt` (R308). `rails` lists the rails in regulation in the order in which they rose
(R565); `goodFor` counts the cycles since PWR_GOOD was asserted that lie before the present boot; `hubHot` and `hubBelow` are
for the hub die what R578 has of a compute die. The pins are PWR_GOOD (`good`), THERM_ALERT_L (low where `alert`),
SMB_ALERT_L (low where `smbAlert`), MOD_RESET_L (low where `modResetL`) and the straps SB_SEL and SLOT_ID (R587); PRESENT_L
is tied low. -/
structure Power where
  inputMv : Nat := 0
  good : Bool := false
  rails : List Rail := []
  goodFor : Nat := 0
  latchOff : Bool := false
  modResetL : Bool := false
  bootStage : Nat := 0
  ready : Bool := false
  readyOnce : Bool := false
  stopped : Bool := false
  bootWarm : Bool := false
  bootSet : ImageSet := {}
  bootKept : Bool := false
  selfRefresh : Bool := false
  waitBoot : Bool := false
  refclk : Bool := true
  alert : Bool := false
  inputW : Nat := 0
  hubTemp : Nat := 0
  regTemp : Nat := 0
  holdOn : Bool := false
  holdCause : Nat := 0
  holdDue : Nat := 0
  holdAt : Nat := 0
  frameCool : Bool := true
  coolLast : Bool := false
  hubHot : Bool := false
  hubBelow : Bool := true
  sampled : Bool := false
  drainOn : Bool := false
  smbAlert : Bool := false
  sbSel : Bool := false
  slotId : Nat := 0
  deriving DecidableEq, Repr

/-- R583 to R586: the sensor readings as last updated (`states` are sensors 30 to 33), the telemetry window, and what the
bus owner has assigned: the MCTP endpoint ID and the PLDM terminus ID; `acc` sums and counts the temperature samples since
the sensors were last read, by sensor (R459). -/
structure Telem where
  inputW : Nat := 0
  inputMv : Nat := 0
  dieT : List Nat := List.replicate 8 0
  hubT : Nat := 0
  hsT : List Nat := List.replicate 12 0
  regT : Nat := 0
  states : List Nat := [0, 0, 0, 0]
  window : List Nat := List.replicate 7 0
  readAt : Nat := 0
  eid : Nat := 0
  tid : Nat := 0
  acc : Tbl (Nat × Nat) := []
  deriving DecidableEq, Repr

/-- R38 to R43, R51: time and the frame; `base` counts the cycles of the frames that have passed since boot. `stamp` is the
intra-frame cycle of the happening that a command describes, which may lie before the counter where cores run apart (log
entry 7). -/
structure Time where
  postmark : Nat := 0
  cycle : Nat := 0
  stamp : Nat := 0
  period : Nat := 3300032
  nextPeriod : Option Nat := none
  base : Nat := 0
  deriving DecidableEq, Repr

/-- R43: a frame-boundary change that a command requested and that waits to be applied: a period, the begin and end of a
drain, a promotion, a federation that is joined or left, and of a parcel its sealing, the end of its reset or release, and
the end of the slice of a deactivated tenancy. -/
inductive Change where
  | period (p : Nat) (tk : Ticket)
  | drainBegin (tk : Ticket)
  | drainEnd (tk : Ticket)
  | promote (fenced reserve : Nat) (tk : Ticket)
  | fedJoin
  | fedLeave (tk : Ticket)
  | sealed (p : Nat)
  | reset (p : Nat)
  | release (p : Nat)
  | deactivate (p : Nat)
  deriving DecidableEq, Repr

/-- The HBM of the package: its bytes by package-physical address, lost granules and stored symbol errors. -/
structure Hbm where
  mem : Mem := {}
  lostPcs : List Nat := []
  cleared : List Nat := []
  lostExtra : List Nat := []
  errs : Tbl (List (Nat × Nat)) := []
  deriving DecidableEq, Repr

/-- Memory outside the module (R473, R495): its bytes, the ranges whose access fails, and the host's address translations: a
function, a page of 4 KiB, and the page it stands for, or none where the translation fails; a page without an entry stands
for itself. -/
structure HostMem where
  mem : Mem := {}
  bad : List (Nat × Nat) := []
  ats : List (Nat × Nat × Option Nat) := []
  deriving DecidableEq, Repr

/-- A reply or message of a sealed parcel that waits for the frame head (R460). -/
inductive Delayed where
  | reply (tk : Ticket) (st : RStatus) (payload : List Byte)
  | irq (block bits : Nat)
  | msg (block source : Nat)
  | entry (ten : Nat) (cpl : Bool) (bytes : List Byte) (failed : Bool)
  deriving DecidableEq, Repr

end Sys2Proof.Machine
end

