-- ==== Sys2Proof/Machine/State.lean ====
section
/-! DEFINITION. The state of the block, the reasons a step can stop, and the state after reset. -/

namespace Sys2Proof.Machine

/-- The reasons a step can stop with a fault. No command raises one: the manual gives every command an effect, and a
fault of the hardware ends an item with a status (R534), not the machine. -/
inductive Fault where
  /-- Raised by nobody; safe. -/
  | neverRaised
  deriving DecidableEq, Repr

/-- The reasons a step can be refused. -/
inductive Refusal where
  /-- The dispatch raises it for a command that has no meaning yet; safe. -/
  | notModelled (mnemonic : String)
  deriving DecidableEq, Repr

/-- Everything the manual gives the module, the commands that wait, and the model's own fields: the counter of free
values, the memory of the host and what the module has shown outside. `changes` holds the accepted frame-boundary changes in
order of acceptance, each with the postmark of its acceptance (R43); `passed` is the postmark of the last frame head in which
one was applied and how many entries of the list came before it there; `fails` holds what failed in the cycle of the last failure. -/
structure State where
  pending : List Instr := []
  free : Nat := 0
  time : Time := {}
  power : Power := {}
  store : Store := {}
  cores : Tbl Core := []
  metas : Tbl CoreMeta := []
  dies : Tbl Die := []
  hs : Tbl Stack := []
  hbm : Hbm := {}
  parcels : Tbl Parcel := []
  fails : Fails := {}
  copyA : CadCopy := {}
  copyB : CadCopy := {}
  recovery : Bool := false
  changes : List (Nat × Change) := []
  passed : Nat × Nat := (0, 0)
  blocks : Tbl MBlock := []
  bmcSession : Option Session := none
  bmcOpen : Nat := 0
  sessions : Nat := 0
  pcie : Pcie := {}
  sec : Sec := {}
  ports : Tbl Port := []
  fed : Fed := {}
  pfLog : EvLog := {}
  bmcLog : EvLog := {}
  telem : Telem := {}
  delayed : List (Nat × Nat × Delayed) := []
  host : HostMem := {}
  outputs : List Output := []
  deriving DecidableEq, Repr

/-- R568, R561: every register at its value after a cold reset, with no input power (log entries 2, 3, 4); no
command waits. -/
def State.reset : State := {}

end Sys2Proof.Machine
end

