-- ==== Sys2Proof/Machine/Ops.lean ====
section
/-! DEFINITION. The named operations over the state: the homes of cores, dies, stacks, parcels and blocks; events and
logs (R550 to R556); interrupts (R491, R503); host memory (R473); replies (R471, R474, R475); rings and the posting
of entries (R486 to R489). -/

namespace Sys2Proof.Machine

/-- Core k (physical index, R30). -/
def State.core (s : State) (k : Nat) : Core := (tblGet s.cores k).getD {}

/-- Sets core k. -/
def State.setCore (s : State) (k : Nat) (c : Core) : State := { s with cores := tblPut s.cores k c }

/-- R30, R31: the state that the fuse map gives a core: positions 0 to 5 active, position 6 reserve unless the fuses
say otherwise (log entry 4). -/
def fuseState (s : State) (k : Nat) : CState :=
  (tblGet s.store.coreFuse k).getD (if k % 28 < 24 then .active else .reserve)

/-- What the package keeps of core k. -/
def State.cmeta (s : State) (k : Nat) : CoreMeta := (tblGet s.metas k).getD { state := fuseState s k }

/-- Sets what the package keeps of core k. -/
def State.setCmeta (s : State) (k : Nat) (m : CoreMeta) : State := { s with metas := tblPut s.metas k m }

/-- Compute die d. -/
def State.die (s : State) (d : Nat) : Die := (tblGet s.dies d).getD {}

/-- Sets compute die d. -/
def State.setDie (s : State) (d : Nat) (x : Die) : State := { s with dies := tblPut s.dies d x }

/-- Stack k. -/
def State.stack (s : State) (k : Nat) : Stack := (tblGet s.hs k).getD {}

/-- Sets stack k. -/
def State.setStack (s : State) (k : Nat) (x : Stack) : State := { s with hs := tblPut s.hs k x }

/-- Parcel p. -/
def State.parcel (s : State) (p : Nat) : Parcel := (tblGet s.parcels p).getD {}

/-- Sets parcel p. -/
def State.setParcel (s : State) (p : Nat) (x : Parcel) : State := { s with parcels := tblPut s.parcels p x }

/-- Changes parcel p. -/
def State.modParcel (s : State) (p : Nat) (f : Parcel → Parcel) : State := s.setParcel p (f (s.parcel p))

/-- Changes tenancy t of parcel p. -/
def State.modTen (s : State) (p t : Nat) (f : Tenancy → Tenancy) : State :=
  s.modParcel p (fun x => x.setTen t (f (x.ten t)))

/-- Changes item seq of parcel p. -/
def State.modItem (s : State) (p seq : Nat) (f : Item → Item) : State := s.modParcel p (·.updItem seq f)

/-- Mailbox block n. -/
def State.block (s : State) (n : Nat) : MBlock := (tblGet s.blocks n).getD {}

/-- Sets mailbox block n. -/
def State.setBlock (s : State) (n : Nat) (b : MBlock) : State := { s with blocks := tblPut s.blocks n b }

/-- Changes mailbox block n. -/
def State.modBlock (s : State) (n : Nat) (f : MBlock → MBlock) : State := s.setBlock n (f (s.block n))

/-- Courier port k. -/
def State.port (s : State) (k : Nat) : Port := (tblGet s.ports k).getD {}

/-- Sets Courier port k. -/
def State.setPort (s : State) (k : Nat) (x : Port) : State := { s with ports := tblPut s.ports k x }

/-- Draws a tag for a free value: the tag and the state after it (log entry 5). -/
def draw (s : State) : Nat × State := (s.free, { s with free := s.free + 1 })

/-- R39: sets the intra-frame cycle of the happening that a command describes, a cycle of the frame; the counter follows it
and never runs backward. -/
def State.atCycle (s : State) (u : Nat) : State :=
  let k := min u (s.time.period - 1)
  { s with time := { s.time with cycle := max s.time.cycle k, stamp := k } }

/-- The parcels that exist, in ascending order. -/
def liveParcels (s : State) : List Nat := (List.range 48).filter (fun p => (s.parcel p).state != .free)

/-- R409: the parcel and position that a mailbox block is bound to. -/
def boundTo (s : State) (n : Nat) : Option (Nat × Nat) :=
  if n == 0 then none
  else ((liveParcels s).flatMap (fun p => ((s.parcel p).inUse.filter (fun t => ((s.parcel p).ten t).mailbox == n)).map
    (fun t => (p, t)))).head?

/-- R466: the function a block is assigned to: 0 the PF, n VF n. -/
def blockFn (s : State) (n : Nat) : Nat :=
  if n != 0 && s.pcie.vfEnable && n ≤ s.pcie.numVfs then n else 0

/-- R448, R449: whether a parcel is sealed, or was when its reset or release began. -/
def isSealed (s : State) (p : Nat) : Bool :=
  let x := s.parcel p
  x.state == .isSealed || (x.sealedAt != 0 && (x.state == .resetting || x.state == .releasing))

/-- R449: whether a parcel is treated as sealed towards the operator: sealed or seal-pending. -/
def sealedOrPending (s : State) (p : Nat) : Bool :=
  isSealed s p || (s.parcel p).sealPending

/-- An MSI-X table entry that nothing has written: masked, as PCI Express resets it (R24; log entry 41). -/
def msixEntry : List Byte := zeros 12 ++ [1, 0, 0, 0]

/-- R491, R503: sends an MSI-X message, or sets its pending bit while the vector is masked. -/
def msix (fn vector : Nat) (s : State) : State :=
  let ent := (tblGet s.pcie.msix (4096 * fn + vector)).getD msixEntry
  if bit (le ent 12 4) 0 then
    { s with pcie := { s.pcie with msixPending := (fn, vector) :: s.pcie.msixPending.filter (· != (fn, vector)) } }
  else { s with outputs := s.outputs ++ [.msix fn vector] }

/-- R491: one message of a block's source k. -/
def blockMsix (n k : Nat) (s : State) : State :=
  let f := blockFn s n
  if f == 0 then msix 0 (32 * n + k) s else msix f k s

/-- R491: sets bits of MBX_IRQ_STATUS of a block; each unmasked bit that changes from 0 to 1 sends a message. -/
def setIrqNow (n bitsMap : Nat) (s : State) : State :=
  let b := s.block n
  let new := (List.range 8).filter (fun k => bit bitsMap k && !bit b.irqStatus k)
  let s := s.setBlock n { b with irqStatus := b.irqStatus ||| bitsMap }
  (new.filter (fun k => !bit b.irqMask k)).foldl (fun s k => blockMsix n k s) s

/-- R460: sets interrupt bits; for a block of a sealed parcel at the following frame head. -/
def setIrq (n bitsMap : Nat) (s : State) : State :=
  match boundTo s n with
  | some (p, _) => if isSealed s p then { s with delayed := s.delayed ++ [(p, s.time.postmark, .irq n bitsMap)] } else setIrqNow n bitsMap s
  | none => setIrqNow n bitsMap s

/-- The interrupt bits of R469. -/
def irqInline : Nat := 1
def irqEnv : Nat := 2
def irqCompletion : Nat := 4
def irqDeadLetter : Nat := 8
def irqEvent : Nat := 16
def irqSessionEnd : Nat := 32
def irqRingError : Nat := 64
def irqState : Nat := 128

/-- R550, R554: appends a record to a log of a capacity; a record that overwrites one not yet consumed is counted. -/
def logAppend (cap : Nat) (e : Event) (l : EvLog) : EvLog :=
  let n := l.tail + 1
  let ovr := l.recs.any (fun r => r.1 + cap == n && decide (l.head < r.1))
  { recs := (l.recs ++ [(n, e)]).filter (fun r => r.1 + cap > n), tail := n, head := l.head,
    lost := if ovr then add48 l.lost 1 else l.lost, lostFlag := l.lostFlag || ovr }

/-- R552: event kinds. -/
def evFeedLate : Nat := 0x0001
def evStashOverrun : Nat := 0x0002
def evStreamDeadlock : Nat := 0x0003
def evArmOverrun : Nat := 0x0004
def evBankOff : Nat := 0x0005
def evThermOverPlan : Nat := 0x0006
def evDivergence : Nat := 0x0007
def evFence : Nat := 0x0008
def evFold : Nat := 0x0009
def evSat : Nat := 0x000A
def evHoldSent : Nat := 0x000B
def evHoldReceived : Nat := 0x000C
def evSealAbort : Nat := 0x000D
def evMemError : Nat := 0x0010
def evPromote : Nat := 0x0011
def evCadastre : Nat := 0x0012
def evSecurity : Nat := 0x0013
def evScrub : Nat := 0x0014
def evLink : Nat := 0x0015
def evTickLost : Nat := 0x0016
def evPeerLost : Nat := 0x0017
def evState : Nat := 0x0018
def evRingDiscard : Nat := 0x0019
def evInternal : Nat := 0x001A

/-- R553: whether a kind goes to the BMC log. -/
def kindBmc (k : Nat) : Bool :=
  !(k ≤ 7 || k == evSealAbort || k == evPeerLost)

/-- R553: whether a kind goes to tenancy logs: of every tenancy in use (2), of the tenancy concerned (1), or none. -/
def kindTen (k : Nat) : Nat :=
  if k == evFence || k == evPromote || k == evFold || k == evMemError || k == evSat || k == evSecurity then 2
  else if k ≤ 7 || k == evSealAbort || k == evPeerLost then 1 else 0

/-- R327, R553: the operator's copy of an event: of a sealed parcel only postmark, kind and parcel, with COARSE set; the
LOT_SLOT of a MEM_ERROR record then reads 0xFFFF (log entry 75). -/
def operatorCopy (s : State) (e : Event) : Event :=
  if e.parcel < 48 && sealedOrPending s e.parcel then
    { postmark := e.postmark, kind := e.kind, parcel := e.parcel, tenancy := 0, seq := 0, flags := 1,
      payload := if e.kind == evMemError then zeros 18 ++ [0xFF, 0xFF] ++ zeros 12 else [] } else e

/-- R469, R555: writes a record to the PF log, signals vector 9 when the log was wholly consumed, and sets EVENT of the PF's
own block. -/
def logPf (e : Event) (s : State) : State :=
  let fire := s.pfLog.head == s.pfLog.tail
  let s := { s with pfLog := logAppend 4096 (operatorCopy s e) s.pfLog }
  setIrq 0 irqEvent (if fire then msix 0 9 s else s)

/-- R459, R553: whether a record names an item, by its tenancy and number, whose completion is not yet posted. -/
def itemOpen (s : State) (p t seq : Nat) : Bool :=
  (s.parcel p).items.any (fun i => i.tenancy == t && i.seq == seq) || s.delayed.any (fun d => d.1 == p && (match d.2.2 with
    | .entry t' _ bs _ => t' == t && le bs 0 4 == seq
    | _ => false))

/-- R553, R555: writes a record to a tenancy log, with COARSE set and no cycle. EVENT is set when the record can be read:
now, or at the completion of the item that it names (R459, R469). -/
def logTen (p t : Nat) (e : Event) (s : State) : State :=
  let s := s.modTen p t (fun x => { x with log := logAppend 512 { e with cycle := 0, flags := 1 } x.log })
  if itemOpen s p e.tenancy e.seq then s else setIrq ((s.parcel p).ten t).mailbox irqEvent s

/-- R459, R469: the completion of an item of tenancy t is posted: the unread records that name it, in every tenancy's log, can be
read from now on. -/
def eventsReadable (p t seq : Nat) (s : State) : State :=
  if itemOpen s p t seq then s
  else (s.parcel p).inUse.foldl (fun s k =>
    let l := ((s.parcel p).ten k).log
    if l.recs.any (fun r => decide (l.head < r.1) && r.2.seq == seq && r.2.tenancy == t) then
      setIrq ((s.parcel p).ten k).mailbox irqEvent s
    else s) s

/-- R553: records an event of a parcel: its operator form, and its tenancy form in the logs the kind goes to. The
tenancy named is 0xFF when none is. -/
def recordNow (kind p t seq len : Nat) (pay payTen : List Byte) (s : State) : State :=
  let e : Event := ⟨s.time.postmark, s.time.stamp, kind, p, t, len, 0, seq, pay⟩
  let s := logPf e s
  let s := if kindBmc kind then { s with bmcLog := logAppend 1024 (operatorCopy s e) s.bmcLog } else s
  if 48 ≤ p then s
  else
    let ts := if kindTen kind == 2 then (s.parcel p).inUse
      else if kindTen kind == 1 && t < 8 then [t] else []
    ts.foldl (fun s k => logTen p k { e with payload := payTen } s) s

/-- R556: the LOST counts of the logs of the package (index 0 the PF log, 1 the BMC's) and of parcels (2 to 9 the tenancies'):
parcel, tenancy, index, count. -/
def lostCounts (ps : List Nat) (s : State) : List (Nat × Nat × Nat × Nat) :=
  [(0xFF, 0xFF, 0, s.pfLog.lost), (0xFF, 0xFF, 1, s.bmcLog.lost)] ++
    ps.flatMap (fun p => (List.range 8).map (fun k => (p, k, k + 2, ((s.parcel p).ten k).log.lost)))

/-- R556: the SAT events of the logs whose LOST counts records have brought to their end since a state; a SAT record can bring
another count there. -/
def satLogs (ps : List Nat) : Nat → State → State → State
  | 0, _, s => s
  | n + 1, old, s =>
    let hit := ((lostCounts ps old).zip (lostCounts ps s)).filter (fun x =>
      x.1.2.2.2 + 1 != 2 ^ 48 && x.2.2.2.2 + 1 == 2 ^ 48)
    if hit.isEmpty then s
    else satLogs ps n s (hit.foldl (fun s x =>
      recordNow evSat x.1.1 x.1.2.1 0xFFFFFFFF 4 (leBytes 17 2 ++ leBytes x.1.2.2.1 2) (leBytes 17 2 ++ leBytes x.1.2.2.1 2) s) s)

/-- R553, R556: records an event of a parcel, and the SAT events of the logs whose LOST counts it brings to their end. -/
def recordP (kind p t seq len : Nat) (pay payTen : List Byte) (s : State) : State :=
  satLogs (if 48 ≤ p then [] else [p]) 10 s (recordNow kind p t seq len pay payTen s)

/-- R553, R556: records an event of the package that concerns parcels: to the operator without a parcel, and to every tenancy in use
of each of them, with a payload of its own. -/
def recordShared (kind len : Nat) (ps : List Nat) (pay : List Byte) (payTen : Nat → List Byte) (s : State) : State :=
  let u := recordNow kind 0xFF 0xFF 0xFFFFFFFF len pay pay s
  let u := ps.foldl (fun u p => (u.parcel p).inUse.foldl (fun u t =>
    logTen p t ⟨s.time.postmark, s.time.stamp, kind, p, 0xFF, len, 0, 0xFFFFFFFF, payTen p⟩ u) u) u
  satLogs ps (2 + 8 * ps.length) s u

/-- Records an event of the package. -/
def recordM (kind len : Nat) (pay : List Byte) (s : State) : State := recordP kind 0xFF 0xFF 0xFFFFFFFF len pay pay s

/-- R552: bytes of a payload, each field with its width. -/
def pay (l : List (Nat × Nat)) : List Byte := l.flatMap (fun f => leBytes f.1 f.2)

/-- R556: one SAT event of a counter code and index. -/
def satEvent (p t seq code idx : Nat) (s : State) : State :=
  recordP evSat p t seq 4 (pay [(code, 2), (idx, 2)]) (pay [(code, 2), (idx, 2)]) s

/-- R553, R556: the SAT event of a counter of the package's parts, which concerns parcels; the index of a tenancy's copy is its
own. -/
def satShared (ps : List Nat) (code idx : Nat) (idxTen : Nat → Nat) (s : State) : State :=
  recordShared evSat 4 ps (leBytes code 2 ++ leBytes idx 2) (fun p => leBytes code 2 ++ leBytes (idxTen p) 2) s

/-- R521, R534, R552: the PEER_LOST record of an item that a lost member or an ABORT ends. -/
def peerLostEvent (p t seq member ch : Nat) (s : State) : State :=
  recordP evPeerLost p t seq 3 (leBytes member 2 ++ leBytes ch 1) (leBytes member 2 ++ leBytes ch 1) s

/-- The parcels that hold lots: every stack concerns them. -/
def lotParcels (s : State) : List Nat := (liveParcels s).filter (fun p => !(s.parcel p).lots.isEmpty)

/-- R552: an INTERNAL event with a firmware code. -/
def internalEvent (code : Nat) (s : State) : State := recordM evInternal 4 (leBytes code 4) s

/-- R493, R495: the page that an untranslated page of 4 KiB of a function stands for; none where its translation fails. -/
def atsPage (s : State) (fn page : Nat) : Option Nat :=
  match s.host.ats.find? (fun e => e.1 == fn && e.2.1 == page) with
  | some e => e.2.2
  | none => some page

/-- R473, R495: the stretches of host memory, address and length, that an access of a function to n bytes reaches: translated
page by page where the function has ATS enabled; none where a translation fails. -/
def hostSpans (s : State) (fn a n : Nat) : Option (List (Nat × Nat)) :=
  if s.pcie.atsOn.contains fn then
    ((List.range ((a % 4096 + n + 4095) / 4096)).foldr (fun k l => do
      let lo := max a ((a / 4096 + k) * 4096)
      let page ← atsPage s fn (a / 4096 + k)
      let r ← l
      pure ((page * 4096 + lo % 4096, min (a + n) ((a / 4096 + k + 1) * 4096) - lo) :: r)) (some []))
  else some [(a, n)]

/-- R473: whether a stretch of host memory lies in its address space and outside the ranges whose access fails. -/
def spanOk (s : State) (x : Nat × Nat) : Bool :=
  x.2 == 0 || (x.1 + x.2 ≤ 2 ^ 64 && !s.host.bad.any (fun r => decide (x.1 < r.1 + r.2) && decide (r.1 < x.1 + x.2)))

/-- R473: the stretches that an access of a block's function reaches (block 64: the management controller, through the PF), where
none of them fails. -/
def hostReach (s : State) (block a n : Nat) : Option (List (Nat × Nat)) :=
  (hostSpans s (blockFn s block) a n).filter (fun l => decide (a + n ≤ 2 ^ 64) && l.all (spanOk s))

/-- R473: whether a block's function can access n bytes of host memory. -/
def hostOk (s : State) (block a n : Nat) : Bool := (hostReach s block a n).isSome

/-- R473: reads host memory for a block; none when the access fails. -/
def hostRead (s : State) (block a n : Nat) : Option (List Byte) :=
  (hostReach s block a n).map (fun l => l.flatMap (fun x => memReadN s.host.mem x.1 x.2))

/-- Writes bytes to stretches of memory, in order. -/
def spansWrite : List (Nat × Nat) → List Byte → Mem → Mem
  | [], _, m => m
  | x :: r, bs, m => spansWrite r (bs.drop x.2) (memWriteN m x.1 (bs.take x.2))

/-- R473: writes host memory for a block; none when the access fails. -/
def hostWrite (s : State) (block a : Nat) (bs : List Byte) : Option State :=
  (hostReach s block a bs.length).map (fun l => { s with host := { s.host with mem := spansWrite l bs s.host.mem } })

/-- R469: the number of entries a ring holds. -/
def Ring.count (r : Ring) : Nat := dist32 r.head r.tail

/-- R469: whether a ring is full. -/
def Ring.full (r : Ring) : Bool := decide (2 ^ r.log2 ≤ r.count)

/-- R469: the address of entry k of a ring of entries of n bytes. -/
def Ring.addr (r : Ring) (k n : Nat) : Nat := r.base + k % 2 ^ r.log2 * n

/-- R487: the PHASE bit of entry k. -/
def Ring.phase (r : Ring) (k : Nat) : Nat := if k / 2 ^ r.log2 % 2 == 0 then 1 else 0

/-- R487: an entry with its PHASE bit. -/
def withPhase (e : List Byte) (ph : Nat) : List Byte := e.set 9 (BitVec.ofNat 8 (le e 9 1 / 2 * 2 + ph))

/-- R590: a ring access that failed. -/
def ringFail (n : Nat) (s : State) : State := internalEvent 0x201 (setIrq n irqRingError s)

/-- R486: writes the entries at the front of the dead-letter overflow queue while the ring has room. -/
def drainDlr (p t n : Nat) : Nat → State → State
  | 0, s => s
  | k + 1, s =>
    let b := s.block n
    match ((s.parcel p).ten t).dlrQ with
    | [] => s
    | e :: r =>
      if !b.itemRings || b.dlr.full || b.dlrStopped then s
      else match hostWrite s n (b.dlr.addr b.dlr.tail 64) (withPhase e (b.dlr.phase b.dlr.tail)) with
        | none => ringFail n (s.setBlock n { b with dlrStopped := true })
        | some s =>
          let s := s.setBlock n { b with dlr := { b.dlr with tail := wrap32 (b.dlr.tail + 1) } }
          let s := s.modTen p t (fun x => { x with dlrQ := r })
          drainDlr p t n k (setIrq n irqDeadLetter s)

/-- R486: as `drainDlr` for the completion queue; an entry waits until its dead-letter entry has been written. -/
def drainCpl (p t n : Nat) : Nat → State → State
  | 0, s => s
  | k + 1, s =>
    let b := s.block n
    let ten := (s.parcel p).ten t
    match ten.cplQ with
    | [] => s
    | (e, failed) :: r =>
      if !b.itemRings || b.cpl.full || b.cplStopped then s
      else if failed && ten.dlrQ.any (fun d => le d 0 4 == le e 0 4) then s
      else match hostWrite s n (b.cpl.addr b.cpl.tail 64) (withPhase e (b.cpl.phase b.cpl.tail)) with
        | none => ringFail n (s.setBlock n { b with cplStopped := true })
        | some s =>
          let s := s.setBlock n { b with cpl := { b.cpl with tail := wrap32 (b.cpl.tail + 1) } }
          let s := s.modTen p t (fun x => { x with cplQ := r })
          drainCpl p t n k (setIrq n irqCompletion s)

/-- R486: drains both overflow queues of a tenancy into its rings. -/
def drainRings (p t : Nat) (s : State) : State :=
  let n := ((s.parcel p).ten t).mailbox
  let s := drainDlr p t n ((s.parcel p).ten t).dlrQ.length s
  drainCpl p t n ((s.parcel p).ten t).cplQ.length s

/-- R489, R486: queues an item's dead-letter entry, if it failed, and then its completion entry, and drains. -/
def queueEntries (p t : Nat) (cpl : List Byte) (dlr : Option (List Byte)) (s : State) : State :=
  let s := s.modTen p t (fun x => { x with
    dlrQ := x.dlrQ ++ dlr.toList, cplQ := x.cplQ ++ [(cpl, dlr.isSome)] })
  drainRings p t s

/-- R460: posts an item's entries, for a sealed parcel in the following frame head. -/
def postEntries (p t : Nat) (cpl : List Byte) (dlr : Option (List Byte)) (s : State) : State :=
  if isSealed s p then
    { s with delayed := s.delayed ++ (dlr.toList.map (fun d => (p, s.time.postmark, Delayed.entry t false d true))) ++
      [(p, s.time.postmark, Delayed.entry t true cpl dlr.isSome)] }
  else queueEntries p t cpl dlr s

/-- R470, R471: an envelope header. -/
def envHeader (flags op status seq len parcel tenancy baseline postmark : Nat) : List Byte :=
  pay [(0x5A45, 2), (1, 1), (flags, 1), (op, 2), (status, 2), (seq, 4), (len, 4), (parcel, 2), (tenancy, 2),
    (baseline, 4), (postmark, 8)] ++ zeros 32

/-- R475: takes the reply of an envelope ring slot into account: HEAD counts the slots answered from the first on. -/
def envAdvance : Nat → MBlock → MBlock
  | 0, b => b
  | k + 1, b =>
    if b.envAnswered.contains b.env.head && b.env.head != b.env.tail then
      let rest := b.envAnswered.filter (· != b.env.head)
      envAdvance k { b with envAnswered := rest, env := { b.env with head := wrap32 (b.env.head + 1) } }
    else b

/-- The session a partner has now. -/
def sessionOf (s : State) (n : Nat) : Option Session := if n == 64 then s.bmcSession else (s.block n).session

/-- R478: whether a request is a command of the session that its partner has now. A HELLO and a request outside any session belong
to none. -/
def ofSession (s : State) (tk : Ticket) : Bool := tk.session != 0 && (sessionOf s tk.block).any (fun x => x.number == tk.session)

/-- R474, R475, R465, R478: puts a reply envelope where the request came from; a command of the session has its reply. -/
def deliver (tk : Ticket) (env : List Byte) (s : State) : State :=
  let one := b2n (ofSession s tk)
  if tk.block == 64 then { s with outputs := s.outputs ++ [.bmcReply env], bmcOpen := s.bmcOpen - one }
  else
    let b := s.block tk.block
    match tk.slot with
    | none =>
      let rpl := (env ++ b.inlineRpl.drop env.length).take 1024
      let s := s.setBlock tk.block { b with inlineRpl := rpl, inlineBusy := false, open_ := b.open_ - one }
      setIrqNow tk.block irqInline s
    | some k =>
      match hostWrite s tk.block (b.env.addr k 2048 + 1024) env with
      | none => setIrqNow tk.block irqRingError (s.setBlock tk.block { b with open_ := b.open_ - one })
      | some s =>
        let s := s.setBlock tk.block (envAdvance 256 { b with envAnswered := k :: b.envAnswered, open_ := b.open_ - one })
        setIrqNow tk.block irqEnv s

/-- R471, R472: whether a status carries a payload. -/
def carries (st : RStatus) : Bool := st == .ok || st == .okPartial

/-- R471, R472, R473: replies to a request; the payload is given when the status carries one, or when the command
states that it does (`force`). -/
def replyNow (tk : Ticket) (st : RStatus) (force : Bool) (payload : List Byte) (s : State) : State :=
  let body := if carries st || force then payload else []
  match tk.indirect with
  | some (addr, _) =>
    if body.isEmpty then
      deliver tk (envHeader 3 tk.op st.code tk.seq 0 tk.parcel tk.tenancy tk.baseline s.time.postmark) s
    else match hostWrite s tk.block addr body with
      | none =>
        deliver tk (envHeader 3 tk.op RStatus.hostDmaFailed.code tk.seq 0 tk.parcel tk.tenancy tk.baseline s.time.postmark) s
      | some s =>
        deliver tk (envHeader 3 tk.op st.code tk.seq body.length tk.parcel tk.tenancy tk.baseline s.time.postmark) s
  | none =>
    deliver tk (envHeader 1 tk.op st.code tk.seq body.length tk.parcel tk.tenancy tk.baseline s.time.postmark ++ body) s

/-- R468: a reply to a session that has ended is discarded; an inline request that was in progress is done. The commands of
an ended session no longer count as its block's (R478). -/
def dropReply (tk : Ticket) (s : State) : State :=
  if tk.block == 64 then s
  else s.modBlock tk.block (fun b => { b with inlineBusy := if tk.slot.isNone then false else b.inlineBusy })

/-- R468: whether the session that a ticket belongs to has ended; a request outside any session has number 0. -/
def staleTicket (s : State) (tk : Ticket) : Bool :=
  tk.session != 0 && (sessionOf s tk.block).map (·.number) != some tk.session

/-- R460, R468, R471: replies to a ticket. -/
def replyWith (tk : Ticket) (st : RStatus) (force : Bool) (payload : List Byte) (s : State) : State :=
  if tk.dead then s
  else if staleTicket s tk then dropReply tk s
  else match boundTo s tk.block with
    | some (p, _) =>
      if isSealed s p && tk.block != 64 then
        { s with delayed := s.delayed ++ [(p, s.time.postmark, .reply tk st (if carries st || force then payload else []))] }
      else replyNow tk st force payload s
    | none => replyNow tk st force payload s

/-- Replies with a status and a payload for OK and OK_PARTIAL. -/
def reply (tk : Ticket) (st : RStatus) (payload : List Byte) (s : State) : State := replyWith tk st false payload s

/-- Replies with a status alone. -/
def refuse (tk : Ticket) (st : RStatus) (s : State) : State := reply tk st [] s

/-- R469: MBX_STATUS of a block. -/
def mbxStatus (s : State) (n : Nat) : Nat :=
  let b := s.block n
  let bt := boundTo s n
  let ofT (f : Parcel → Tenancy → Nat → Bool) : Bool := match bt with
    | some (p, t) => f (s.parcel p) ((s.parcel p).ten t) t
    | none => false
  b2n (b.enable && s.power.ready) + 2 * b2n b.session.isSome + 4 * b2n b.inlineBusy + 8 * b2n b.itemRings
    + 16 * b2n b.envRing + 32 * b2n (ofT (fun p _ t => p.running == t))
    + 64 * b2n (ofT (fun p _ _ => p.state == .isSealed || p.sealPending))
    + 128 * b2n (ofT (fun _ t _ => t.divHold)) + 256 * b2n s.recovery + 512 * b2n s.power.drainOn
    + 1024 * b2n s.power.holdOn + 2048 * b2n (ofT (fun _ t _ => !t.cplQ.isEmpty || !t.dlrQ.isEmpty))

/-- R498: GLOBAL_STATUS. -/
def globalStatus (s : State) : Nat :=
  b2n s.power.ready + 16 * s.power.bootStage + 256 * b2n s.power.holdOn + 512 * b2n s.power.drainOn
    + 1024 * b2n s.recovery + 2048 * b2n s.sec.error + 4096 * b2n s.fed.federated + 8192 * b2n s.fed.aligned
    + 16384 * b2n ((liveParcels s).any (sealedOrPending s)) + 32768 * b2n s.pcie.bar2Miss

/-- R469: sets STATE of a block when a bit of MBX_STATUS [11:5] has changed. -/
def refreshBlock (s : State) (n : Nat) : State :=
  let now := bits (mbxStatus s n) 11 5
  let b := s.block n
  if b.stateShown == now then s
  else
    setIrq n irqState (s.setBlock n { b with stateShown := now })

/-- R503: signals changes of the status registers: STATE of every block, and PF vector 8 for GLOBAL_STATUS. A block that the
table does not list is bound to no tenancy, so that only a condition of the whole module can change its MBX_STATUS. -/
def refresh (s : State) : State :=
  let ns := if s.recovery || s.power.drainOn || s.power.holdOn then List.range 64 else s.blocks.map (·.1)
  let s := ns.foldl refreshBlock s
  let g := globalStatus s % 32768
  if s.pcie.statusShown == g then s
  else msix 0 8 { s with pcie := { s.pcie with statusShown := g } }

/-- Ends a command with a next state, after the status registers have been looked at. -/
def fin (s : State) : Host.Outcome State Fault Refusal := .next (refresh s)

/-- R399, R400: records a cadastre change: the generation rises and both stored copies are written, a copy that fails
its CRC being reported first. The image of a copy is the list of entries of R396 in the parts that are stored; the header,
with its CRC, follows from it (`cadBytes`). -/
def cadastreWrite (img : List (Nat × List Byte)) (s : State) : State :=
  let fix (good : Bool) (k : Nat) (s : State) : State :=
    if good then s else recordM evCadastre 2 (pay [(0, 1), (k, 1)]) s
  let s := fix s.copyB.good 1 (fix s.copyA.good 0 s)
  let g := (max s.copyA.generation s.copyB.generation + 1) % 2 ^ 64
  { s with copyA := ⟨g, img, true⟩, copyB := ⟨g, img, true⟩ }

end Sys2Proof.Machine
end

