-- ==== Sys2Proof/Machine/Memory.lean ====
section
/-! DEFINITION. HBM (08): the address hash, folds and lost granules, the checks of the two protection classes, and
their events and counters; the die-store cache in front of it (06); parcel-virtual accesses (R290, R398). -/

namespace Sys2Proof.Machine

/-- R292: the fold of a pc-local granule index to 8 bits. -/
def fold8 (row : Nat) : Nat := (bits row 7 0 ^^^ bits row 15 8) ^^^ bits row 21 16

/-- R292: the pseudo-channel and the pc-local granule index of a package-physical address. -/
def hashOf (a : Nat) : Nat × Nat :=
  let g := a / 256
  let high := g / 256
  let row := high / 3
  (256 * ((high % 3 + row % 3) % 3) + ((g % 256) ^^^ fold8 row), row)

/-- R293: the granule number at a pseudo-channel and pc-local granule index. -/
def granOf (pc row : Nat) : Nat := (3 * row + (pc / 256 + 3 - row % 3) % 3) * 256 + ((pc % 256) ^^^ fold8 row)

/-- R321: the folded channel of a stack. -/
def foldCh (s : State) (k : Nat) : Option Nat :=
  let e := (tblGet s.store.folds k).getD 0
  if bit e 31 then some (bits e 4 0) else none

/-- R315: where a granule of a folded channel k of a stack moves: stack-local pseudo-channel and index. -/
def foldPlace (k b row : Nat) : Nat × Nat :=
  let j := row % 62
  (if j < 2 * k then j else j + 2, 4063232 + 65536 * b + row / 62)

/-- R292, R314: the pseudo-channel and index that serve an address, after any fold. -/
def placeOf (s : State) (a : Nat) : Nat × Nat :=
  let h := hashOf a
  match foldCh s (h.1 / 64) with
  | some k => if h.1 % 64 / 2 == k then let m := foldPlace k (h.1 % 2) h.2; (64 * (h.1 / 64) + m.1, m.2) else h
  | none => h

/-- R313, R319, R320: whether every request to a channel ends MEM_LOST. -/
def chanDead (s : State) (k ch : Nat) : Bool :=
  let x := s.stack k
  x.unreachable || x.unmapped.contains ch || x.unmapDue.any (fun d => d.1 == ch) || x.foldDue.any (fun d => d.channel == ch)

/-- Whether a granule's own pseudo-channel, or the one that serves it, is dead. -/
def granDead (s : State) (a : Nat) : Bool :=
  let h := (hashOf a).1
  let p := (placeOf s a).1
  chanDead s (h / 64) (h % 64 / 2) || chanDead s (p / 64) (p % 64 / 2)

/-- R316: whether a granule is marked lost. -/
def granMarked (s : State) (g : Nat) : Bool :=
  (s.hbm.lostPcs.contains (hashOf (256 * g)).1 && !s.hbm.cleared.contains g) || s.hbm.lostExtra.contains g

/-- The parcel, slot and entry that hold a physical lot. -/
def lotAt (s : State) (lot : Nat) : Option (Nat × Nat × LotEnt) :=
  ((liveParcels s).flatMap (fun p => ((s.parcel p).lots.filter (fun e => e.2.lot == lot)).map
    (fun e => (p, e.1, e.2)))).head?

/-- R291: whether the lot of an address is Class A. -/
def classA (s : State) (a : Nat) : Bool := ((lotAt s (a / 2 ^ 30)).map (fun e => e.2.2.classA)).getD false

/-- The end of a memory access (R282, R298). -/
inductive MRes where
  | ok | badLot | lost | uncorr | detect
  deriving DecidableEq, Repr

/-- R282: the descriptor status of a memory failure. -/
def MRes.desc : MRes → Nat
  | .ok => 0 | .badLot => 4 | .lost => 9 | .uncorr => 8 | .detect => 7

/-- R282: the item status of a memory failure. -/
def MRes.item : MRes → IStatus
  | .ok => .done | .badLot => .descriptor | .lost => .memLost | .uncorr => .memUncorrected | .detect => .actDetect

/-- On whose behalf an access is made: tenancy and item number for its events, and whether the corrected reads are counted
elsewhere, at the end of their bursts. -/
structure MCtx where
  ten : Nat := 0xFF
  seq : Nat := 0xFFFFFFFF
  quiet : Bool := false
  deriving DecidableEq, Repr

/-- R325: the payload of a MEM_ERROR record. -/
def memPay (kind cls stack ch pc replays temp addr parcel slot detail pm : Nat) : List Byte :=
  pay [(kind, 1), (cls, 1), (stack, 1), (ch, 1), (pc, 2), (replays, 1), (temp, 1), (addr, 8), (parcel, 2), (slot, 2),
    (detail, 4), (pm, 8)]

/-- R325 to R327 (DESIGN CHOICE, log entry 36: TEMP rounds down and stops at 254): a MEM_ERROR event of a granule: the operator's form with the package-physical address, the
tenancy's with the parcel-virtual one. -/
def memErr (kind a replays detail : Nat) (c : MCtx) (s : State) : State :=
  let pl := (placeOf s a).1
  let k := pl / 64
  let g := a / 256 * 256
  let temp := min ((s.stack k).temp / 4) 254
  let pm := s.time.postmark
  match lotAt s (a / 2 ^ 30) with
  | some (p, slot, e) =>
    let cls := b2n e.classA
    recordP evMemError p c.ten c.seq 32
      (memPay kind cls k (pl % 64 / 2) pl replays temp g p slot detail pm)
      (memPay kind cls 0xFF 0xFF 0xFFFF replays 0xFF (slot * 2 ^ 30 + g % 2 ^ 30) p slot detail pm) s
  | none => recordM evMemError 32 (memPay kind 0xFF k (pl % 64 / 2) pl replays temp g 0xFFFF 0xFFFF detail pm) s

/-- R326: LOST_ACCESS is recorded for the first lost granule that an item, or a command, meets; a command ends with it. DESIGN
CHOICE (log entry 36): no CRC is computed for it, so DETAIL is 0xFFFFFFFF for either class. -/
def lostAccess (a replays : Nat) (c : MCtx) (s : State) : State :=
  match lotAt s (a / 2 ^ 30) with
  | some (p, _, _) =>
    if ((s.parcel p).item c.seq).any (·.lostSeen) then s
    else (memErr 8 a replays 0xFFFFFFFF c s).modItem p c.seq (fun i => { i with lostSeen := true })
  | none => memErr 8 a replays 0xFFFFFFFF c s

/-- R328, R556: adds to a counter of a stack: 0 CORRECTED, 1 UNCORRECTED, 2 DETECT, 3 REPLAY. -/
def hbmCount (k which n : Nat) (s : State) : State :=
  let x := s.stack k
  let old := if which == 0 then x.corrected else if which == 1 then x.uncorrected
    else if which == 2 then x.detect else x.replay
  let v := add48 old n
  let y := if which == 0 then { x with corrected := v } else if which == 1 then { x with uncorrected := v }
    else if which == 2 then { x with detect := v } else { x with replay := v }
  let s := s.setStack k y
  if reaches48 old n then satShared (lotParcels s) (7 + which) k (fun _ => 0xFFFF) s else s

/-- R322: notes an error of the row in which a granule lies: a second frame with a corrected error, or any worse
error, lists the row. -/
def rowNote (a : Nat) (worse : Bool) (s : State) : State :=
  let pl := placeOf s a
  let row := (Config.rowOf pl.1 pl.2).toNat
  let listed := s.store.repairs.any (fun r => r.kind == 1 && 64 * r.stack + 2 * r.channel + r.pseudo == pl.1 && r.row == row)
  let again := s.store.rowSeen.any (fun r => r.1 == pl.1 && r.2.1 == row && r.2.2 != s.time.postmark)
  let st := { s.store with rowSeen := (pl.1, row, s.time.postmark) :: s.store.rowSeen }
  let cand : Repair := ⟨1, pl.1 / 64, pl.1 % 64 / 2, pl.1 % 2, row, s.time.postmark⟩
  if !listed && (worse || again) then { s with store := { st with repairs := st.repairs ++ [cand] } }
  else { s with store := st }

/-- A granule's bytes with symbol errors applied (data symbols at positions 5 to 132, R295). -/
def applyErr (d : List Byte) (err : List (Nat × Nat)) : List Byte :=
  err.foldl (fun d e =>
    if 5 ≤ e.1 && e.1 < 133 then
      overlay d (2 * (e.1 - 5)) (leBytes (le d (2 * (e.1 - 5)) 2 ^^^ e.2) 2)
    else d) d

/-- R296: the CRC-32C that a read computes, and whether it differs from the stored one, for an error pattern whose
positions 0 and 1 are metadata bytes 0 to 3 and whose positions 3 and 4 are the address. -/
def crcCheck (d : List Byte) (a : Nat) (err : List (Nat × Nat)) : Nat × Bool :=
  let sum (p : Nat) : Nat := (err.filter (fun e => e.1 == p)).foldl (fun x e => x ^^^ e.2) 0
  let addr := (a / 256) ^^^ (sum 3 + 65536 * sum 4)
  let computed := crc32c (applyErr d err ++ leBytes addr 4)
  let stored := crc32c (d ++ leBytes (a / 256) 4) ^^^ (sum 0 + 65536 * sum 1)
  (computed, computed != stored)

/-- The 256 bytes of a granule as it was written. -/
def granData (s : State) (a : Nat) : List Byte := memReadN s.hbm.mem (a / 256 * 256) 256

/-- R325: DETAIL of a record about a burst of a granule with an error pattern: of a Class A granule the computed CRC. -/
def burstDetail (s : State) (a : Nat) (err : List (Nat × Nat)) : Nat :=
  if classA s a && !granDead s a && !granMarked s (a / 256) then (crcCheck (granData s a) a err).1 else 0xFFFFFFFF

/-- R295, R296, R298, R301, R316, R326, R328: the check of a granule read with an error pattern: how it ends and the bytes
delivered. DESIGN CHOICE (log entry 36): exhausted replays of a Class W read record REPLAY_EXHAUSTED alone. -/
def granCheck (a : Nat) (err : List (Nat × Nat)) (exhausted : Bool) (replays : Nat) (c : MCtx) (s : State) :
    MRes × List Byte × State :=
  let d := granData s a
  let k := (placeOf s a).1 / 64
  if granDead s a || granMarked s (a / 256) then
    let s := if exhausted && !granDead s a then memErr 6 a replays 0xFFFFFFFF c s else s
    (.lost, [], lostAccess a replays c s)
  else if classA s a then
    let r := crcCheck d a err
    if exhausted then (.detect, [], memErr 4 a replays r.1 c (memErr 6 a replays r.1 c (hbmCount k 2 1 s)))
    else if r.2 then (.detect, [], memErr 4 a replays r.1 c (hbmCount k 2 1 s))
    else (.ok, applyErr d err, s)
  else if exhausted then (.uncorr, [], memErr 6 a replays 0xFFFFFFFF c (hbmCount k 1 1 s))
  else match rsCheck err with
    | .clean => (.ok, applyErr d err, s)
    | .corrected p e => if c.quiet then (.ok, applyErr d (err ++ [(p, e)]), s) else
      let s := rowNote a false (hbmCount k 0 1 s)
      let s := if (s.stack k).correctedSeen then s
        else memErr 1 a replays p c (s.setStack k { s.stack k with correctedSeen := true })
      (.ok, applyErr d (err ++ [(p, e)]), s)
    | .misdirected p => (.uncorr, [], memErr 3 a replays p c (rowNote a true (hbmCount k 1 1 s)))
    | .uncorrectable => (.uncorr, [], memErr 2 a replays 0xFFFFFFFF c (rowNote a true (hbmCount k 1 1 s)))

/-- Reads a whole granule. -/
def rdGran (a : Nat) (c : MCtx) (s : State) : MRes × List Byte × State :=
  granCheck a ((tblGet s.hbm.errs (a / 256)).getD []) false 0 c s

/-- R297, R316: stores a whole granule with fresh metadata: its lost mark and its stored errors are gone. -/
def putGran (a : Nat) (d : List Byte) (s : State) : State :=
  let g := a / 256
  let h := s.hbm
  let cl := if h.lostPcs.contains (hashOf a).1 && !h.cleared.contains g then g :: h.cleared else h.cleared
  let ex := h.lostExtra.filter (· != g)
  { s with hbm := ⟨memWriteN h.mem (256 * g) d, h.lostPcs, cl, ex, tblDel h.errs g⟩ }

/-- R297, R303, R316: a write within one granule: whole, or merged after a checked read. -/
def wrGran (a : Nat) (bs : List Byte) (c : MCtx) (s : State) : MRes × State :=
  if granDead s a then (.lost, lostAccess a 0 c s)
  else if bs.length == 256 then (.ok, putGran a bs s)
  else
    let r := rdGran a c s
    if r.1 == .ok then (.ok, putGran a (overlay r.2.1 (a % 256) bs) r.2.2) else (r.1, r.2.2)

/-- R239, R244: the cache-mode granules of a parcel, in ascending order. -/
def cacheGrans (p : Parcel) : List (Nat × Nat) :=
  (p.granules.filter (fun g => g.2.2)).map (fun g => (g.1, g.2.1))

/-- R244: the home granule of an address among the parcel's cache-mode granules. -/
def homeOf (p : Parcel) (a : Nat) : Option (Nat × Nat) :=
  let gs := cacheGrans p
  let line := a / 256
  if gs.isEmpty then none else gs[((line / 4096) ^^^ (line / 2 ^ 22)) % gs.length]?

/-- R243: the way of a set that holds a tag. -/
def findWay (g : Granule) (set tag : Nat) : Option Nat :=
  (List.range 16).find? (fun w => (tblGet g.lines (16 * set + w)).any (fun l => l.tag == tag))

/-- R243: the tree bits after a use of a way: every node on its path points away from it (log entry 18). -/
def plruTouch (b way : Nat) : Nat :=
  ((List.range 4).foldl (fun (a : Nat × Nat) k =>
    let d := way / 2 ^ (3 - k) % 2
    let mask := 2 ^ (a.2 - 1)
    let cleared := if bit a.1 (a.2 - 1) then a.1 - mask else a.1
    (if d == 0 then cleared + mask else cleared, 2 * a.2 + d)) (b, 1)).1

/-- R243: the way the tree bits point to. -/
def plruWay (b : Nat) : Nat :=
  (List.range 4).foldl (fun n _ => 2 * n + b2n (bit b (n - 1))) 1 - 16

/-- R243: the way a fill takes: an empty one, else the one the tree names. -/
def victim (g : Granule) (set : Nat) : Nat :=
  ((List.range 16).find? (fun w => (tblGet g.lines (16 * set + w)).isNone)).getD
    (plruWay ((tblGet g.plru set).getD 0))

/-- A die-store granule. -/
def State.gran (s : State) (h : Nat × Nat) : Granule := (tblGet (s.die h.1).granules h.2).getD {}

/-- Sets a die-store granule. -/
def State.setGran (s : State) (h : Nat × Nat) (g : Granule) : State :=
  let d := s.die h.1
  s.setDie h.1 { d with granules := tblPut d.granules h.2 g }

/-- The package-physical address of a line. -/
def lineAddr (set tag : Nat) : Nat := (tag * 4096 + set) * 256

/-- R248, R249: writes back one line if it is dirty; the line stays, clean. -/
def writeBack (h : Nat × Nat) (key : Nat) (s : State) : State :=
  match tblGet (s.gran h).lines key with
  | some l =>
    if l.dirty then
      let s := (wrGran (lineAddr (key / 16) l.tag) l.data {} s).2
      s.setGran h { s.gran h with lines := tblPut (s.gran h).lines key { l with dirty := false, writers := [] } }
    else s
  | none => s

/-- Notes a use of a line (R243). -/
def touch (h : Nat × Nat) (key : Nat) (s : State) : State :=
  let g := s.gran h
  s.setGran h { g with plru := tblPut g.plru (key / 16) (plruTouch ((tblGet g.plru (key / 16)).getD 0) (key % 16)) }

/-- R243: places a line in its home granule, after the line it replaces has been written back. -/
def fillLine (h : Nat × Nat) (set tag : Nat) (l : Line) (s : State) : State :=
  let w := victim (s.gran h) set
  let s := writeBack h (16 * set + w) s
  let g := s.gran h
  touch h (16 * set + w) (s.setGran h { g with lines := tblPut g.lines (16 * set + w) { l with tag := tag } })

/-- R243 to R246: reads n bytes within one line on a parcel's behalf. -/
def rdLine (p a n : Nat) (alloc : Bool) (c : MCtx) (s : State) : MRes × List Byte × State :=
  let set := a / 256 % 4096
  let tag := a / 256 / 4096
  match homeOf (s.parcel p) a with
  | none => let r := rdGran a c s; (r.1, slice r.2.1 (a % 256) n, r.2.2)
  | some h =>
    if (s.die h.1).lost then (.lost, [], lostAccess a 0 c s)
    else match findWay (s.gran h) set tag with
    | some w =>
      let d := ((tblGet (s.gran h).lines (16 * set + w)).map (·.data)).getD []
      (.ok, slice d (a % 256) n, touch h (16 * set + w) s)
    | none =>
      let r := rdGran a c s
      if r.1 == .ok && alloc then
        (.ok, slice r.2.1 (a % 256) n, fillLine h set tag ⟨tag, false, [], r.2.1⟩ r.2.2)
      else (r.1, slice r.2.1 (a % 256) n, r.2.2)

/-- R243 to R246: writes bytes within one line on a parcel's behalf; `w` is the parcel and item that write. -/
def wrLine (p a : Nat) (bs : List Byte) (alloc : Bool) (w : Nat × Nat) (c : MCtx) (s : State) : MRes × State :=
  let set := a / 256 % 4096
  let tag := a / 256 / 4096
  match homeOf (s.parcel p) a with
  | none => wrGran a bs c s
  | some h =>
    if (s.die h.1).lost then (.lost, lostAccess a 0 c s)
    else match findWay (s.gran h) set tag with
    | some k =>
      let g := s.gran h
      let old := (tblGet g.lines (16 * set + k)).getD ⟨tag, false, [], []⟩
      let ws := w :: old.writers.filter (· != w)
      let l : Line := ⟨tag, true, ws, overlay old.data (a % 256) bs⟩
      (.ok, touch h (16 * set + k) (s.setGran h { g with lines := tblPut g.lines (16 * set + k) l }))
    | none =>
      if !alloc then wrGran a bs c s
      else if granDead s a then (.lost, lostAccess a 0 c s)
      else if bs.length == 256 then (.ok, fillLine h set tag ⟨tag, true, [w], bs⟩ s)
      else
        let r := rdGran a c s
        if r.1 == .ok then (.ok, fillLine h set tag ⟨tag, true, [w], overlay r.2.1 (a % 256) bs⟩ r.2.2)
        else (r.1, r.2.2)

/-- R290, R398, R424: the lot table entry that a tenancy's access to a slot uses: the live mapping of a window slot
first, and no slot of another tenancy. -/
def lotFor (s : State) (p ten slot : Nat) : Option LotEnt :=
  let x := s.parcel p
  let slot := (tblGet x.live slot).getD slot
  match tblGet x.lots slot with
  | some e => if e.owner == ten then some e else none
  | none => none

/-- R259: a run of n bytes from v in pieces that do not cross a 256-byte boundary. -/
def pieces (v n : Nat) : List (Nat × Nat) :=
  (List.range ((v % 256 + n + 255) / 256)).map (fun k =>
    let lo := max v ((v / 256 + k) * 256)
    (lo, min (v + n) ((v / 256 + k + 1) * 256) - lo))

/-- Reads pieces in order until one fails: the end, the address it failed at, the bytes read before. -/
def pvReadL (p ten : Nat) (alloc : Bool) (c : MCtx) : List (Nat × Nat) → List Byte → State →
    MRes × Nat × List Byte × State
  | [], acc, s => (.ok, 0, acc, s)
  | (v, n) :: r, acc, s =>
    match lotFor s p ten (v / 2 ^ 30) with
    | none => (.badLot, v, acc, s)
    | some e =>
      let x := rdLine p (e.lot * 2 ^ 30 + v % 2 ^ 30) n alloc c s
      if x.1 == .ok then pvReadL p ten alloc c r (acc ++ x.2.1) x.2.2 else (x.1, v, acc, x.2.2)

/-- R290: reads n bytes of a parcel-virtual range for a tenancy. -/
def pvRead (p ten v n : Nat) (alloc : Bool) (c : MCtx) (s : State) : MRes × Nat × List Byte × State :=
  pvReadL p ten alloc c (pieces v n) [] s

/-- Writes pieces in order until one fails: the end, the address it failed at, the bytes written before. -/
def pvWriteL (p ten : Nat) (alloc : Bool) (w : Nat × Nat) (c : MCtx) : List (Nat × Nat) → List Byte → Nat → State →
    MRes × Nat × Nat × State
  | [], _, done, s => (.ok, 0, done, s)
  | (v, n) :: r, bs, done, s =>
    match lotFor s p ten (v / 2 ^ 30) with
    | none => (.badLot, v, done, s)
    | some e =>
      let x := wrLine p (e.lot * 2 ^ 30 + v % 2 ^ 30) (bs.take n) alloc w c s
      if x.1 == .ok then pvWriteL p ten alloc w c r (bs.drop n) (done + n) x.2 else (x.1, v, done, x.2)

/-- R290: writes bytes of a parcel-virtual range for a tenancy. -/
def pvWrite (p ten v : Nat) (bs : List Byte) (alloc : Bool) (w : Nat × Nat) (c : MCtx) (s : State) :
    MRes × Nat × Nat × State :=
  pvWriteL p ten alloc w c (pieces v bs.length) bs 0 s

/-- R33: the compute dies on which a parcel holds quads, in ascending order. -/
def logicalDies (p : Parcel) : List Nat := (List.range 8).filter (fun d => p.quads.any (fun q => q / 6 == d))

/-- R239: the scratchpad-mode granules of a parcel on a die, in ascending order. -/
def scratchGrans (p : Parcel) (die : Nat) : List Nat :=
  (p.granules.filter (fun g => g.1 == die && !g.2.2)).map (·.2.1)

/-- R239: the die and die-store address of a logical die, logical granule and offset. -/
def dsPlace (p : Parcel) (j lg off : Nat) : Option (Nat × Nat) :=
  match (logicalDies p)[j]? with
  | some d => ((scratchGrans p d)[lg]?).map (fun g => (d, g * 2 ^ 24 + off))
  | none => none

/-- R277: the die and die-store address of byte o of the stash space of a logical die. -/
def stashPlace (p : Parcel) (j o : Nat) : Option (Nat × Nat) := dsPlace p j (o / 2 ^ 24) (o % 2 ^ 24)

/-- Reads die-store bytes. -/
def dsRead (s : State) (d a n : Nat) : List Byte := memReadN (s.die d).store a n

/-- Writes die-store bytes. -/
def dsWrite (d a : Nat) (bs : List Byte) (s : State) : State :=
  let x := s.die d
  s.setDie d { x with store := memWriteN x.store a bs }

/-- R235, R285: makes bytes of a memory undefined under a new tag. -/
def freshTag (s : State) : Nat × State := draw s

/-- R313, R249: removes the lines that satisfy a test from every granule. -/
def dropLines (f : Nat → Bool) (s : State) : State :=
  { s with dies := s.dies.map (fun d => (d.1, { d.2 with granules := d.2.granules.map (fun g =>
      (g.1, { g.2 with lines := g.2.lines.filter (fun l => !f (lineAddr (l.1 / 16) l.2.tag)) })) })) }

/-- R291, R231, R245: zero-writes a whole lot: metadata fresh, lost marks and stored errors gone except on a dead
pseudo-channel, whose granules stay lost; no line of it stays cached. -/
def zeroLot (lot : Nat) (s : State) : State :=
  let inLot (g : Nat) : Bool := decide (g / 2 ^ 22 = lot)
  let h := s.hbm
  let dead (g : Nat) : Bool := granDead s (256 * g)
  let pcs := h.lostPcs.filter (fun pc => !chanDead s (pc / 64) (pc % 64 / 2))
  let fresh := if pcs.isEmpty then [] else
    (List.range (2 ^ 22)).filterMap (fun k =>
      let g := lot * 2 ^ 22 + k
      if pcs.contains (hashOf (256 * g)).1 && !h.cleared.contains g && !dead g then some g else none)
  let s := dropLines (fun a => a / 2 ^ 30 == lot) s
  { s with hbm := ⟨memZero h.mem (lot * 2 ^ 30) (2 ^ 30), h.lostPcs, fresh ++ h.cleared,
      h.lostExtra.filter (fun g => !inLot g || dead g), h.errs.filter (fun e => !inLot e.1)⟩ }

/-- R316: whether any granule of a lot is lost. -/
def lotLost (s : State) (lot : Nat) : Bool :=
  let h := s.hbm
  let deadHere := (List.range 12).any (fun k => (List.range 32).any (fun ch => chanDead s k ch))
  if deadHere then true
  else if h.lostPcs.isEmpty then h.lostExtra.any (fun g => decide (g / 2 ^ 22 = lot))
  else h.lostExtra.any (fun g => decide (g / 2 ^ 22 = lot)) ||
    (List.range (2 ^ 22)).any (fun k => granMarked s (lot * 2 ^ 22 + k))

/-- R249: writes back and then invalidates every line of one granule. -/
def flushGran (h : Nat × Nat) (s : State) : State :=
  let s := ((s.gran h).lines.map (·.1)).foldl (fun s k => writeBack h k s) s
  s.setGran h { s.gran h with lines := [], plru := [] }

/-- R249, R238: zero-writes one scratchpad-mode granule. -/
def zeroGran (h : Nat × Nat) (s : State) : State :=
  let x := s.die h.1
  s.setDie h.1 { x with store := memZero x.store (h.2 * 2 ^ 24) (2 ^ 24) }

/-- R249: what a switch, reset or release does to a parcel's granules. -/
def flushParcel (p : Nat) (s : State) : State :=
  (s.parcel p).granules.foldl (fun s g => if g.2.2 then flushGran (g.1, g.2.1) s else zeroGran (g.1, g.2.1) s) s

/-- R248: writes back every dirty line of a Class W lot that an item dirtied. -/
def flushItem (p seq : Nat) (s : State) : State :=
  (cacheGrans (s.parcel p)).foldl (fun s h =>
    ((s.gran h).lines.filter (fun l => l.2.dirty && l.2.writers.contains (p, seq)
      && !classA s (lineAddr (l.1 / 16) l.2.tag))).foldl (fun s l => writeBack h l.1 s) s) s

end Sys2Proof.Machine
end

