-- ==== Sys2Proof/Machine/Frames.lean ====
section
/-! DEFINITION. Sending Courier frames (14): the header (R513), protection (R523), the route (R512) and the two port
modes (R506, R510). -/

namespace Sys2Proof.Machine

/-- R531: frame types. -/
def ftData : Nat := 0x01
def ftCredit : Nat := 0x02
def ftReset : Nat := 0x03
def ftAbort : Nat := 0x04
def ftSkew : Nat := 0x05
def ftHold : Nat := 0x10
def ftTick : Nat := 0x11
def ftVote : Nat := 0x20
def ftDecision : Nat := 0x21
def ftQuery : Nat := 0x22
def ftAnswer : Nat := 0x23
def ftNorm : Nat := 0x24
def ftTally : Nat := 0x25

/-- R513: a frame header. -/
def frameHeader (type flags dest src fed parcel channel tag hops len deadline offset counter : Nat) : List Byte :=
  pay [(type, 1), (flags, 1), (dest, 2), (src, 2), (fed, 2), (parcel, 1), (channel, 1), (tag, 1), (hops, 1), (len, 4),
    (deadline, 4), (offset, 4), (counter, 8)]

/-- R523: the IV of a frame: SRC, PARCEL and CHANNEL in 28 bits, four zero bits, COUNTER most significant byte
first. -/
def frameIv (src parcel channel counter : Nat) : List Byte :=
  beBytes ((src % 16384 * 16384 + parcel % 64 * 256 + channel % 256) * 16) 4 ++ beBytes counter 8

/-- One byte of the CRC-32 that an IEEE 802.3 frame carries as its FCS (R510). -/
def crc32Byte (c : Nat) (b : Byte) : Nat :=
  (List.range 8).foldl (fun x _ => if x % 2 == 1 then (x / 2) ^^^ 0xEDB88320 else x / 2) (c ^^^ b.toNat)

/-- The FCS of an IEEE 802.3 frame. -/
def fcs (bs : List Byte) : List Byte := leBytes ((bs.foldl crc32Byte 0xFFFFFFFF) ^^^ 0xFFFFFFFF) 4

/-- R510: the MAC address of a member. -/
def macOf (fed member : Nat) : List Byte := [0x02, 0x00] ++ beBytes fed 2 ++ beBytes member 2

/-- R510: a Courier frame in one IEEE 802.3 frame, whose payload has at least 46 bytes (log entry 29). -/
def wrap8023 (fed dest src : Nat) (fr : List Byte) : List Byte :=
  let b := macOf fed dest ++ macOf fed src ++ [0x88, 0xB5] ++ fr ++ zeros (46 - fr.length)
  b ++ fcs b

/-- R504, R505: a flit of a type with its numbers and content. -/
def flitOf (type seq ack : Nat) (content : List Byte) : List Byte :=
  let b := pay [(type, 1), (0, 1), (seq, 2), (ack, 2), (0, 2)] ++ content ++ zeros (240 - content.length)
  b ++ leBytes (crc64 b) 8

/-- R504: the flits that carry a frame, from a sequence number on; a frame begins a flit of its own (log entry 29). -/
def flitsOf (seq ack : Nat) (fr : List Byte) : List (Nat × List Byte) :=
  (List.range ((fr.length + 239) / 240)).map (fun k =>
    ((seq + k) % 4096, flitOf 1 ((seq + k) % 4096) ack (slice fr (240 * k) 240)))

/-- R504: the highest sequence number that a port has received in order. -/
def Port.ack (x : Port) : Nat := (x.rxNext + 4095) % 4096

/-- R512: the UP ports of a route. -/
def routePorts (s : State) (dest : Nat) : List Nat :=
  let m := (tblGet s.fed.routes dest).getD 0
  (List.range 8).filter (fun k => bit m k && (s.port k).st == .up)

/-- R504, R506, R510: sends a frame on a port; a port in Courier mode keeps it for replay, under the number of its first flit. -/
def sendOn (k : Nat) (fr : List Byte) (s : State) : State :=
  let x := s.port k
  if x.mode8023 then
    if le fr 0 1 == ftTick then s
    else { s with outputs := s.outputs ++ [.frame k (wrap8023 s.fed.number (le fr 2 2) (le fr 4 2) fr)] }
  else
    let n := (fr.length + 239) / 240
    let kept := (x.kept ++ [(x.txNext, fr)]).filter (fun e => decide ((x.txNext + n + 4096 - e.1) % 4096 ≤ 1024))
    let s := s.setPort k { x with kept := kept, txNext := (x.txNext + n) % 4096 }
    { s with outputs := s.outputs ++ .frame k fr :: (flitsOf x.txNext x.ack fr).map (fun f => .flit k f.2) }

/-- R506: sends the kept flits of a port again, from a sequence number on. -/
def resend (k from_ : Nat) (s : State) : State :=
  let x := s.port k
  let fs := (x.kept.flatMap (fun e => flitsOf e.1 x.ack e.2)).filter (fun f => decide ((f.1 + 4096 - from_) % 4096 < 2048))
  { s with outputs := s.outputs ++ fs.map (fun f => .flit k f.2) }

/-- R512, R509: sends a frame on its route; with no port left it is discarded. -/
def routeFrame (fr : List Byte) (s : State) : State :=
  let ps := routePorts s (le fr 2 2)
  match ps[(le fr 4 2 + le fr 9 1) % ps.length]? with
  | some k => sendOn k fr s
  | none => s

/-- R523: the key of a channel's key slot. -/
def chanKey (s : State) (p : Nat) (c : Channel) : Option (List Byte) :=
  (tblGet ((s.parcel p).ten c.tenancy).keys c.keySlot).map (·.key)

/-- R523: whether the collective engine may not use a channel of a parcel. -/
def chanBarred (s : State) (p : Nat) (c : Channel) : Bool := c.keySlot == 0xFF && sealedOrPending s p

/-- Counts a frame on a channel (R532, R556 code 16). -/
def countFrame (p ch : Nat) (sent : Bool) (s : State) : State :=
  let c := (s.parcel p).chan ch
  let old := if sent then c.sent else c.received
  let c := if sent then { c with sent := add48 old 1 } else { c with received := add48 old 1 }
  let s := s.modParcel p (fun x => { x with channels := tblPut x.channels ch c })
  if reaches48 old 1 then satEvent p c.tenancy 0xFFFFFFFF 16 ch s else s

/-- R513, R523: sends one frame of a channel to a member's parcel and channel. In the error state no key is used, so a
protected channel sends nothing (R431), nor does one whose key slot is empty. -/
def sendChan (p ch type flags dest dparcel dch tag deadline offset : Nat) (body : List Byte) (s : State) : State :=
  let c := (s.parcel p).chan ch
  let n := c.txCounter + 1
  let prot := c.keySlot != 0xFF
  let key := chanKey s p c
  if prot && (s.sec.error || key.isNone) then s else
  let h := frameHeader type (flags + b2n prot) dest s.fed.member s.fed.number dparcel dch tag 32 body.length
    (deadline % 2 ^ 32) offset n
  let s := s.modParcel p (fun x => { x with channels := tblPut x.channels ch { c with txCounter := n } })
  let s := countFrame p ch true s
  if prot then
    routeFrame (h ++ gcmSeal (key.getD []) (frameIv s.fed.member dparcel dch n) h body) s
  else routeFrame (h ++ body) s

/-- R531: sends a control frame to one member of a COLLECTIVE channel, given as 24 bits of the ring. -/
def sendMember (p ch type : Nat) (m24 : Nat) (body : List Byte) (s : State) : State :=
  sendChan p ch type 2 (bits m24 13 0) (bits m24 19 14) ch 0 0 0 body s

/-- The cycles that have passed since boot. -/
def nowCycles (s : State) : Nat := s.time.base + s.time.cycle

/-- R520: begins a wait on a member, unless it runs already. -/
def beginWait (p ch key m : Nat) (s : State) : State :=
  if s.fed.waits.any (fun w => w.parcel == p && w.channel == ch && w.key == key && w.member == m) then s
  else { s with fed := { s.fed with waits := s.fed.waits ++ [⟨p, ch, key, m, nowCycles s, 0⟩] } }

/-- R520: ends the waits of a parcel, channel and key, on one member. -/
def endWait (p ch key m : Nat) (s : State) : State :=
  { s with fed := { s.fed with waits := s.fed.waits.filter (fun w =>
      !(w.parcel == p && w.channel == ch && w.key == key && w.member == m)) } }

/-- Ends every wait of a parcel, channel and key. -/
def endWaits (p ch key : Nat) (s : State) : State :=
  { s with fed := { s.fed with waits := s.fed.waits.filter (fun w =>
      !(w.parcel == p && w.channel == ch && w.key == key)) } }

/-- R519: the members that any channel of any parcel names, this package left out. -/
def namedMembers (s : State) : List Nat :=
  let l := (liveParcels s).flatMap (fun p => (s.parcel p).channels.flatMap (fun c =>
    if c.2.kind == 1 then [c.2.peerMember] else if c.2.kind == 2 then c.2.members.map (· % 16384) else []))
  (l.filter (· != s.fed.member)).foldl (fun a m => if a.contains m then a else a ++ [m]) []

/-- R519: sends HOLD frames for a condition to every member named, with one HOLD_SENT event. -/
def sendHold (dur cause : Nat) (s : State) : State :=
  let ms := namedMembers s
  if ms.isEmpty || !s.fed.federated then s
  else
    let body := pay [(dur, 2), (cause, 1), (0, 5)]
    let s := ms.foldl (fun s m => routeFrame (frameHeader ftHold 2 m s.fed.member s.fed.number 0 0 0 32 8 0 0 0 ++ body) s) s
    recordM evHoldSent 3 (pay [(dur, 2), (cause, 1)]) s

/-- Sends a control frame to every other member of a COLLECTIVE channel. -/
def sendRing (p ch type : Nat) (body : List Byte) (s : State) : State :=
  let c := (s.parcel p).chan ch
  (c.members.zipIdx.filter (fun m => m.2 != c.rank)).foldl (fun s m => sendMember p ch type m.1 body s) s

end Sys2Proof.Machine
end

