-- ==== Sys2Proof/Machine/PlanImage.lean ====
section
/-! DEFINITION. Reading a plan image (R182 to R188), the cores of a unit (R29, R32 to R34), and descriptor-table
entries (R254 to R257). -/

namespace Sys2Proof.Machine

/-- R183: offset of the core index. -/
def imgIndex (im : List Byte) : Nat := le im 48 8

/-- R183: offset of the resource declaration. -/
def imgResource (im : List Byte) : Nat := le im 56 8

/-- R183: offset of the bounds table. -/
def imgBounds (im : List Byte) : Nat := le im 40 8

/-- R186: L of a segment. -/
def imgL (im : List Byte) (seg : Nat) : Nat := le im (imgBounds im + 64 * seg) 4

/-- R186: H of a segment. -/
def imgH (im : List Byte) (seg : Nat) : Nat := le im (imgBounds im + 64 * seg + 4) 4

/-- R184: the offset of a logical core's section. -/
def imgSection (im : List Byte) (lc : Nat) : Option Nat :=
  ((List.range (le im 22 2)).find? (fun k => le im (imgIndex im + 16 * k) 2 == lc)).map
    (fun k => le im (imgIndex im + 16 * k + 8) 8)

/-- R184, R185: the offset of a segment directory entry in a section. -/
def imgDir (sec seg : Nat) : Nat := sec + 16 + 160 * seg

/-- R187: STASH_SP, STASH_DS, GRAN_SCRATCH, GRAN_CACHE. -/
def imgStashSp (im : List Byte) : Nat := le im (imgResource im) 4
def imgStashDs (im : List Byte) : Nat := le im (imgResource im + 4) 4
def imgGranScratch (im : List Byte) : Nat := le im (imgResource im + 8) 2
def imgGranCache (im : List Byte) : Nat := le im (imgResource im + 10) 2

/-- R187, R133: IDLE_FILL_MAX in cycles. -/
def imgIdleFill (im : List Byte) : Nat :=
  let v := le im (imgResource im + 12) 1
  if v == 0 then 256 else 64 * v

/-- R187: THERMAL_GRADE. -/
def imgGrade (im : List Byte) : Nat := le im (imgResource im + 13) 1

/-- R187: MIN_QUADS. -/
def imgMinQuads (im : List Byte) : Nat := le im (imgResource im + 14) 2

/-- R187: the 1,024-bit maps of lot slots. -/
def imgLotW (im : List Byte) : Nat := le im (imgResource im + 64) 128
def imgLotA (im : List Byte) : Nat := le im (imgResource im + 192) 128

/-- R183: FLAGS of a plan: RERUNNABLE and PEER. -/
def Plan.rerunnable (v : Plan) : Bool := bit v.flags 0
def Plan.peer (v : Plan) : Bool := bit v.flags 1

/-- R33: the logical cores on a compute die, in ascending order. -/
def coresOnDie (p : Parcel) (d : Nat) : List Nat :=
  (List.range (4 * p.quads.length)).filter (fun lc => p.quads[lc / 4]?.any (fun q => q / 6 == d))

/-- R29, R33, R34: the logical cores of a unit ID; none when it names no unit of the parcel. -/
def unitCores (p : Parcel) (unit : Nat) : Option (List Nat) :=
  let level := bits unit 15 13
  let idx := bits unit 12 0
  let n := 4 * p.quads.length
  if level == 0 then (if idx < n then some [idx] else none)
  else if level == 1 then (if 4 * idx < n then some ((List.range 4).map (4 * idx + ·)) else none)
  else if level == 2 then ((logicalDies p)[idx]?).map (coresOnDie p)
  else if (level == 3 || level == 4) && idx == 0 then some (List.range n)
  else none

/-- The physical cores on which a plan runs. -/
def planCores (p : Parcel) (v : Plan) : List Nat := ((unitCores p v.unit).getD []).map p.phys

/-- The variant that an item is bound to in a parcel. -/
def State.planFor (s : State) (p : Nat) (i : Item) : Option Plan := (s.parcel p).planOf i

/-- The physical cores of an item. -/
def itemCores (s : State) (p : Nat) (i : Item) : List Nat :=
  match s.planFor p i with
  | some v => planCores (s.parcel p) v
  | none => []

/-- R277: the stash area of a logical core: its size and where it begins in the stash space of its logical die. -/
def stashArea (p : Parcel) (v : Plan) (lc : Nat) : Option (Nat × Nat × Nat) :=
  match p.quads[lc / 4]? with
  | some q =>
    let d := q / 6
    let cs := coresOnDie p d
    let area := imgStashDs v.image / cs.length / 4096 * 4096
    match (logicalDies p).findIdx? (· == d), cs.findIdx? (· == lc) with
    | some j, some rank => some (j, area, rank * area)
    | _, _ => none
  | none => none

/-- A signed 32-bit field. -/
def le32s (b : List Byte) (o : Nat) : Int := toSigned (le b o 4) 32

/-- R254 to R257: a descriptor-table entry, with the address of its base register added (R162). DESIGN CHOICE (log entry 68): the
sum of SP_ADDR and a[BREG].ADDR is a scratchpad word address of 21 bits, so it wraps modulo 2^21. -/
def descOf (b : List Byte) (entry base : Nat) : Desc :=
  let c := le b 0 8
  { kind := bits c 1 0, far := bits c 4 2, policy := bits c 5 5, tag := bits c 15 8, partner := bits c 31 16,
    deadline := bits c 63 32, farAddr := le b 8 8, spByte := 8 * ((bits (le b 16 4) 20 0 + base) % 2 ^ 21),
    n0 := le b 20 4, n1 := le b 24 2 + 1, n2 := le b 26 2 + 1, n3 := le b 28 2 + 1,
    fs1 := le32s b 32, fs2 := le32s b 36, fs3 := le32s b 40, ss1 := le32s b 44, ss2 := le32s b 48, ss3 := le32s b 52,
    waitBound := if le b 56 4 == 0 then 4096 else le b 56 4, entry := entry }

/-- R257: the bytes a descriptor moves. -/
def Desc.bytes (d : Desc) : Nat := d.n0 * d.n1 * d.n2 * d.n3

/-- R253: whether a descriptor is inbound. -/
def Desc.inbound (d : Desc) : Bool := d.kind == 0 || d.kind == 3

/-- R257: the runs of a descriptor in order: far offset or address, near byte address, byte count so far. -/
def Desc.runs (d : Desc) : List (Nat × Nat × Nat) :=
  (List.range d.n3).flatMap (fun (i3 : Nat) => (List.range d.n2).flatMap (fun (i2 : Nat) => (List.range d.n1).map (fun (i1 : Nat) =>
    let far : Int := (d.farAddr : Int) + i1 * d.fs1 + i2 * d.fs2 + i3 * d.fs3
    let near : Int := (d.spByte : Int) + i1 * d.ss1 + i2 * d.ss2 + i3 * d.ss3
    (far.toNat, (near % (8 * 2 ^ 21)).toNat, d.n0 * (i1 + d.n1 * (i2 + d.n2 * i3))))))

/-- R233: the quarters that a descriptor's near side maps. -/
def Desc.quarters (d : Desc) : List Nat :=
  (List.range 16).filter (fun q => d.runs.any (fun r =>
    decide (r.2.1 < (q + 1) * 786432) && decide (q * 786432 < r.2.1 + d.n0)))

end Sys2Proof.Machine
end

