-- ==== Sys2Proof/Machine/Complete.lean ====
section
/-! DEFINITION. How items end: completion and dead-letter entries (R487 to R489), the stop of an item's cores (R176,
R237, R269, R285), the re-issue of R301, the update of a batch's entries (R428), and the fence of a core (R540 to
R544). -/

namespace Sys2Proof.Machine

/-- Whether an item runs a plan. -/
def Item.isPlan (i : Item) : Bool :=
  match i.kind with
  | .plan | .batch _ => true
  | _ => false

/-- R46: whether an item has segments outstanding. -/
def Item.outstanding (i : Item) : Bool :=
  match i.kind with
  | .plan | .batch _ => i.begun || i.reissuePending
  | .update => true
  | .coll => i.begun

/-- R46: whether a parcel has segments outstanding. -/
def outstanding (s : State) (p : Nat) : Bool := (s.parcel p).items.any (·.outstanding)

/-- R459: a held count rounded up to a multiple of 4,096 cycles, saturating at 32 bits (R487). -/
def heldField (h : Nat) : Nat := min ((h + 4095) / 4096 * 4096) 0xFFFFFFFF

/-- R487, R526: the ITEM_ID of a completion entry. -/
def Item.idField (i : Item) : Nat :=
  match i.kind with
  | .update => 0xFFFFFFFF
  | .coll => 0xFFFFFFFE
  | _ => i.itemId

/-- R487: FLAGS of a completion entry, PHASE clear. -/
def Item.flagField (i : Item) (adm : Bool) : Nat :=
  (match i.kind with
   | .update => 2
   | .batch _ => 4
   | _ => 0) + 8 * b2n adm + 16 * b2n (i.exc.any (· == max48) || heldField i.held == 0xFFFFFFFF)

/-- R487: REG of a completion entry. -/
def Item.regField (i : Item) : Nat :=
  match i.kind with
  | .batch r => r
  | _ => 0xFFFF

/-- R487: a completion entry, PHASE clear. -/
def cplEntry (i : Item) (st : IStatus) (adm : Bool) (pm : Nat) : List Byte :=
  pay [(i.seq, 4), (i.idField, 4), (st.code, 1), (i.flagField adm, 1), (i.regField, 2), (i.length, 4), (pm, 8),
    (i.userTag, 8), (nth i.exc 0 0, 6), (nth i.exc 1 0, 6), (nth i.exc 2 0, 6), (nth i.exc 3 0, 6),
    (heldField i.held, 4), (i.segsRun, 2), (0, 2)]

/-- R488: a dead-letter entry, PHASE clear. -/
def dlrEntry (cpl : List Byte) (f : FailAt) (reissued : Bool) (ev : Nat) : List Byte :=
  cpl.take 32 ++ pay [(f.core, 2), (f.seg, 2), (f.desc, 1), (f.slot, 1), (f.group, 2), (f.addr, 8), (f.lotSlot, 2),
    (b2n reissued, 1), (0, 5), (ev, 8)]

/-- The number of the newest record in a tenancy log. -/
def tenTail (s : State) (p t : Nat) : Nat := ((s.parcel p).ten t).log.tail

/-- R556: adds 1 to a 48-bit counter of a tenancy: 0 ITEMS_DONE, 1 ITEMS_FAILED, 2 OVERRUN_FRAMES, 3 SWITCHES_IN,
4 TENSOR_WRITES. -/
def tenCount (p t which : Nat) (s : State) : State :=
  let x := (s.parcel p).ten t
  let old := if which == 0 then x.itemsDone else if which == 1 then x.itemsFailed else if which == 2 then x.overrun
    else if which == 3 then x.switchesIn else x.tensorWrites
  let v := add48 old 1
  let y := if which == 0 then { x with itemsDone := v } else if which == 1 then { x with itemsFailed := v }
    else if which == 2 then { x with overrun := v } else if which == 3 then { x with switchesIn := v }
    else { x with tensorWrites := v }
  let s := s.modTen p t (fun _ => y)
  if reaches48 old 1 then satEvent p t 0xFFFFFFFF (if which == 4 then 13 else 14) t s else s

/-- R424: the window slots of a registration name the pad lot again. -/
def restorePad (r : Reg) (x : Parcel) : Parcel :=
  let slots := (List.range (r.batch * r.kvl)).map (r.winBase + ·)
  { x with live := slots.foldl (fun l w => tblPut l w r.padSlot) x.live }

/-- R422, R428: applies a change to an entry that waited for its batch: a new state, or removal (0). -/
def applyPending (m : MEntry) : MEntry :=
  match m.pendingOp with
  | some 0 => {}
  | some st => { m with state := st, pendingOp := none }
  | none => m

/-- R428: the entries of a batch when its item completes. -/
def batchDone (p : Nat) (i : Item) (st : IStatus) (s : State) : State :=
  match i.kind with
  | .batch r =>
    let reg := (tblGet (s.parcel p).regs r).getD ⟨0, 0, 0, 0, 0, 0, 0, 0⟩
    let upd (m : MEntry) : MEntry :=
      let m := { m with lastServed := s.time.postmark }
      let m := if st.fails then m else { m with position := m.position + reg.advance, classMax := i.classMax }
      applyPending m
    s.modParcel p (fun x => restorePad reg { x with
      manifest := x.manifest.map (fun e => if i.batch.contains e.1 then (e.1, upd e.2) else e) })
  | _ => s

/-- The later of two cycles, each a postmark and an intra-frame cycle. -/
def later (a b : Nat × Nat) : Nat × Nat := if a.1 < b.1 || (a.1 == b.1 && a.2 ≤ b.2) then b else a

/-- R47, R489, R248, R335: completes an item: write-back, its entries, its counters, and what depends on its end; the items
behind it start no earlier than the cycle after (one that completes at admission stands behind all that are still there). -/
def endItem (p seq : Nat) (f : FailAt) (ev : Nat) (adm : Bool) (s : State) : State :=
  match (s.parcel p).item seq with
  | none => s
  | some i =>
    let s := flushItem p seq s
    let cpl := cplEntry i f.status adm s.time.postmark
    let s := s.modParcel p (fun x => { x with items := x.items.filter (fun j => j.seq != seq) })
    let s := tenCount p i.tenancy (if f.status.fails then 1 else 0) s
    let s := if f.status.fails then s.modTen p i.tenancy (fun x => { x with failed := seq :: x.failed }) else s
    let s := batchDone p i f.status s
    let sl := (s.parcel p).slice
    let upd := i.kind == .update && (!sl.expired || decide (s.time.postmark < sl.expiredAt + sl.maxExtend))
    let s := s.modParcel p (fun x => { x with
      slice := { x.slice with updateDone := x.slice.updateDone || upd },
      noSegBefore := if adm && !x.items.isEmpty then x.noSegBefore
        else later x.noSegBefore (s.time.postmark, s.time.stamp + 1) })
    eventsReadable p i.tenancy seq
      (postEntries p i.tenancy cpl (if f.status.fails then some (dlrEntry cpl f i.reissued ev) else none) s)

/-- R235, R285: makes n bytes of a core's scratchpad undefined. -/
def spUndef (k a n : Nat) (s : State) : State :=
  let d := draw s
  let c := d.2.core k
  d.2.setCore k { c with sp := memUndef c.sp a n d.1, upsets := c.upsets.filter (fun u => !inRange a n u) }

/-- R285: makes bytes of HBM undefined on a parcel's behalf, in the cached line where one is held. -/
def physUndef (p a n : Nat) (s : State) : State :=
  let d := draw s
  let s := d.2
  let set := a / 256 % 4096
  let tag := a / 256 / 4096
  let hit := (homeOf (s.parcel p) a).bind (fun h => (findWay (s.gran h) set tag).map (fun w => (h, 16 * set + w)))
  match hit with
  | some (h, key) =>
    let g := s.gran h
    let fresh := (List.range n).map (fun j => Config.freeByte d.1 (a + j))
    s.setGran h { g with lines := g.lines.map (fun l =>
      if l.1 == key then (l.1, { l.2 with data := overlay l.2.data (a % 256) fresh }) else l) }
  | none => { s with hbm := { s.hbm with mem := memUndef s.hbm.mem a n d.1 } }

/-- R530, R285: makes a parcel-virtual range undefined. -/
def pvUndef (p ten v n : Nat) (s : State) : State :=
  (pieces v n).foldl (fun s x =>
    match lotFor s p ten (x.1 / 2 ^ 30) with
    | some e => physUndef p (e.lot * 2 ^ 30 + x.1 % 2 ^ 30) x.2 s
    | none => s) s

/-- R285, R250: makes die-store bytes undefined. -/
def dsUndef (d a n : Nat) (s : State) : State :=
  let t := draw s
  let x := t.2.die d
  t.2.setDie d { x with store := memUndef x.store a n t.1 }

/-- R256, R277, R278: the die-store place of a far address of a descriptor: a die-store address, or a byte of the core's stash
area. -/
def farPlace (s : State) (p : Nat) (v : Plan) (lc : Nat) (d : Desc) (far : Nat) : Option (Nat × Nat) :=
  if d.far == 1 then dsPlace (s.parcel p) (bits far 34 32) (bits far 27 24) (bits far 23 0)
  else match stashArea (s.parcel p) v lc with
    | some (j, _, base) => stashPlace (s.parcel p) j (base + far)
    | none => none

/-- R259: the requests of a die-store or stash descriptor, none across a 256 B boundary (a stash area begins on one): far
address, near byte address, length. -/
def diePieces (d : Desc) : List (Nat × Nat × Nat) :=
  d.runs.flatMap (fun r =>
    let far := if d.far == 1 then r.1 else d.farAddr + r.2.2
    (pieces far d.n0).map (fun x => (x.1, r.2.1 + (x.1 - far), x.2)))

/-- R520, R525: resets a stream of a POINT channel at this end, where nothing waits on it any longer, and tells the peer. -/
def resetStream (p ch tag : Nat) (s : State) : State :=
  let c := (s.parcel p).chan ch
  let s := s.modParcel p (fun x => { x with channels := tblPut x.channels ch { c with streams := tblDel c.streams tag } })
  let s := endWaits p ch (512 + tag) (endWaits p ch tag s)
  sendChan p ch ftReset 2 c.peerMember c.peerParcel c.peerChannel tag 0 0 [] s

/-- R285: what the cancelling of a descriptor leaves. -/
def cancelDesc (p ten k lc : Nat) (v : Option Plan) (d : Desc) (s : State) : State :=
  if d.inbound then d.runs.foldl (fun s r => spUndef k r.2.1 d.n0 s) s
  else if d.far == 0 then d.runs.foldl (fun s r => pvUndef p ten r.1 d.n0 s) s
  else if d.far == 1 || d.far == 4 then
    match v with
    | some v => (diePieces d).foldl (fun s r =>
        match farPlace s p v lc d r.1 with
        | some (die, a) => dsUndef die a r.2.2 s
        | none => s) s
    | none => s
  else s

/-- R173: records FEED_LATE for a core that held. -/
def feedLate (p ten seq seg k : Nat) (h : HoldRec) (s : State) : State :=
  if h.cycles == 0 then s
  else
    let lc := ((s.parcel p).logical k).getD 0xFFFF
    let body (core held : Nat) := pay [(core, 2), (seg, 2), (held, 4), (h.episodes, 2), (h.firstSlot, 1), (0, 1),
      (h.firstPlan, 4)]
    recordP evFeedLate p ten seq 16 (body k h.cycles) (body lc (heldField h.cycles)) s

/-- The hold count of a core at intra-frame cycle u, a hold in progress included (R171). -/
def heldAt (c : Core) (u : Nat) : Nat :=
  match c.seq.st with
  | .hold _ since => c.seq.hold.cycles + (u + 1 - since)
  | _ => c.seq.hold.cycles

/-- R166, R168: frees the halves that hold segments of an item. -/
def freeHalves (p seq : Nat) (q : Seq) : Seq :=
  let f (h : SeqHalf) : SeqHalf := if h.seg.any (fun g => g.1 == p && g.2.1 == seq) then {} else h
  { q with h0 := f q.h0, h1 := f q.h1 }

/-- R237: cancels every gate request of a core after a failure and powers up every gated quarter, whose contents are
undefined; a quarter that is powering up goes on. -/
def powerQuarters (k : Nat) (s : State) : State :=
  let offs := (List.range 16).filter (fun q => ((s.core k).quarter q).off || ((s.core k).quarter q).granted)
  let s := offs.foldl (fun s q => spUndef k (q * 786432) 786432 s) s
  let c := s.core k
  let left := (c.quarters.map (fun x => x.2.usableAt - c.seq.plan)).foldl max (32 * b2n (!offs.isEmpty))
  s.setCore k { c with
    quarters := [], usable := if left == 0 then c.usable else later c.usable (s.time.postmark, s.time.stamp + left) }

/-- R225, R259, R268: the accesses of a landed inbound descriptor take effect. -/
def Core.deliver (c : Core) (l : List (Nat × List Byte)) : Core := l.foldl (fun c x => c.spWrite x.1 x.2) c

/-- R268, R285: what has landed before its plan deadline stays when the core stops: a landed descriptor is COMPLETE. -/
def deliverEarly (c : Core) : Core :=
  c.due.foldl (fun c d => match d.2 with
    | .near l => c.deliver l
    | _ => c) c

/-- R264: whether a descriptor has landed by intra-frame cycle u. -/
def Desc.landedBy (d : Desc) (u : Nat) : Bool := d.landedAt.any (fun l => decide (l ≤ u))

/-- R169, R269: the descriptors of a core with their slots: those in the positions, and those that have landed while their own
cycles still count. -/
def Core.descs (c : Core) : List (Nat × Desc) :=
  c.slots.flatMap (fun x => (x.2.active.toList ++ x.2.next.toList).map (fun d => (x.1, d))) ++ c.gone

/-- R283, R536: the item of a number that a failure of this very cycle has ended. -/
def endedNow (s : State) (p seq : Nat) : Option Ended :=
  if s.fails.at_ == (s.time.postmark, s.time.stamp) then s.fails.items.find? (fun e => e.parcel == p && e.item.seq == seq)
  else none

/-- An item of a parcel, or one that has ended in this very cycle. -/
def itemNow (s : State) (p seq : Nat) : Option Item :=
  match endedNow s p seq with
  | some e => some e.item
  | none => (s.parcel p).item seq

/-- R176, R269, R285, R129: a core halts in its item: its descriptors are cancelled, its results in flight are lost, its arrays
are OFF and clear, and its half becomes free. -/
def haltCore (k : Nat) (s : State) : State :=
  let c := s.core k
  let u := s.time.stamp
  match c.seq.item with
  | none =>
    s.setCore k { c with slots := [], gone := [], arrays := [], ops := [], due := [], seq := { h0 := c.seq.h0, h1 := c.seq.h1 } }
  | some (p, seq, _) =>
    let i := itemNow s p seq
    let ten := (i.map (·.tenancy)).getD 0xFF
    let v := i.bind (s.planFor p)
    let lc := ((s.parcel p).logical k).getD 0xFFFF
    let ds := (c.descs.map (·.2)).filter (fun d => !d.landedBy u)
    let s := s.setCore k (deliverEarly (s.core k))
    let s := ds.foldl (fun s d => cancelDesc p ten k lc v d s) s
    let s := powerQuarters k s
    let c := s.core k
    let q := freeHalves p seq c.seq
    s.setCore k { c with slots := [], gone := [], arrays := [], ops := [], due := [], seq := { h0 := q.h0, h1 := q.h1 } }

/-- R173, R176: stops a core: its holds are recorded, and it halts. -/
def stopCore (k : Nat) (s : State) : State :=
  let c := s.core k
  match c.seq.item with
  | none => haltCore k s
  | some (p, seq, seg) =>
    let ten := (((s.parcel p).item seq).map (·.tenancy)).getD 0xFF
    haltCore k (feedLate p ten seq seg k { c.seq.hold with cycles := heldAt c s.time.stamp } s)

/-- R283, R536: the place of a failure among those of one item in one cycle. -/
def FailAt.rank (f : FailAt) : Nat :=
  match f.status with
  | .security => 0 | .coreFenced => 1 | .memLost => 2 | .memUncorrected => 3 | .peerLost => 4 | .frameOverrun => 5
  | .stashOverrun => 6 | .streamDeadlock => 7
  | .descriptor => if f.desc == 3 then 8 else 9
  | .bankOff => 10 | .actDetect => 11
  | _ => 12

/-- R283: the failures of the present cycle: those of an earlier one are forgotten. -/
def failsNow (s : State) : Fails :=
  let now := (s.time.postmark, s.time.stamp)
  if s.fails.at_ == now then s.fails else { at_ := now }

/-- R536: notes an item that ends in the present cycle, in place of what was noted of it. -/
def noteEnded (e : Ended) (s : State) : State :=
  let f := failsNow s
  { s with fails := { f with
    items := f.items.filter (fun x => !(x.parcel == e.parcel && x.item.seq == e.item.seq)) ++ [e] } }

/-- R536, R560: notes cores as they stand before a failure stops them. -/
def noteCores (ks : List Nat) (s : State) : State :=
  let f := failsNow s
  { s with fails := { f with cores := f.cores ++ ks.map (fun k => (k, s.core k)) } }

/-- R487, R488: writes the entry of an item in a ring anew, where it has been posted. -/
def amendRing (n : Nat) (r : Ring) (seq : Nat) (e : List Byte) (s : State) : State :=
  let places := (List.range r.count).map (fun j => wrap32 (r.tail + (2 ^ 32 - 1 - j)))
  match places.find? (fun k => (hostRead s n (r.addr k 64) 64).any (fun x => le x 0 4 == seq)) with
  | some k => (hostWrite s n (r.addr k 64) (withPhase e (r.phase k))).getD s
  | none => s

/-- R536: the entries of an item as a later cause of its cycle leaves them: delayed, queued or posted. -/
def amendEntries (p t : Nat) (cpl dlr : List Byte) (s : State) : State :=
  let seq := le cpl 0 4
  let same (e : List Byte) : Bool := le e 0 4 == seq
  let late (d : Nat × Nat × Delayed) : Nat × Nat × Delayed :=
    match d.2.2 with
    | .entry t2 c e failed => if d.1 == p && t2 == t && same e then (d.1, d.2.1, .entry t2 c (if c then cpl else dlr) failed) else d
    | _ => d
  let s := { s with delayed := s.delayed.map late }
  let s := s.modTen p t (fun x => { x with
    dlrQ := x.dlrQ.map (fun e => if same e then dlr else e)
    cplQ := x.cplQ.map (fun e => if same e.1 then (cpl, e.2) else e) })
  let n := ((s.parcel p).ten t).mailbox
  amendRing n (s.block n).cpl seq cpl (amendRing n (s.block n).dlr seq dlr s)

/-- The cores whose sequencers stand in a segment of an item. -/
def coresOf (s : State) (p seq : Nat) : List Nat :=
  (s.cores.map (·.1)).filter (fun k => (s.core k).seq.item.any (fun x => x.1 == p && x.2.1 == seq))

/-- R283, R329, R536, R560: a further cause of an item that has ended in this very cycle: the first in the order of R536 gives the
status; an item that waited for its re-issue completes with it after all, not yet re-issued. -/
def failAgain (e : Ended) (f : FailAt) (ev : Nat) (s : State) : State :=
  let i := e.item
  let s := (coresOf s e.parcel i.seq).foldl (fun s k => haltCore k s) s
  if e.fail.rank ≤ f.rank then noteEnded { e with causes := e.causes + 1 } s
  else
    let ev := if f.status == .frameOverrun && ev == 0 then e.lateEv else ev
    let s := noteEnded { e with causes := e.causes + 1, fail := f, pending := false } s
    if e.pending then endItem e.parcel i.seq f ev false (s.modItem e.parcel i.seq (fun _ => i))
    else
      let cpl := cplEntry i f.status false s.time.postmark
      amendEntries e.parcel i.tenancy cpl (dlrEntry cpl f i.reissued ev) s

/-- R166, R176, R301, R47: fails an item: every core of it stops, and every half that holds a segment of it becomes free, also
where it has not begun; it completes with the failure, or waits for its
re-issue. `ev` is the number of the record the failure raised in the tenancy's log, or 0. -/
def failItem (p seq : Nat) (f : FailAt) (ev : Nat) (s : State) : State :=
  match endedNow s p seq, (s.parcel p).item seq with
  | some e, _ => failAgain e f ev s
  | none, none => s
  | none, some i =>
    let v := s.planFor p i
    let ks := coresOf s p seq
    let held := (ks.map (fun k => heldAt (s.core k) s.time.stamp)).foldl max 0
    let tail := tenTail s p i.tenancy
    let s := ks.foldl (fun s k => stopCore k s) (noteCores ks s)
    let s := { s with cores := s.cores.map (fun c => (c.1, { c.2 with seq := freeHalves p seq c.2.seq })) }
    let s := i.streams.foldl (fun s x => resetStream p x.1 x.2 s) s
    let lateEv := if tenTail s p i.tenancy != tail then tail + 1 else 0
    let ev := if f.status == .frameOverrun && ev == 0 then lateEv else ev
    let s := s.modParcel p (fun x => { x with
      cursors := i.cursors.foldl (fun t e => tblPut t e.1 e.2) x.cursors })
    let i := { i with held := i.held + held, segsRun := i.segsRun + b2n i.segRunning, segRunning := false, streams := [] }
    let again := f.status == .actDetect && (v.map (·.rerunnable)).getD false && !i.reissued
    let s := noteEnded { parcel := p, item := i, fail := f, pending := again, lateEv := lateEv } s
    if again then
      let j := { i with reissuePending := true, reissued := true, seg := 0, exc := [0, 0, 0, 0] }
      s.modParcel p (fun x => restoreAll j { x with items := x.items.map (fun y => if y.seq == seq then j else y) })
    else
      endItem p seq f ev false (s.modItem p seq (fun _ => i))
where
  /-- R424: the pad mapping returns when a batch item is stopped. -/
  restoreAll (j : Item) (x : Parcel) : Parcel :=
    match j.kind with
    | .batch r => match tblGet x.regs r with
      | some reg => restorePad reg x
      | none => x
    | _ => x

/-- The parcel a physical core belongs to. -/
def parcelOfCore (s : State) (k : Nat) : Option Nat :=
  (liveParcels s).find? (fun p => (s.parcel p).coreMap.contains k)

/-- R541, R543: what a fence does to one core beside its parcel's items. -/
def fenceCore (cause k : Nat) (s : State) : State :=
  let m := s.cmeta k
  let s := s.setCmeta k ⟨.fenced, s.time.postmark, cause, decide (cause ≤ 4), m.replaces⟩
  let s := { s with store := { s.store with
    fenceRec := if s.store.fenceRec.contains k then s.store.fenceRec else s.store.fenceRec ++ [k] } }
  if m.state == .fenced then s else stopCore k s

/-- R552: one FENCE record. -/
def fenceEvent (p ten seq k lc scope cause : Nat) (fl : CoreFault) (n : Nat) (s : State) : State :=
  let body (pc die quad : Nat) := pay [(pc, 2), (lc, 2), (scope, 1), (cause, 1), (die, 1), (quad, 1), (fl.array, 1),
    (0, 1), (fl.tile, 2), (fl.row, 1), (0, 1), (n, 2)]
  recordP evFence p ten seq 16 (body k (k / 28) (k / 4)) (body 0xFFFF 0xFF 0xFF) s

/-- R541, R536, R560: the items of a parcel that a fence fails, in admission order: those that have a segment issuing, segments
outstanding or a re-issue pending, and before them those that a lesser cause has ended in this very cycle. -/
def fencedItems (s : State) (p : Nat) : List Item :=
  let ended := if s.fails.at_ == (s.time.postmark, s.time.stamp) then
      s.fails.items.filter (fun e => e.parcel == p && e.item.isPlan && e.item.outstanding && !e.pending && decide (1 < e.fail.rank))
    else []
  ended.map (·.item) ++ (s.parcel p).items.filter (fun i => i.outstanding && i.isPlan)

/-- R541: the items of a parcel fail with a fence of its logical core, whose record is the newest of its tenancies. -/
def failItems (p lc : Nat) (its : List Item) (s : State) : State :=
  let ev (t : Nat) : Nat := tenTail s p t
  its.foldl (fun s i => failItem p i.seq { status := .coreFenced, core := lc, seg := i.seg } (ev i.tenancy) s) s

/-- R541, R542: fences cores of one parcel together: one record, and the parcel's items fail in admission order. -/
def fenceInParcel (p : Nat) (ks : List Nat) (scope : Nat) (fl : CoreFault) (s : State) : State :=
  let x := s.parcel p
  let k := ks.foldl min 223
  let lc := (x.logical k).getD 0xFFFF
  let its := fencedItems s p
  let seq := (its.map (·.seq)).head?.getD 0xFFFFFFFF
  let s := failItems p lc its (fenceEvent p x.running seq k lc scope fl.cause fl its.length s)
  ks.foldl (fun s k => fenceCore fl.cause k s) s

/-- R540, R541: the fault of one core. -/
def coreFault (k : Nat) (fl : CoreFault) (s : State) : State :=
  match parcelOfCore s k with
  | some p => fenceInParcel p [k] 0 fl s
  | none => fenceCore fl.cause k (fenceEvent 0xFF 0xFF 0xFFFFFFFF k 0xFFFF 0 fl.cause fl 0 s)

end Sys2Proof.Machine
end

