-- ==== Sys2Proof/Machine/Cadastre.lean ====
section
/-! DEFINITION. The cadastre (11 R394 to R400): parcel entries as bytes, the image of a copy, and what is free; the
clearing work of a switch, reset or release (R168, R231, R249, R280); the cores that stand in positions (R31, R36,
R545). -/

namespace Sys2Proof.Machine

/-- R397: a tenancy descriptor. -/
def tenDesc (t : Tenancy) : List Byte :=
  pay [(t.mailbox, 1), (t.sliceEnd, 1), (t.slice, 2), (t.maxExtend, 2)] ++ zeros 10

/-- R289: a lot table entry; LOST is worked out from the lost marks. -/
def lotWord (lost : Bool) (e : LotEnt) : Nat :=
  2 ^ 31 + 2 ^ 30 * b2n e.classA + 2 ^ 29 * b2n e.plan + 2 ^ 28 * b2n lost + e.lot

/-- R289, R424: the lot table entry that the cadastre gives a slot: a window slot names the pad lot. -/
def cadLot (x : Parcel) (j : Nat) : Option LotEnt :=
  match (x.regs.find? (fun r => decide (r.2.winBase ≤ j) && decide (j < r.2.winBase + r.2.batch * r.2.kvl))) with
  | some r => tblGet x.lots r.2.padSlot
  | none => tblGet x.lots j

/-- R396: the entry of a parcel as it stands, with LOST as given for a physical lot. -/
def entryOf (p : Nat) (x : Parcel) (lost : Nat → Bool) : List Byte :=
    pay [(p, 2), (x.state.code, 1), (x.running, 1), (0, 4), (mapOf x.quads, 8),
      (mapOf (x.granules.map (fun g => 16 * g.1 + g.2.1)), 16),
      (mapOf ((x.granules.filter (fun g => g.2.2)).map (fun g => 16 * g.1 + g.2.1)), 16),
      (mapOf (x.inUse.map (fun t => (x.ten t).mailbox)), 8), (x.created, 8)]
    ++ (List.range 8).flatMap (fun t => tenDesc (x.ten t))
    ++ (List.range 192).map (fun k => BitVec.ofNat 8 (nth x.coreMap k 0xFF)) ++ zeros 128
    ++ (List.range 1024).flatMap (fun j => leBytes (((cadLot x j).map (fun e => lotWord (lost e.lot) e)).getD 0) 4)
    ++ (List.range 1024).map (fun j => BitVec.ofNat 8 (((tblGet x.lots j).map (·.owner)).getD 0xFF))

/-- R396: the entry of a FREE parcel: no tenancy, core or lot slot is in use. -/
def freeEntry (p : Nat) : List Byte := entryOf p {} (fun _ => false)

/-- R396: the entry of a parcel; one that is being created is still FREE (R408). -/
def parcelEntry (s : State) (p : Nat) (lost : Nat → Bool) : List Byte :=
  if (s.parcel p).state == .free then freeEntry p else entryOf p (s.parcel p) lost

/-- R394: the parcel entries that a stored copy holds; the bit LOST, which follows the lost marks, is left out of it
(log entry 19). -/
def cadImage (s : State) : List (Nat × List Byte) :=
  (liveParcels s).map (fun p => (p, parcelEntry s p (fun _ => false)))

/-- R395: the header of a copy, with a value in its CRC field. -/
def cadHeader (c : CadCopy) (crc : Nat) : List Byte :=
  pay [(0x41444143, 4), (1, 2), (c.image.length, 2), (c.generation, 8), (crc, 4)] ++ zeros 44

/-- R394, R396: the 48 entries of a copy; those it does not list are FREE. -/
def cadEntries (c : CadCopy) : List Byte :=
  (List.range 48).flatMap (fun p => (tblGet c.image p).getD (freeEntry p))

/-- R395: the CRC of a copy: CRC-32C over every byte of it except bytes 16 to 19. -/
def cadCrc (c : CadCopy) : Nat :=
  crc32c ((cadHeader c 0).take 16 ++ (cadHeader c 0).drop 20 ++ cadEntries c)

/-- R394, R395: the bytes of a copy whose CRC holds. -/
def cadBytes (c : CadCopy) : List Byte := cadHeader c (cadCrc c) ++ cadEntries c

/-- R394: the working copy: the image that the parcels as they stand give. -/
def workingCopy (s : State) : CadCopy := ⟨max s.copyA.generation s.copyB.generation, cadImage s, true⟩

/-- R399: one cadastre change has been applied to the working copy; the stored copies follow. -/
def cad (s : State) : State := cadastreWrite (cadImage s) s

/-- The physical lots that parcels hold, one in creation included (R408). -/
def usedLots (s : State) : List Nat := (List.range 48).flatMap (fun p => (s.parcel p).lots.map (fun e => e.2.lot))

/-- The free physical lots, in ascending order. -/
def freeLots (s : State) : List Nat := let u := usedLots s; (List.range 744).filter (fun l => !u.contains l)

/-- The die-store granules that parcels hold. -/
def usedGrans (s : State) : List (Nat × Nat) :=
  (List.range 48).flatMap (fun p => (s.parcel p).granules.map (fun g => (g.1, g.2.1)))

/-- The quads that parcels hold. -/
def usedQuads (s : State) : List Nat := (List.range 48).flatMap (fun p => (s.parcel p).quads)

/-- The mailbox blocks bound to tenancies. -/
def usedBlocks (s : State) : List Nat :=
  (List.range 48).flatMap (fun p => (s.parcel p).inUse.map (fun t => ((s.parcel p).ten t).mailbox))

/-- R545: the unpromoted reserve cores of a die, in ascending order. -/
def reserves (s : State) (die : Nat) : List Nat :=
  if (s.die die).lost then [] else ((List.range 28).map (28 * die + ·)).filter (fun k => (s.cmeta k).state == .reserve)

/-- The promoted core that took the position of a core. -/
def replacedBy (s : State) (k : Nat) : Option Nat :=
  (List.range 224).find? (fun r => (s.cmeta r).replaces == some k)

/-- R36: the core that stands in the position of a core: itself, or the one promoted in its place. -/
def standing (s : State) : Nat → Nat → Nat
  | 0, k => k
  | n + 1, k =>
    match replacedBy s k with
    | some r => standing s n r
    | none => k

/-- R31: the physical cores at a quad of position 0 to 5, as they stand now. -/
def quadCores (s : State) (q : Nat) : List Nat :=
  (List.range 4).map (fun c => standing s 4 (28 * (q / 6) + 4 * (q % 6) + c))

/-- Whether a core can run segments. -/
def coreUp (s : State) (k : Nat) : Bool := (s.cmeta k).state == .active || (s.cmeta k).state == .promoted

/-- R168: both halves of a core become free. -/
def clearHalves (k : Nat) (s : State) : State :=
  let c := s.core k
  s.setCore k { c with seq := { c.seq with h0 := {}, h1 := {} } }

/-- R231: zero-writes the scratchpad of a core. -/
def zeroScratch (k : Nat) (s : State) : State :=
  let c := s.core k
  s.setCore k ({ c with sp := {} }.heal (inRange 0 (2 ^ 24)))

/-- R416, R410: the clearing work on a parcel: R168, R231, R249 and R280. -/
def clearParcel (p : Nat) (s : State) : State :=
  let s := (s.parcel p).coreMap.foldl (fun s k => zeroScratch k (clearHalves k s)) s
  let s := flushParcel p s
  s.modParcel p (fun x => { x with cursors := [] })

/-- R36, R231, R545: puts a reserve core into the position of a fenced core: the reserve starts from cleared units, its
scratchpad zero; the parcel starts no segment before cycle 25,600. -/
def promote (fenced reserve : Nat) (s : State) : State :=
  let owner := parcelOfCore s fenced
  let lc := (owner.bind (fun p => (s.parcel p).logical fenced)).getD 0xFFFF
  let s := s.setCmeta fenced { s.cmeta fenced with promoteDue := false }
  let s := s.setCmeta reserve { s.cmeta reserve with state := .promoted, replaces := some fenced }
  let s := s.setCore reserve { spCorrected := (s.core reserve).spCorrected }
  let body (a b : Nat) := pay [(a, 2), (b, 2), (lc, 2)]
  match owner with
  | some p =>
    let s := s.modParcel p (fun x => { x with
      coreMap := x.coreMap.map (fun k => if k == fenced then reserve else k),
      noSegBefore := later x.noSegBefore (s.time.postmark, 25600) })
    cad (recordP evPromote p (s.parcel p).running 0xFFFFFFFF 6 (body fenced reserve) (body 0xFFFF 0xFFFF) s)
  | none => recordP evPromote 0xFF 0xFF 0xFFFFFFFF 6 (body fenced reserve) (body 0xFFFF 0xFFFF) s

end Sys2Proof.Machine
end

