-- ==== Sys2Proof/Machine/Sched.lean ====
section
/-! DEFINITION. Scheduling (09 R330 to R336, 11 R412 to R428): room on the rings (R486), admission, batches, work and
slices, and the order of items. -/

namespace Sys2Proof.Machine

/-- The uncompleted items of a tenancy, in order of admission. -/
def tenItems (s : State) (p t : Nat) : List Item := (s.parcel p).items.filter (fun i => i.tenancy == t)

/-- R460: the entries of a tenancy that wait for a frame head. -/
def waiting (s : State) (p t : Nat) (cpl : Bool) : Nat :=
  (s.delayed.filter (fun d => d.1 == p && (match d.2.2 with
    | .entry t' c _ _ => t' == t && c == cpl
    | _ => false))).length

/-- R486: whether the completion and dead-letter rings with their overflow queues of 64 entries have room for every
uncompleted item of the tenancy and one more. -/
def roomFor (s : State) (p t : Nat) : Bool :=
  let x := (s.parcel p).ten t
  let b := s.block x.mailbox
  let n := (tenItems s p t).length + 1
  b.itemRings && decide (n + waiting s p t true + x.cplQ.length + b.cpl.count ≤ 2 ^ b.cpl.log2 + 64)
    && decide (n + waiting s p t false + x.dlrQ.length + b.dlr.count ≤ 2 ^ b.dlr.log2 + 64)

/-- R415: whether a tenancy has work. -/
def tenWork (s : State) (p t : Nat) : Bool :=
  let x := s.parcel p
  let b := s.block (x.ten t).mailbox
  (b.itemRings && b.req.head != b.req.tail) || !(tenItems s p t).isEmpty
    || (x.ten t).held.any (fun h => h.tk.op == 0x51 && h.form == 0)
    || x.manifest.any (fun e => e.2.tenancy == t && e.2.state == 1)

/-- R413: the length of a slice in frames. -/
def sliceLen (s : State) (t : Tenancy) : Nat := max t.slice (ceilDiv 3300000 s.time.period)

/-- R413, R416, R420: begins a slice of a tenancy in this frame, under its descriptor as it stands now; a slice that begins
without work counts the frame as one without work until work comes (R415). -/
def beginSlice (p t : Nat) (s : State) : State :=
  s.modParcel p (fun x => { x with running := t, slice := {
    first := s.time.postmark, len := sliceLen s (x.ten t), sliceEnd := (x.ten t).sliceEnd, maxExtend := (x.ten t).maxExtend,
    idleFrames := b2n (!tenWork s p t) } })

/-- R414: the postmark at which the slice expires. -/
def expiryAt (x : Parcel) : Nat := if x.slice.expired then x.slice.expiredAt else x.slice.first + x.slice.len

/-- R414: whether the slice has expired by this frame. -/
def sliceDue (s : State) (x : Parcel) : Bool := decide (expiryAt x ≤ s.time.postmark)

/-- R414: whether an expired slice is to end under the ITEM rule. -/
def itemRule (s : State) (x : Parcel) : Bool :=
  x.slice.sliceEnd == 0 || decide (expiryAt x + x.slice.maxExtend ≤ s.time.postmark)

/-- R412: whether a parcel is in service with a running tenancy. -/
def inService (x : Parcel) : Bool := (x.state == .active || x.state == .isSealed) && x.running < 8

/-- R412, R414, R431: whether the running tenancy may have items admitted or built. -/
def mayAdmit (s : State) (p t : Nat) : Bool :=
  let x := s.parcel p
  inService x && x.running == t && !x.slice.deactivated && !(sliceDue s x && itemRule s x)
    && !(x.state == .isSealed && s.sec.error)

/-- R485: takes the next submission sequence number of a tenancy; `nextSeq` counts all that were ever taken. -/
def takeSeq (p t : Nat) (s : State) : Nat × State :=
  let k := ((s.parcel p).ten t).nextSeq
  let n := wrap32 k
  (n, s.modTen p t (fun x => { x with nextSeq := k + 1, failed := x.failed.filter (· != n) }))

/-- R332, R392, R518: why an item fails at its admission: the divergence hold first (log entry 20), then the cover,
then the federation. -/
def admitFail (s : State) (p t : Nat) (v : Option Plan) : Option IStatus :=
  if ((s.parcel p).ten t).divHold then some .divergenceHold
  else match v with
    | none => some .lengthExceedsPlan
    | some v => if v.peer && !s.fed.aligned then some .peerLost else none

/-- R331, R332: admits an item, bound to its variant, or completes it at admission. -/
def admitItem (p : Nat) (i : Item) (s : State) : State :=
  let v := (s.parcel p).cover i.tenancy i.itemId i.length
  let i := { i with classMax := (v.map (·.classMax)).getD 0, admitted := (s.time.postmark, s.time.cycle) }
  let s := s.modParcel p (fun x => { x with
    items := x.items ++ [i], slice := { x.slice with idleFrames := 0 } })
  match admitFail s p i.tenancy v with
  | some st => endItem p i.seq { status := st } 0 true s
  | none => s

/-- R426: the largest CLASS_MAX of an item's variants. -/
def maxClass (x : Parcel) (t itemId : Nat) : Nat := ((x.variants t itemId).map (·.classMax)).foldl max 0

/-- R426, R486: stops one manifest entry that no variant covers: its one-sequence item completes at admission. -/
def stopEntry (p r k : Nat) (reg : Reg) (s : State) : State :=
  let x := s.parcel p
  match tblGet x.manifest k with
  | none => s
  | some e =>
    if !roomFor s p x.running then s
    else
      let q := takeSeq p x.running s
      let s := q.2.modParcel p (fun x => { x with manifest := tblPut x.manifest k { e with state := 3 } })
      let i : Item := {
        seq := q.1, tenancy := x.running, kind := .batch r, itemId := reg.itemId,
        length := e.position + reg.advance, batch := [k], built := s.time.postmark }
      let s := s.modParcel p (fun x => { x with items := x.items ++ [i] })
      endItem p q.1 { status := if ((s.parcel p).ten i.tenancy).divHold then .divergenceHold else .lengthExceedsPlan }
        0 true s

/-- R425, R426: builds and admits the batch item of a registration, if it has candidates and none uncompleted. -/
def batchBuild (p r : Nat) (reg : Reg) (s : State) : State :=
  let x := s.parcel p
  let busy := x.items.any (fun i => i.kind == .batch r)
  if busy || reg.tenancy != x.running then s
  else
    let cand := x.manifest.filter (fun e => e.2.state == 1 && e.2.reg == r && e.2.tenancy == x.running)
    let cand := sortBy (fun a b => decide (a.1 < b.1)) cand
    let top := maxClass x x.running reg.itemId
    let tooLong := cand.filter (fun e => decide (top < e.2.position + reg.advance))
    let s := tooLong.foldl (fun s e => stopEntry p r e.1 reg s) s
    let cand := cand.filter (fun e => !decide (top < e.2.position + reg.advance))
    let batch := (sortBy (fun a b => decide (a.2.lastServed < b.2.lastServed)) cand).take reg.batch
    if batch.isEmpty || !roomFor s p x.running then s
    else
      let q := takeSeq p x.running s
      admitItem p {
        seq := q.1, tenancy := x.running, kind := .batch r, itemId := reg.itemId,
        length := (batch.map (fun e => e.2.position + reg.advance)).foldl max 0,
        batch := batch.map (·.1), built := s.time.postmark } q.2

/-- R425: the batch items of the running tenancy of a parcel. -/
def buildBatches (p : Nat) (s : State) : State :=
  if mayAdmit s p (s.parcel p).running then
    (List.range 16).foldl (fun s r => match tblGet (s.parcel p).regs r with
      | some reg => batchBuild p r reg s
      | none => s) s
  else s

/-- R415, R420: the next tenancy after a position: the first with work in cyclic order. -/
def nextTen (s : State) (p out : Nat) : Option Nat :=
  ((List.range 8).map (fun k => (out + 1 + k) % 8)).find? (fun t => (s.parcel p).inUse.contains t && tenWork s p t)

/-- R420: the first position in use after a position, in cyclic order. -/
def nextUsed (s : State) (p out : Nat) : Option Nat :=
  ((List.range 8).map (fun k => (out + 1 + k) % 8)).find? (fun t => (s.parcel p).inUse.contains t)

/-- R425: begins a slice in a frame head, with its batch items. -/
def startSlice (p t : Nat) (s : State) : State := buildBatches p (beginSlice p t s)

/-- R335, R348, R425: the item of the running tenancy whose segments come first: a re-issue, else the earliest admitted. -/
def headItem (x : Parcel) : Option Item :=
  match x.items.find? (fun i => i.tenancy == x.running && i.reissuePending) with
  | some i => some i
  | none => x.items.find? (fun i => i.tenancy == x.running)

/-- R449: whether a command of the PF owner or the board management controller that names the parcel is unanswered. -/
def operatorHeld (x : Parcel) : Bool := x.tenancies.any (fun e => e.2.held.any (fun h => h.tk.block == 0 || h.tk.block == 64))

/-- R544: whether a core of an item's unit is fenced with no promotion in its place. -/
def fencedUnit (s : State) (p : Nat) (i : Item) : Bool := (itemCores s p i).any (fun k => !coreUp s k)

/-- R545: whether every fenced core of an item's unit is to be promoted at this frame head. -/
def promotionDue (s : State) (p : Nat) (i : Item) : Bool :=
  (itemCores s p i).all (fun k => coreUp s k ||
    ((s.cmeta k).promoteDue && !(reserves s (k / 28)).isEmpty))

/-- R308, R323, R517: whether the module keeps every segment from starting. -/
def noSegments (s : State) : Bool := s.power.holdOn || s.power.drainOn || s.fed.quiet

/-- R544: fails, in a frame head, the items that would start next but whose unit has a fenced position. -/
def failFenced (p : Nat) : Nat → State → State
  | 0, s => s
  | n + 1, s =>
    let x := s.parcel p
    match headItem x with
    | none => s
    | some i =>
      if inService x && !noSegments s && !i.segRunning && i.isPlan
          && fencedUnit s p i && !promotionDue s p i then
        let lc := ((unitCores x (((x.planOf i).map (·.unit)).getD 0)).getD []).find? (fun c => !coreUp s (x.phys c))
        failFenced p n (failItem p i.seq { status := .coreFenced, core := lc.getD 0xFFFF } 0 s)
      else s

end Sys2Proof.Machine
end

