-- ==== Sys2Proof/Machine/FrameHead.lean ====
section
/-! DEFINITION. The frame tick (01 R38 to R50), the changes of a frame head (R43), slices and switches (11 R412 to
R421), promotion (15 R545) and the maintenance drain (08 R323). -/

namespace Sys2Proof.Machine

/-- R42: whether the frame head is in progress. -/
def inHead (s : State) : Bool := decide (s.time.cycle < 1024)

/-- R552: a STATE record. -/
def stateEvent (cond value : Nat) (s : State) : State := recordM evState 2 (pay [(cond, 1), (value, 1)]) s

/-- R50: the tick ends every segment that still issues. -/
def overrunAtTick (s : State) : State :=
  (liveParcels s).foldl (fun s p =>
    ((s.parcel p).items.filter (·.segRunning)).foldl (fun s i =>
      failItem p i.seq { status := .frameOverrun, seg := i.seg } 0 s) s) s

/-- R307: the event of a frame in which a segment ran above its plan's grade. -/
def thermOverPlan (p : Nat) (s : State) : State :=
  let e := (s.parcel p).thermEvent
  if e == 0 then s
  else
    let body := pay [(e % 256, 1), (e / 256 % 256, 1), (e / 65536, 1)]
    recordP evThermOverPlan p (s.parcel p).running 0xFFFFFFFF 3 body body (s.modParcel p (fun x => { x with thermEvent := 0 }))

/-- R417, R461, R483: the totals of a parcel and of its tenancies. -/
def parcelTotals (x : Parcel) : List Byte :=
  pay [(x.switchFrames, 6), (0, 2)] ++ (List.range 8).flatMap (fun k =>
    let t := x.ten k
    pay [(t.framesRun, 8), (t.overrun, 6), (t.switchesIn, 6), (t.itemsDone, 6), (t.itemsFailed, 6), (0, 8)])

/-- R449, R461: the totals of a parcel as they stand at a frame head, which the operator reads once it is seal-pending or sealed. -/
def coarseTotals (p : Nat) (s : State) : State := s.modParcel p (fun x => { x with coarse := parcelTotals x })

/-- R415, R417: what a parcel counts at the end of a frame. -/
def frameCounts (p : Nat) (s : State) : State :=
  let x := s.parcel p
  if x.running == 0xFF then
    let old := x.switchFrames
    let s := s.modParcel p (fun x => { x with switchFrames := add48 old 1 })
    if reaches48 old 1 then satEvent p 0xFF 0xFFFFFFFF 15 0xFFFF s else s
  else if inService x then
    let t := x.running
    let s := s.modTen p t (fun y => { y with framesRun := (y.framesRun + 1) % 2 ^ 64 })
    let s := if sliceDue s x then tenCount p t 2 s else s
    let idle := if tenWork s p t then 0 else x.slice.idleFrames + 1
    s.modParcel p (fun x => { x with slice := { x.slice with idleFrames := idle } })
  else s

/-- R305: the refresh factor at a stack temperature in quarters of a degree. -/
def refreshAt (t : Nat) : Nat := if t ≤ 340 then 1 else if t ≤ 380 then 2 else 4

/-- R326: a REFRESH_STEP record of a stack. -/
def refreshEvent (k : Nat) (s : State) : State :=
  let t := min ((s.stack k).temp / 4) 254
  recordM evMemError 32 (memPay 9 0xFF k 0xFF 0xFFFF 0 t 0 0xFFFF 0xFFFF 0xFFFFFFFF s.time.postmark) s

/-- R306: a fall of the refresh factor, after a frame whose samples all lay at least 3 °C below the threshold. -/
def refreshFall (k : Nat) (s : State) : State :=
  let x := s.stack k
  let b85 := nth x.below 0 false
  let b95 := nth x.below 1 false
  let f := if !x.sampled then x.refresh else if b85 then 1 else if b95 then min x.refresh 2 else x.refresh
  let s := s.setStack k { x with
    refresh := f, below := [true, true], sampled := false, correctedSeen := false, exhausted := [] }
  if f == x.refresh then s else refreshEvent k s

/-- R260: the deadlines and cycles of a core's descriptors at a tick. -/
def rebaseCore (per : Nat) (c : Core) : Core :=
  let f (d : Desc) : Desc := { d with
    frameDl := d.frameDl - per, completeAt := d.completeAt.map (· - per), landedAt := d.landedAt.map (· - per) }
  { c with gone := c.gone.map (fun x => (x.1, f x.2)), slots := c.slots.map (fun x => (x.1, { active := x.2.active.map f, next := x.2.next.map f })) }

/-- R260: the deadlines of the unsent bytes of a parcel's streams at a tick. -/
def rebaseStreams (per : Nat) (x : Parcel) : Parcel :=
  let f (t : Stream) : Stream := { t with txDl := t.txDl.map (fun m => { m with dl := m.dl - per }) }
  { x with channels := x.channels.map (fun c => (c.1, { c.2 with streams := c.2.streams.map (fun t => (t.1, f t.2)) })) }

/-- R515: the TICK frame that the datum member sends on each UP port in Courier mode. -/
def sendTicks (s : State) : State :=
  if s.fed.federated && s.fed.member == s.fed.datum then
    ((List.range 8).filter (fun k => (s.port k).st == .up && !(s.port k).mode8023)).foldl (fun s k =>
      sendOn k (frameHeader ftTick 2 (s.port k).peerMember s.fed.member s.fed.number 0 0 0 32 20 0 0 0
        ++ pay [(s.time.postmark, 8), (s.time.period, 4), (0, 8)]) s) s
  else s

/-- R517, R518: whether an offset lies beyond 132 cycles either way. -/
def Fed.astray (f : Fed) : Bool := decide (f.offset < -132) || decide (132 < f.offset)

/-- R518: the frames without a TICK, and out of or within the bound, that a member counts. A frame without a TICK shows no offset,
and neither run of frames goes on over it (DESIGN CHOICE, log entry 79). -/
def fedCount (s : State) : State :=
  let f := s.fed
  if f.member == f.datum || !(f.federated || f.forming.isSome) then s
  else
    { s with fed := { f with
      noTick := if f.tickSeen then 0 else f.noTick + 1, tickSeen := false,
      outFrames := if f.tickSeen && f.astray then f.outFrames + 1 else 0,
      inFrames := if f.tickSeen && !f.astray then f.inFrames + 1 else 0 } }

/-- R517: the cycles by which a package that joins lengthens the frame that ends: once it has measured its offset over 8 TICK
frames, what brings its next tick onto a tick of the datum. It lengthens a further frame only where the last TICK shows that the
tick came too far from the datum's. -/
def joinStretch (s : State) : Option Nat :=
  let f := s.fed
  if f.forming.isSome && f.upstream != 0xFF && f.quiet && decide (8 ≤ f.samples.length) && (!f.lengthened || f.astray) then
    some ((-(f.offset + s.time.period)) % (f.tickPeriod : Int)).toNat
  else none

/-- R517: a frame lengthened by so many cycles has ended: the offset is what it was made to be. -/
def stretched (n : Option Nat) (s : State) : State :=
  match n with
  | some _ => { s with fed := { s.fed with lengthened := true, offset := 0 } }
  | none => s

/-- R517: a package that waits to join starts no segment from the first frame head without outstanding segments. -/
def fedQuiet (s : State) : State :=
  if s.fed.forming.isSome && s.fed.upstream != 0xFF && !(liveParcels s).any (outstanding s) then
    { s with fed := { s.fed with quiet := true } }
  else s

/-- R46, R410, R532: the postmark becomes n at a frame head: the frames that items and slices count go on from there. -/
def jumpTo (n : Nat) (s : State) : State :=
  let d := n - s.time.postmark
  { s with
    time := { s.time with postmark := n }
    parcels := s.parcels.map (fun x => (x.1, { x.2 with
      items := x.2.items.map (fun i => { i with segFrame := i.segFrame + d })
      slice := { x.2.slice with first := x.2.slice.first + d } })) }

/-- R532 FED_FORM: the datum member adopts its start postmark and period at its next tick. -/
def datumAdopt (s : State) : State :=
  match s.fed.forming with
  | some (tk, start, per) =>
    if s.fed.upstream == 0xFF then
      let s := jumpTo (max s.time.postmark start) s
      let s := { s with
        time := { s.time with period := per },
        fed := { s.fed with forming := none, federated := true, aligned := true } }
      reply tk .ok (leBytes s.time.postmark 8) s
    else s
  | none => s

/-- R578: the temperatures of the compute dies in service and of the hub die. -/
def dieTemps (s : State) : List Nat :=
  s.power.hubTemp :: ((List.range 8).filter (fun (d : Nat) => !(s.die d).lost)).map (fun d => (s.die d).temp)

/-- R305: the temperatures of the stacks that can be reached. -/
def stackTemps (s : State) : List Nat :=
  ((List.range 12).filter (fun k => !(s.stack k).unreachable)).map (fun k => (s.stack k).temp)

/-- R563, R580: whether every reading allows a thermal hold to end. -/
def coolNow (s : State) : Bool :=
  (dieTemps s).all (fun t => decide (t ≤ 380)) && (stackTemps s).all (fun t => decide (t ≤ 400))
    && decide (s.power.inputW ≤ 3230)
    && ((List.range 8).filter (fun (d : Nat) => !(s.die d).lost)).all (fun d => decide ((s.die d).powerW ≤ 275))

/-- R579, R306: the state of THERM_ALERT_L. -/
def setAlert (s : State) : State :=
  let a := s.power.hubHot || (List.range 8).any (fun (d : Nat) => (s.die d).hot && !(s.die d).lost)
    || (List.range 12).any (fun (k : Nat) => (s.stack k).refresh == 4 && !(s.stack k).unreachable) || s.power.holdOn
  { s with power := { s.power with alert := a } }

/-- R306, R308, R578 to R580: what a tick does to the readings of the frame that ends: a die that stood 3 °C below 95 °C in
every sample of a whole frame is no longer hot. -/
def tickPower (s : State) : State :=
  let w := s.power
  let cool (d : Die) : Die := { d with hot := d.hot && !(w.sampled && d.below), below := true }
  setAlert { s with
    dies := s.dies.map (fun d => (d.1, cool d.2))
    power := { w with
      coolLast := w.frameCool, frameCool := coolNow s, holdDue := if w.holdOn then 0 else w.holdDue
      hubHot := w.hubHot && !(w.sampled && w.hubBelow), hubBelow := true, sampled := false } }

/-- R545, R546: RESERVE_PROMOTE as it takes effect. -/
def promoteNow (fenced reserve : Nat) (tk : Ticket) (s : State) : State :=
  if (parcelOfCore s fenced).isNone || (s.cmeta fenced).state != .fenced then refuse tk .badParcel s
  else
    let rs := reserves s (fenced / 28)
    if reserve == 0xFFFF then
      match rs with
      | [] => refuse tk .noResource s
      | r :: _ => reply tk .ok (leBytes r 2) (promote fenced r s)
    else if rs.contains reserve then reply tk .ok (leBytes reserve 2) (promote fenced reserve s)
    else refuse tk .badParcel s

/-- R51: whether a loaded plan has a segment that a period cannot hold. -/
def periodBusy (s : State) (per : Nat) : Bool :=
  (liveParcels s).any (fun p => (s.parcel p).plans.any (fun v => (List.range v.segments).any (fun k =>
    decide (per < 1024 + imgL v.image k + imgH v.image k))))

/-- R43: whether the condition that a change waits for holds now. A change of period, the end of a drain, a promotion and the
end of a federation wait for none; a reset or release waits until its own work is done, which its row says. -/
def changeReady (s : State) : Change → Bool
  | .period _ _ | .drainEnd _ | .promote _ _ _ | .fedLeave _ => true
  | .drainBegin _ => !(liveParcels s).any (outstanding s)
  | .fedJoin => s.fed.forming.isSome && s.fed.quiet && s.fed.lengthened && !s.fed.astray
  | .sealed p => (s.parcel p).sealPending && (s.parcel p).state == .active && !operatorHeld (s.parcel p)
  | .deactivate p => inService (s.parcel p) && !outstanding s p
  | .reset _ | .release _ => false

/-- R314: whether a fold waits that this frame head applies before every change of a command. -/
def foldWaits (s : State) : Bool := (List.range 12).any (fun k =>
  (s.stack k).foldDue.any (fun d => decide (d.at_.1 < s.time.postmark))
    || (s.stack k).unmapDue.any (fun d => decide (d.2 < s.time.postmark)))

/-- R560: whether an automatic promotion is due in this frame head, which comes before a RESERVE_PROMOTE. -/
def promotionWaits (s : State) : Bool := (List.range 224).any (fun k =>
  (s.cmeta k).state == .fenced && (s.cmeta k).promoteDue && decide ((s.cmeta k).fencedAt < s.time.postmark))

/-- R546: whether a change is a promotion. -/
def Change.promotes : Change → Bool
  | .promote _ _ _ => true
  | _ => false

/-- R43: the place in the list of the first accepted change of a kind whose turn has come in this frame head: it was accepted
in an earlier frame, every change accepted before it that is due waits for its own condition, and none accepted after it has
been applied in this frame head. A change accepted within a frame head waits for a later one (DESIGN CHOICE, log entry 59). -/
def turnOf (s : State) (kind : Change → Bool) : Option Nat :=
  match s.changes.findIdx? (fun c => kind c.2) with
  | none => none
  | some k =>
    let due (c : Nat × Change) : Bool := decide (c.1 < s.time.postmark)
    let earlier := (s.changes.take k).any (fun c => due c && changeReady s c.2)
    let late := s.passed.1 == s.time.postmark && decide (k < s.passed.2)
    let auto := (s.changes[k]?).any (fun c => c.2.promotes) && promotionWaits s
    if inHead s && !foldWaits s && !auto && (s.changes[k]?).any due && !earlier && !late then some k else none

/-- R43: the list of accepted changes when the one at a place is applied. -/
def takeChange (k : Nat) (s : State) : State :=
  { s with changes := s.changes.eraseIdx k, passed := (s.time.postmark, k) }

/-- R43: the state in which a change with a row of its own is applied, if its turn has come; a change that no command of this
session asked for waits for the frame head alone. -/
def turnIn (s : State) (kind : Change → Bool) : Option State :=
  if s.changes.any (fun c => kind c.2) then (turnOf s kind).map (fun k => takeChange k s)
  else if inHead s && !foldWaits s then some s else none

/-- R43: whether a change is of a parcel: its sealing, the end of its reset or release, or of a deactivated tenancy's slice. -/
def Change.ofParcel (p : Nat) : Change → Bool
  | .sealed q | .reset q | .release q | .deactivate q => q == p
  | _ => false

/-- R43: whether a change is the end of a parcel's reset. -/
def Change.resets (p : Nat) : Change → Bool
  | .reset q => q == p
  | _ => false

/-- R43: whether a change is the end of a parcel's release. -/
def Change.releases (p : Nat) : Change → Bool
  | .release q => q == p
  | _ => false

/-- R43: whether a change is the sealing of a parcel. -/
def Change.seals (p : Nat) : Change → Bool
  | .sealed q => q == p
  | _ => false

/-- R43: whether a change is the end of the slice of a parcel's deactivated tenancy. -/
def Change.deactivates (p : Nat) : Change → Bool
  | .deactivate q => q == p
  | _ => false

/-- R43: whether a change is the join of a federation. -/
def Change.joins : Change → Bool
  | .fedJoin => true
  | _ => false

/-- R43: whether a change is the begin of a drain. -/
def Change.drains : Change → Bool
  | .drainBegin _ => true
  | _ => false

/-- The changes that have no row of their own. -/
def Change.plain : Change → Bool
  | .period _ _ | .drainEnd _ | .promote _ _ _ | .fedLeave _ => true
  | _ => false

/-- R414: SLICE_EXPIRY: the slice of the running tenancy expires at the frame head that follows its last frame. -/
def execSliceExpiry (parcel : Nat) (s : State) : Host.Outcome State Fault Refusal :=
  let x := s.parcel parcel
  if inHead s && inService x && !x.slice.expired && sliceDue s x then
    .next (s.modParcel parcel (fun x => { x with
      slice := { x.slice with expired := true, expiredAt := expiryAt x, updateDone := false } }))
  else .next s

/-- R414: whether a tenancy has nothing to admit. -/
def nothingToAdmit (s : State) (p t : Nat) : Bool :=
  let b := s.block ((s.parcel p).ten t).mailbox
  !(b.itemRings && b.req.head != b.req.tail) && !(s.parcel p).manifest.any (fun e => e.2.tenancy == t && e.2.state == 1)

/-- R414, R415, R420, R46: whether the slice of the running tenancy ends in this frame head. -/
def sliceOver (s : State) (p : Nat) : Bool :=
  let x := s.parcel p
  let t := x.running
  let none_ := (tenItems s p t).isEmpty
  let idle := decide (2 ≤ x.slice.idleFrames) && !tenWork s p t && (nextTen s p t).any (· != t)
  let due := sliceDue s x && (if x.slice.sliceEnd == 0 then none_
    else x.slice.updateDone || (if itemRule s x then none_ else nothingToAdmit s p t))
  !outstanding s p && (x.slice.deactivated || due || idle)

/-- R416, R399: begins a switch towards a tenancy. -/
def beginSwitch (p incoming : Nat) (s : State) : State :=
  let s := s.modParcel p (fun x => { x with
    running := 0xFF, slice := {}, work := .switching incoming s.time.postmark })
  cad (clearParcel p s)

/-- R416, R417: restores a tenancy after the clearing work: it runs, its slice begins, and the switch is counted. -/
def restoreTen (p t : Nat) (s : State) : State :=
  let s := tenCount p t 3 (startSlice p t (s.modParcel p (fun x => { x with work := .none })))
  cad s

/-- R416, R421: TENANCY_RESTORE: at a frame head after the one in which the switch began. -/
def execTenancyRestore (parcel : Nat) (s : State) : Host.Outcome State Fault Refusal :=
  let x := s.parcel parcel
  match x.work with
  | .switching n since =>
    if inHead s && decide (since < s.time.postmark) && (x.state == .active || x.state == .isSealed) then
      let n := if x.inUse.contains n then some n
        else match nextTen s parcel n with
          | some m => some m
          | none => nextUsed s parcel n
      match n with
      | some n => fin (restoreTen parcel n s)
      | none => .next s
    else .next s
  | _ => .next s

/-- R545, R547: RESERVE_PROMOTION: in a frame head after the fault, the lowest unpromoted reserve core of the die takes
the fenced core's position; with none left the position stays fenced. -/
def execReservePromotion (core : Nat) (s : State) : Host.Outcome State Fault Refusal :=
  let m := s.cmeta core
  if inHead s && m.state == .fenced && m.promoteDue && decide (m.fencedAt < s.time.postmark) then
    match reserves s (core / 28) with
    | [] => .next (s.setCmeta core { m with promoteDue := false })
    | r :: _ => fin (promote core r s)
  else .next s

/-- R43, R46, R323, R519: MAINT_DRAIN_EFFECT: a requested drain takes effect, in its turn, at the first frame head after its
acceptance at which no parcel has segments outstanding. -/
def execMaintDrainEffect (s : State) : Host.Outcome State Fault Refusal :=
  match turnOf s Change.drains with
  | none => .next s
  | some k => match s.changes[k]? with
    | some (_, .drainBegin tk) =>
      if changeReady s (.drainBegin tk) then
        let s := takeChange k s
        let s := { s with power := { s.power with drainOn := true } }
        fin (reply tk .ok [] (sendHold 500 2 (stateEvent 2 1 s)))
      else .next s
    | _ => .next s

end Sys2Proof.Machine
end

