-- ==== Sys2Proof/Machine/Matrix.lean ====
section
/-! DEFINITION. The matrix arrays of one core (03): the dot product of a column (R70, R71, R73), and what every
operation in progress does in one plan cycle (R102 to R116, R119 to R125, R130, R132, R154 to R160). -/

namespace Sys2Proof.Machine

/-- R97, R159: the bits of one element of a format code FMT. -/
def fmtBits (fmt : Nat) : Nat := if fmt == 2 then 4 else if fmt == 4 || fmt == 5 then 16 else 8

/-- R159: the floating-point layout of FMT (INT8, code 3, is not one). -/
def fmtOf (fmt : Nat) : Fmt :=
  if fmt == 0 then fmtE4M3 else if fmt == 1 then fmtE5M2 else if fmt == 2 then fmtE2M1
  else if fmt == 4 then fmtBF16 else fmtFP16

/-- R65, R16: the element codes in bytes: two per byte for 4 bits, the low one first; two bytes for 16 bits. -/
def elemsOf (fmt : Nat) (bs : List Byte) : List Nat :=
  let x := leNat bs
  let w := fmtBits fmt
  (List.range (bs.length * 8 / w)).map (fun k => bits x (w * k + w - 1) (w * k))

/-- The exact value of an element code under its scale (R57, R63, R69). -/
def elemVal (fmt scale code : Nat) : FVal :=
  if scale == 0xFF then .nan else decodeF (fmtOf fmt) code

/-- R70 step 2: truncates a finite product toward zero to a multiple of 2^q, as a signed count of 2^q. -/
def truncUnits (q : Int) : FVal → Int
  | .fin neg m e =>
    let n : Nat := if e ≥ q then m * 2 ^ (e - q).toNat else m / 2 ^ (q - e).toNat
    if neg then -(n : Int) else n
  | _ => 0

/-- floor(log2 |p|) of a finite non-zero value. -/
def expOfV : FVal → Option Int
  | .fin _ m e => if m == 0 then none else some (expOf m e)
  | _ => none

/-- The larger of two optional exponents. -/
def maxExp (a b : Option Int) : Option Int :=
  match a, b with
  | some x, some y => some (max x y)
  | some x, none => some x
  | none, y => y

/-- R70 steps 2 to 4 and R71: the exact scaled sum of products, with the scale exponent sh = sa + sb − 254. -/
def sumProducts (ps : List FVal) (sh : Int) : FVal :=
  if ps.any (·.isNan) then .nan
  else
    let pos := ps.any (fun p => p == .inf false)
    let neg := ps.any (fun p => p == .inf true)
    if pos && neg then .nan
    else if pos then .inf false
    else if neg then .inf true
    else match (ps.map expOfV).foldl maxExp none with
      | none => .fin (ps.all (fun p => p.neg?)) 0 0
      | some ex =>
        let q := ex - 47
        let t := (ps.map (truncUnits q)).foldl (· + ·) 0
        .fin (t < 0) t.natAbs (q + sh)

/-- R70, R71: the column result rounded to FP32, with its exception (R80, R86). -/
def dotFloat (fa fs : Nat) (xs ss : List Nat) (sa sb : Nat) : Nat × Exc :=
  let a := xs.map (elemVal fa sa)
  let b := ss.map (elemVal fs sb)
  let ps := List.zipWith mulV a b
  let v := sumProducts ps ((sa : Int) + sb - 254)
  finish fmtFP32 (rawOf (a.any (·.isNan) || b.any (·.isNan)) v)

/-- R73: the exact sum of INT8 products, as 32 bits. -/
def dotInt (xs ss : List Nat) : Nat :=
  ofSigned ((List.zipWith (fun x s => toSigned x 8 * toSigned s 8) xs ss).foldl (· + ·) 0) 32

/-- The column result of an element pair format (R62, R70, R73). -/
def dot (fa fs : Nat) (xs ss : List Nat) (sa sb : Nat) : Nat × Exc :=
  if fa == 3 then (dotInt xs ss, .none) else dotFloat fa fs xs ss sa sb

/-- R73: a saturating INT32 addition. -/
def addInt32 (a b : Nat) : Nat × Exc :=
  let s := toSigned a 32 + toSigned b 32
  if s > 2147483647 then (0x7FFFFFFF, .overflow)
  else if s < -2147483648 then (0x80000000, .overflow)
  else (ofSigned s 32, .none)

/-- R107: what an accumulator word becomes when a column result reaches it. -/
def accStore (old val : Nat) (exc : Exc) (add int : Bool) : Nat × Exc :=
  if !add then (val, exc)
  else if int then
    let r := addInt32 old val
    (r.1, excMerge exc r.2)
  else
    let r := finish fmtFP32 (rawAdd (f32 old) (f32 val))
    (r.1, excMerge exc r.2)

/-- One unit of an array that an operation works on: quadrant and rank (R160), first row, first column, width. -/
structure MUnit where
  q : Nat
  k : Nat
  rb : Nat
  cb : Nat
  w : Nat
  deriving DecidableEq, Repr

/-- R120, R123: the units an operation names: the whole array, or the quadrants of QSET in ascending order. -/
def unitsOf (qset : Nat) : List MUnit :=
  if qset == 0 then [⟨0, 0, 0, 0, 32⟩]
  else (bitsSet qset 4).mapIdx (fun k q => ⟨q, k, 16 * (q / 2), 16 * (q % 2), 16⟩)

/-- R103: the cycle in which vector i enters a pass's first column. -/
def entryAt (o : MatOp) (i : Nat) : Nat :=
  let e0 := o.issue + 8
  if o.f.fmt == 4 || o.f.fmt == 5 then e0 + 2 * i else if o.f.fmt == 2 then e0 + i / 2 else e0 + i

/-- R105: the cycles from a multiply to its accumulator write. -/
def mulDelay (fmt : Nat) : Nat := if fmt == 4 || fmt == 5 then 7 else 6

/-- R154: the number of vectors or rows an operation reads per unit. -/
def countOf (o : MatOp) (u : MUnit) : Nat := if o.isPass then o.f.nvec + 1 else u.w

/-- R154: the cycle in which vector or row i is read. -/
def readAt (o : MatOp) (u : MUnit) (i : Nat) : Nat :=
  let vb := u.w * fmtBits o.f.fmt / 8
  let m := i * vb / 256
  if o.f.rmode == 1 then (if o.isPass then entryAt o i - 8 else o.issue + i)
  else if o.f.rmode == 2 then o.issue + 4 * (i / 4)
  else if o.isPass then o.issue + (if u.w == 32 then 8 else 16) * m
  else if u.w == 32 then
    o.issue + (if fmtBits o.f.fmt == 16 then 4 else if fmtBits o.f.fmt == 4 then 16 else 8) * m
  else o.issue + 8 * m

/-- R218: a scratchpad byte address, modulo 2^21 words. -/
def spByte (b : Nat) : Nat := b % (8 * 2 ^ 21)

/-- R155, R160, R221: the first byte of vector or row i of a unit, for packed and strided operands. -/
def vecByte (o : MatOp) (u : MUnit) (i : Nat) : Nat :=
  let base := o.addr + u.k * o.qoff
  if o.f.rmode == 1 then spByte (8 * (base + i * o.stride))
  else spByte (8 * base + i * (u.w * fmtBits o.f.fmt / 8))

/-- The elements of vector or row i of a unit as the scratchpad holds them now. -/
def vecRead (sp : Mem) (o : MatOp) (u : MUnit) (i : Nat) : List Nat :=
  if o.f.rmode == 2 then
    (List.range u.w).map (fun r =>
      leNat (memReadN sp (spByte (8 * (o.addr + i / 4 + 32 * r) + 2 * (i % 4))) 2))
  else elemsOf o.f.fmt (memReadN sp (vecByte o u i) (u.w * fmtBits o.f.fmt / 8))

/-- R155, R160: the scale bytes of a unit. -/
def scaleRead (sp : Mem) (o : MatOp) (u : MUnit) : List Nat :=
  (memReadN sp (spByte (8 * (o.saddr + 8 * u.k))) (countOf o u)).map (·.toNat)

/-- R216: the quarter of a scratchpad byte. -/
def quarterOf (byteAddr : Nat) : Nat := byteAddr / 8 / 1024 / 96

/-- R154: the reads an operation makes in cycle τ. -/
def readStep (sp : Mem) (τ : Nat) (o : MatOp) : MatOp :=
  (unitsOf o.f.qset).foldl (fun o u =>
    let o := if o.f.scaled && τ == o.issue then { o with scales := (u.q, scaleRead sp o u) :: o.scales } else o
    let is := (List.range (countOf o u)).filter (fun i => readAt o u i == τ)
    is.foldl (fun o i => { o with data := (64 * u.q + i, vecRead sp o u i) :: o.data }) o) o

/-- R218: the scratchpad words in which n bytes from a byte address lie. -/
def wordsIn (b n : Nat) : List Nat :=
  (List.range ((b % 8 + n + 7) / 8)).map (fun k => (b / 8 + k) % 2 ^ 21)

/-- R154, R155, R160: the scratchpad words that an operation reads in cycle τ, its scales among them. -/
def readWords (τ : Nat) (o : MatOp) : List Nat :=
  ((unitsOf o.f.qset).flatMap (fun u =>
    (if o.f.scaled && τ == o.issue then wordsIn (8 * (o.saddr + 8 * u.k)) (countOf o u) else [])
    ++ ((List.range (countOf o u)).filter (fun i => readAt o u i == τ)).flatMap (fun i =>
      if o.f.rmode == 2 then (List.range u.w).map (fun r => (o.addr + i / 4 + 32 * r) % 2 ^ 21)
      else wordsIn (vecByte o u i) (u.w * fmtBits o.f.fmt / 8)))).eraseDups

/-- The scale code of index j of a unit: 0x7F for a bare operand (R63). -/
def scaleOf (o : MatOp) (q j : Nat) : Nat :=
  if o.f.scaled then nth ((tblGet o.scales q).getD []) j 0 else 0x7F

/-- The captured elements of vector or row i of a unit. -/
def dataOf (o : MatOp) (q i : Nat) : List Nat := (tblGet o.data (64 * q + i)).getD []

/-- The halves of a column that a unit covers. -/
def halvesOf (u : MUnit) : List Nat := if u.w == 32 then [0, 1] else [u.rb / 16]

/-- A register half column, zero where nothing has been written. -/
def halfCol (t : Tbl HalfCol) (h col : Nat) : HalfCol := (tblGet t (32 * h + col)).getD {}

/-- R114: the marker reaches local column j: shadow to active. -/
def markerCol (a : MArray) (u : MUnit) (j : Nat) : MArray :=
  (halvesOf u).foldl (fun a h =>
    let key := 32 * h + u.cb + j
    { a with active := tblPut a.active key (halfCol a.shadow h (u.cb + j)) }) a

/-- R114, R117: the markers of an operation in cycle τ. -/
def markerStep (τ : Nat) (o : MatOp) (a : MArray) : MArray :=
  if o.isPass && o.f.swap then
    (unitsOf o.f.qset).foldl (fun a u =>
      let a := if τ == o.issue + 8 then { a with shadowState := tblPut a.shadowState u.q .free } else a
      if o.issue + 8 ≤ τ && τ < o.issue + 8 + u.w then markerCol a u (τ - (o.issue + 8)) else a) a
  else a

/-- R112: row r enters the shadow registers of local column j; the scale and format enter with row 0. -/
def shadowCell (a : MArray) (o : MatOp) (u : MUnit) (r j : Nat) : MArray :=
  let row := u.rb + r
  let put (a : MArray) (h : Nat) (f : HalfCol → HalfCol) : MArray :=
    { a with shadow := tblPut a.shadow (32 * h + u.cb + j) (f (halfCol a.shadow h (u.cb + j))) }
  let a := if r == 0 then
      (halvesOf u).foldl (fun a h => put a h (fun x => { x with fmt := o.f.fmt, scale := scaleOf o u.q j })) a
    else a
  put a (row / 16) (fun x =>
    let l := x.elems ++ List.replicate (16 - x.elems.length) 0
    { x with elems := l.set (row % 16) (nth (dataOf o u.q r) j 0) })

/-- R112, R117: the shadow writes of an operation in cycle τ. -/
def shadowStep (τ : Nat) (o : MatOp) (a : MArray) : MArray :=
  if o.isPass then a
  else
    let l0 := o.issue + 9
    (unitsOf o.f.qset).foldl (fun a u =>
      let a := if τ == l0 then { a with shadowState := tblPut a.shadowState u.q .loading } else a
      let a := (List.range u.w).foldl (fun a j =>
        if l0 + j ≤ τ && τ < l0 + j + u.w then shadowCell a o u (τ - l0 - j) j else a) a
      if τ == l0 + u.w - 1 then { a with shadowState := tblPut a.shadowState u.q .full } else a) a

/-- R96: the stationary elements of local column j of a unit, with their format and scale. -/
def colOf (a : MArray) (u : MUnit) (j : Nat) : List Nat × Nat × Nat :=
  let hs := halvesOf u
  let get (h : Nat) := halfCol a.active h (u.cb + j)
  let es := hs.flatMap (fun h => let l := (get h).elems; l ++ List.replicate (16 - l.length) 0)
  let first := get (nth hs 0 0)
  (es, first.fmt, first.scale)

/-- R107, R108: the accumulator word of vector i and local column j. -/
def accKey (o : MatOp) (u : MUnit) (i j : Nat) : Nat :=
  let r := o.f.row + i
  let bank := if r < 32 then o.f.bank else 1 - o.f.bank
  1024 * bank + 32 * (r % 32) + u.cb + j

/-- R104, R105: the multiplies of an operation in cycle τ, each as a write due D cycles later. -/
def mulStep (τ : Nat) (o : MatOp) (a : MArray) : List (Nat × Due) :=
  if !o.isPass then []
  else (unitsOf o.f.qset).flatMap (fun u =>
    (List.range (o.f.nvec + 1)).flatMap (fun i =>
      let en := entryAt o i
      if en ≤ τ && τ < en + u.w then
        let j := τ - en
        let c := colOf a u j
        let r := dot o.f.fmt c.2.1 (dataOf o u.q i) c.1 (scaleOf o u.q i) c.2.2
        [(τ + mulDelay o.f.fmt, Due.acc o.f.array (accKey o u i j) r.1 r.2 o.f.add (o.f.fmt == 3))]
      else []))

/-- The last cycle in which an operation still acts. -/
def lastCycle (o : MatOp) : Nat :=
  let w := if o.f.qset == 0 then 32 else 16
  if o.isPass then entryAt o o.f.nvec + w else o.issue + 9 + 2 * w

/-- Whether a unit covers a cell of its array. -/
def MUnit.has (u : MUnit) (row col : Nat) : Bool :=
  decide (u.rb ≤ row) && decide (row < u.rb + u.w) && decide (u.cb ≤ col) && decide (col < u.cb + u.w)

/-- R137: whether a swap marker reaches a stationary cell of an array in cycle τ. -/
def swapHits (τ : Nat) (ops : List MatOp) (a row col : Nat) : Bool :=
  ops.any (fun o => o.isPass && o.f.swap && o.f.array == a && (unitsOf o.f.qset).any (fun u =>
    u.has row col && τ == o.issue + 8 + (col - u.cb)))

/-- R137: whether a multiply of cycle τ uses a stationary cell of an array. -/
def mulHits (τ : Nat) (ops : List MatOp) (a row col : Nat) : Bool :=
  ops.any (fun o => o.isPass && o.f.array == a && (unitsOf o.f.qset).any (fun u =>
    u.has row col && (List.range (o.f.nvec + 1)).any (fun i => τ == entryAt o i + (col - u.cb))))

/-- R112: whether a load writes a shadow cell of an array in cycle τ, or the scale that comes with its first row. -/
def loadHits (τ : Nat) (ops : List MatOp) (scale : Bool) (a row col : Nat) : Bool :=
  ops.any (fun o => !o.isPass && o.f.array == a && (unitsOf o.f.qset).any (fun u =>
    u.has row col && τ == o.issue + 9 + (col - u.cb) + (if scale then 0 else row - u.rb)))

/-- The operations of a core whose arrays work. -/
def awakeOps (c : Core) : List MatOp := c.ops.filter (fun o => (c.array o.f.array).power == .awake)

/-- R137: the parity error that the swaps and multiplies of cycle τ find. A register that the marker overwrites in that cycle
is not read there any more. A scale is checked with its half column. -/
def matFault (τ : Nat) (c : Core) : Option CoreFault :=
  let ops := awakeOps c
  let found (shadow : Bool) (a row col : Nat) : Bool :=
    if shadow then swapHits τ ops a row col else !swapHits τ ops a row col && mulHits τ ops a row col
  c.upsets.findSome? (fun u => match u with
    | .reg sh a row col => if found sh a row col then some { cause := 1, array := a } else none
    | .scale sh a half col => if found sh a (16 * half) col then some { cause := 1, array := a } else none
    | _ => none)

/-- R540: what the markers and loads of cycle τ overwrite. -/
def matHeal (τ : Nat) (c : Core) : Core :=
  let ops := awakeOps c
  c.heal (fun u => match u with
    | .reg sh a row col => if sh then loadHits τ ops false a row col else swapHits τ ops a row col
    | .scale true a half col => loadHits τ ops true a (16 * half) col
    | .scale false a half col => swapHits τ ops a (16 * half) col
    | _ => false)

/-- What every matrix operation in progress does in plan cycle τ (R102 to R116): reads, then swap markers, then
shadow rows, then multiplies. -/
def matrixCycle (τ : Nat) (c : Core) : Core :=
  let ops := c.ops.map (readStep c.sp τ)
  let c := matHeal τ c
  let on (o : MatOp) (c : Core) : Bool := (c.array o.f.array).power == .awake
  let c := ops.foldl (fun c o =>
    if on o c then c.setArray o.f.array (markerStep τ o (c.array o.f.array)) else c) c
  let c := ops.foldl (fun c o =>
    if on o c then c.setArray o.f.array (shadowStep τ o (c.array o.f.array)) else c) c
  let new := ops.flatMap (fun o => if on o c then mulStep τ o (c.array o.f.array) else [])
  { c with ops := ops.filter (fun o => τ < lastCycle o), due := c.due ++ new }

/-- R125: a mode change clears the registers and scales of the array and keeps its accumulators. DESIGN CHOICE (log entry
61): an `mm.mode` that names the mode the array is in clears them too. -/
def modeChange (a : MArray) (quarter : Bool) : MArray :=
  { a with quarter := quarter, active := [], shadow := [], shadowState := [] }

/-- R129: an array that becomes OFF reads zero in registers, scales and accumulators. -/
def arrayOff : MArray := {}

/-- R130: the writes due for a wake of the named arrays at plan cycle t: the k-th begins at t + 8k and is AWAKE from
t + 8k + 16. -/
def wakeDue (t mask : Nat) : List (Nat × Due) :=
  (bitsSet mask 12).mapIdx (fun k a => (t + 8 * k + 15, Due.awake a))

end Sys2Proof.Machine
end

