-- ==== Sys2Proof/Machine/Trans.lean ====
section
/-! DEFINITION. The bounds of R205 (05) for the functions whose exact results are no fractions: 2^a, log2 a, tanh a and
1 / (1 + e^−a). Each is enclosed between two fractions far closer to each other than a binary32 unit, and the result is one
of the codes within 2 units of the exact one, chosen by a free value of Config (log entry 11). -/

namespace Sys2Proof.Machine

/-- Fixed-point numbers of this file count units of 2^−192. -/
def fixOne : Nat := 2 ^ 192

/-- ln 2 and log2 e in such units, rounded down. -/
def fixLn2 : Nat := 4350955369971217654477563090224794165364344896676135745069
def fixLog2e : Nat := 9055943544797870567083544809312461607371518589544137143473

/-- The terms of the exponential series of t from term k on, n of them. -/
def expTerms : Nat → Nat → Nat → Nat → Nat
  | 0, _, _, _ => 0
  | n + 1, k, term, t => term + expTerms n (k + 1) (term * t / fixOne / (k + 1)) t

/-- 2^f for a fraction f, to within 2^10 units. -/
def exp2Fix (f : Nat) : Nat := expTerms 48 0 fixOne (f * fixLn2 / fixOne)

/-- The terms of z + z³/3 + z⁵/5 + … from the one of power 2 k + 1 on, n of them. -/
def athTerms : Nat → Nat → Nat → Nat → Nat
  | 0, _, _, _ => 0
  | n + 1, k, pow, zz => pow / (2 * k + 1) + athTerms n (k + 1) (pow * zz / fixOne) zz

/-- log2 of a fraction n / d between 1 and √2, to within 2^10 units. -/
def log2Fix (n d : Nat) : Nat :=
  let z := (n - d) * fixOne / (n + d)
  2 * athTerms 40 0 z (z * z / fixOne) * fixLog2e / fixOne

/-- m × 2^e in fixed point, rounded down. -/
def toFix (m : Nat) (e : Int) : Nat := if 0 ≤ e then m * 2 ^ e.toNat * fixOne else m * fixOne / 2 ^ (-e).toNat

/-- e^y for a y between 0 and 256 in fixed point: the value and how far it may be off. -/
def expFix (y : Nat) : Nat × Nat :=
  let u := y * fixLog2e / fixOne
  (exp2Fix (u % fixOne) * 2 ^ (u / fixOne), 2 ^ (u / fixOne + 12))

/-- R205: the codes within 2 units in the last place of an exact result that lies between lo × 2^q and hi × 2^q, the unit
taken at the exact result, in ascending order. -/
def within2 (lo hi : Nat) (q : Int) : List Nat :=
  let u : Int := max (Nat.log2 lo + q - 23) (-149)
  let near := (finish fmtFP32 (exact (.fin false lo q))).1
  let slack : FVal := .fin false 2 u
  ((List.range 11).filterMap (fun k => if 5 ≤ near + k then some (near + k - 5) else none)).filter (fun c =>
    (f32 c).isFin && decide (c < 2 ^ 31) && decide (0 ≤ cmpV (addV (f32 c) slack) (.fin false lo q))
      && decide (cmpV (f32 c) (addV (.fin false hi q) slack) ≤ 0))

/-- The code that a free value chooses among those within the bound. -/
def choose2 (choice lo hi : Nat) (q : Int) : Nat :=
  let l := within2 lo hi q
  nth l (choice % max l.length 1) (finish fmtFP32 (exact (.fin false lo q))).1

/-- 2^a for a = ±m × 2^e that is no integer. -/
def exp2Code (choice : Nat) (neg : Bool) (m : Nat) (e : Int) : Nat :=
  let x := min (toFix m e) (400 * fixOne)
  let v := if neg then (fixOne - x % fixOne) % fixOne else x % fixOne
  let i : Int := if neg then -((x + fixOne - 1) / fixOne : Nat) else (x / fixOne : Nat)
  let r := exp2Fix v
  choose2 choice (r - 2 ^ 12) (r + 2 ^ 12) (i - 192)

/-- log2 of m × 2^e that is no power of two, with its sign. -/
def log2Code (choice m : Nat) (e : Int) : Nat :=
  let k := Nat.log2 m
  let up := decide (2 ^ (2 * k + 1) < m * m)
  let w : Int := if up then -(log2Fix (2 ^ (k + 1)) m : Nat) else (log2Fix m (2 ^ k) : Nat)
  let t : Int := ((if up then (k + 1 : Int) else k) + e) * (fixOne : Int) + w
  let c := choose2 choice (t.natAbs - 2 ^ 12) (t.natAbs + 2 ^ 12) (-192)
  if t < 0 then 2 ^ 31 + c else c

/-- tanh of m × 2^e, m not 0. -/
def tanhCode (choice m : Nat) (e : Int) : Nat :=
  if m * 4096 < 2 ^ (-e).toNat then
    -- below 2^−12: between a − a³/3 and a − a³/3 + 2 a⁵/15
    let k := (-e).toNat
    let n := 15 * m * 2 ^ (4 * k) - 5 * m ^ 3 * 2 ^ (2 * k)
    choose2 choice (n * 2 ^ 64 / 15) ((n + 2 * m ^ 5) * 2 ^ 64 / 15 + 1) (5 * e - 64)
  else
    let x := expFix (min (2 * toFix m e) (64 * fixOne))
    choose2 choice ((x.1 - x.2 - fixOne) * fixOne / (x.1 - x.2 + fixOne)) ((x.1 + x.2 - fixOne) * fixOne / (x.1 + x.2 + fixOne) + 1)
      (-192)

/-- 1 / (1 + e^−a) for a = ±m × 2^e. -/
def sigmCode (choice : Nat) (neg : Bool) (m : Nat) (e : Int) : Nat :=
  let x := expFix (min (toFix m e) ((if neg then 200 else 64) * fixOne))
  if m = 0 then choose2 choice 1 1 (-1)
  else if neg then choose2 choice (fixOne * 2 ^ 512 / (x.1 + x.2 + fixOne)) (fixOne * 2 ^ 512 / (x.1 - x.2 + fixOne) + 1) (-512)
  else choose2 choice ((x.1 - x.2) * fixOne / (x.1 - x.2 + fixOne)) ((x.1 + x.2) * fixOne / (x.1 + x.2 + fixOne) + 1) (-192)

end Sys2Proof.Machine
end

