-- ==== Sys2Proof/Machine/VectorEng.lean ====
section
/-! DEFINITION. The vector engine of one core (05): lanes, masks, every operation of R201, loads and stores. -/

namespace Sys2Proof.Machine

/-- R191, R192: the bits of a lane at a width. -/
def laneBits (width : Nat) : Nat := if width == 0 then 32 else 16

/-- R191: the number of lanes at a width. -/
def lanes (width : Nat) : Nat := if width == 0 then 128 else 256

/-- R191: lane i of a register. -/
def laneOf (reg width i : Nat) : Nat := reg / 2 ^ (laneBits width * i) % 2 ^ laneBits width

/-- R192: the format of a lane. -/
def laneFmt (width : Nat) : Fmt := if width == 0 then fmtFP32 else fmtBF16

/-- R197: bit i of the mask a destination or an instruction uses at a width: the register itself, or at BF16 width
the even and odd pair. -/
def maskBit (c : Core) (width m i : Nat) : Bool :=
  if width == 0 then bit (c.mreg m) i else bit (c.mreg (m + i / 128)) (i % 128)

/-- R197: whether a lane is active. -/
def laneActive (c : Core) (f : VecF) (i : Nat) : Bool := !f.men || maskBit c f.width f.mreg i

/-- R195: the key of the accumulator word that lane i reads. -/
def accLaneKey (f : VecF) (i : Nat) : Nat := 1024 * f.bank + 32 * (4 * f.rq + i / 32) + i % 32

/-- Operand A of lane i: an accumulator word (R195) or a lane of VA. -/
def opA (c : Core) (f : VecF) (i : Nat) : Nat :=
  if f.acc then (tblGet (c.array f.array).acc (accLaneKey f i)).getD 0 else laneOf (c.vreg f.va) f.width i

/-- Operand B of lane i. -/
def opB (c : Core) (f : VecF) (i : Nat) : Nat := laneOf (c.vreg f.vb) f.width i

/-- Operand C of lane i. -/
def opC (c : Core) (f : VecF) (i : Nat) : Nat := laneOf (c.vreg f.vc) f.width i

/-- A write of fields of w bits: mask and value, from the values of the fields that are written. -/
def packFields (w : Nat) (l : List (Option Nat)) : Nat × Nat :=
  (l.foldl (fun (a : Nat × Nat × Nat) x =>
    match x with
    | some v => (a.1 + 1, a.2.1 + (2 ^ w - 1) * 2 ^ (w * a.1), a.2.2 + v % 2 ^ w * 2 ^ (w * a.1))
    | none => (a.1 + 1, a.2.1, a.2.2)) (0, 0, 0)).2

/-- R194: replaces the bits of `old` under a mask by those of a value. -/
def mergeBits (old mask val : Nat) : Nat := (old - (old &&& mask)) + (val &&& mask)

/-- R87: counts of the four exceptions. -/
abbrev ExcCount := List Nat

/-- R86: the counts of a list of exceptions, in the order INVALID, DIVZERO, OVERFLOW, UNDERFLOW. -/
def countExc (l : List Exc) : ExcCount :=
  [l.count .invalid, l.count .divzero, l.count .overflow, l.count .underflow]

/-- Sums two exception counts. -/
def addExc (a b : ExcCount) : ExcCount := List.zipWith (· + ·) a b

/-- No exceptions. -/
def noExc : ExcCount := [0, 0, 0, 0]

/-- R198: what is written to a lane of w bits: its result if active, zero or nothing if not. -/
def maskedLane (c : Core) (f : VecF) (r : Nat → Nat × Exc) (i : Nat) : Option Nat × Exc :=
  if laneActive c f i then let x := r i; (some x.1, x.2) else (if f.zero then some 0 else none, .none)

/-- What a vector instruction leaves: the writes (register, mask, value; a mask register when `toMask`), counted
exceptions, and the generators after it. -/
structure VecOut where
  writes : List (Bool × Nat × Nat × Nat) := []
  exc : ExcCount := noExc
  rng : Option (List Word) := none
  deriving DecidableEq, Repr

/-- A lane-by-lane result into VD. -/
def laneWise (c : Core) (f : VecF) (r : Nat → Nat × Exc) : VecOut :=
  let rs := (List.range (lanes f.width)).map (maskedLane c f r)
  let p := packFields (laneBits f.width) (rs.map (·.1))
  { writes := [(false, f.vd, p.1, p.2)], exc := countExc (rs.map (·.2)) }

/-- R74: a lane's arithmetic result. -/
def arith (f : VecF) (r : Raw) : Nat × Exc := finish (laneFmt f.width) r

/-- R203: the sign bit of a lane cleared, or the canonical NaN. -/
def absLane (width x : Nat) : Nat :=
  let fm := laneFmt width
  if (decodeF fm x).isNan then fm.nanCode else x % 2 ^ (fm.width - 1)

/-- R203: the sign bit of a lane inverted, or the canonical NaN. -/
def negLane (width x : Nat) : Nat :=
  let fm := laneFmt width
  if (decodeF fm x).isNan then fm.nanCode else x ^^^ 2 ^ (fm.width - 1)

/-- R81, R201: the comparison COND of two lanes. -/
def cmpLane (width cond a b : Nat) : Bool :=
  let x := decodeF (laneFmt width) a
  let y := decodeF (laneFmt width) b
  if x.isNan || y.isNan then cond == 1
  else
    let o := cmpV x y
    if cond == 0 then o == 0 else if cond == 1 then o != 0 else if cond == 2 then o < 0
    else if cond == 3 then o ≤ 0 else if cond == 4 then o > 0 else o ≥ 0

/-- The key and bit of a mask destination at a width (R199). -/
def maskWrites (width md : Nat) (l : List (Option Nat)) : List (Bool × Nat × Nat × Nat) :=
  if width == 0 then let p := packFields 1 l; [(true, md, p.1, p.2)]
  else
    let a := packFields 1 (l.take 128)
    let b := packFields 1 (l.drop 128)
    [(true, md, a.1, a.2), (true, md + 1, b.1, b.2)]

/-- R205: whether a finite value is an integer, and which. -/
def intOf : FVal → Option Int
  | .fin neg m e =>
    if e ≥ 0 then let n : Int := (m * 2 ^ e.toNat : Nat); some (if neg then -n else n)
    else if m % 2 ^ (-e).toNat == 0 then let n : Int := (m / 2 ^ (-e).toNat : Nat); some (if neg then -n else n)
    else none
  | _ => none

/-- R205: log2 of a finite positive power of two. -/
def pow2Of : FVal → Option Int
  | .fin false m e => if m != 0 && m == 2 ^ (Nat.log2 m) then some (Nat.log2 m + e) else none
  | _ => none

/-- R86: the exception of an FP32 code that a function returned for a finite operand. -/
def codeExc (c : Nat) : Exc :=
  match f32 c with
  | .inf _ => .overflow
  | .fin _ 0 _ => .underflow
  | _ => .none

/-- R205: `vx.exp2` of an FP32 code. -/
def tExp2 (a : Nat) : Nat × Exc :=
  match f32 a with
  | .nan => (fmtFP32.nanCode, .none)
  | .inf neg => (if neg then 0 else 0x7F800000, .none)
  | .fin n m e =>
    match intOf (.fin n m e) with
    | some k => if k > 200 then (0x7F800000, .overflow) else if k < -200 then (0, .underflow)
      else finish fmtFP32 (exact (.fin false 1 k))
    | none =>
      if !n && cmpV (.fin n m e) (.fin false 128 0) > 0 then (0x7F800000, .overflow)
      else let r := exp2Code (Config.exp2Choice (BitVec.ofNat 32 a)) n m e; (r, codeExc r)

/-- R205: `vx.log2` of an FP32 code. -/
def tLog2 (a : Nat) : Nat × Exc :=
  match f32 a with
  | .nan => (fmtFP32.nanCode, .none)
  | .inf neg => if neg then (fmtFP32.nanCode, .invalid) else (0x7F800000, .none)
  | .fin n m e =>
    if m == 0 then (0xFF800000, .divzero)
    else if n then (fmtFP32.nanCode, .invalid)
    else match pow2Of (.fin n m e) with
      | some k => finish fmtFP32 (exact (ofInt k))
      | none => (log2Code (Config.log2Choice (BitVec.ofNat 32 a)) m e, .none)

/-- R205: the codes within 1 unit in the last place of a quotient or root of magnitude r, the unit taken at the exact
result, in ascending order. A truncated r is compared through its sticky bit. -/
def within1 (r : Raw) : List Nat :=
  match absV r.v with
  | .fin _ m e =>
    let u : Int := max (expOf m e - 23) (-149)
    let near := (roundArith fmtFP32 r.sticky (.fin false m e)).1
    let one : FVal := .fin false 1 u
    ((List.range 7).filterMap (fun k => if 3 ≤ near + k then some (near + k - 3) else none)).filter (fun c =>
      (f32 c).isFin && decide (c < 2 ^ 31) && decide (cmpV (f32 c) (addV (.fin false m e) one) ≤ 0)
        && (let o := cmpV (addV (f32 c) one) (.fin false m e); decide (0 < o) || (o == 0 && !r.sticky)))
  | _ => []

/-- R205: the result that a free value chooses among those within the bound. -/
def choose1 (choice : Nat) (r : Raw) : Nat × Exc :=
  let near := finish fmtFP32 r
  let l := within1 r
  if !(f32 near.1).isFin || l.isEmpty then near
  else
    let c := nth l (choice % l.length) near.1
    let res := signCode fmtFP32 (r.v.neg?) c
    (res, codeExc res)

/-- R205: `vx.rcp` of an FP32 code. -/
def tRcp (a : Nat) : Nat × Exc :=
  match f32 a with
  | .fin n m e =>
    if m == 0 then (signCode fmtFP32 n 0x7F800000, .divzero)
    else choose1 (Config.rcpChoice (BitVec.ofNat 32 a)) (rawDiv (.fin false 1 0) (.fin n m e))
  | .inf n => (signCode fmtFP32 n 0, .none)
  | .nan => (fmtFP32.nanCode, .none)

/-- R205: 1/√a exactly enough to round: the quotient of 1 by a root of at least 64 bits. -/
def rawRsqrt (m : Nat) (e : Int) : Raw :=
  let k := 260 + ((e % 2).toNat)
  let r := isqrt (m * 2 ^ k)
  let q := rawDiv (.fin false 1 0) (.fin false r ((e - k) / 2))
  { q with sticky := q.sticky || r * r != m * 2 ^ k }

/-- R205: `vx.rsqrt` of an FP32 code. -/
def tRsqrt (a : Nat) : Nat × Exc :=
  match f32 a with
  | .nan => (fmtFP32.nanCode, .none)
  | .inf neg => if neg then (fmtFP32.nanCode, .invalid) else (0, .none)
  | .fin n m e =>
    if m == 0 then (signCode fmtFP32 n 0x7F800000, .divzero)
    else if n then (fmtFP32.nanCode, .invalid)
    else choose1 (Config.rsqrtChoice (BitVec.ofNat 32 a)) (rawRsqrt m e)

/-- R205: `vx.sqrt` of an FP32 code, correctly rounded. -/
def tSqrt (a : Nat) : Nat × Exc := finish fmtFP32 (rawSqrt (f32 a))

/-- R205: `vx.tanh` of an FP32 code. -/
def tTanh (a : Nat) : Nat × Exc :=
  match f32 a with
  | .nan => (fmtFP32.nanCode, .none)
  | .inf n => (signCode fmtFP32 n 0x3F800000, .none)
  | .fin n m e =>
    if m == 0 then (a, .none)
    else let r := signCode fmtFP32 n (tanhCode (Config.tanhChoice (BitVec.ofNat 32 a)) m e); (r, codeExc r)

/-- R205: `vx.sigm` of an FP32 code. -/
def tSigm (a : Nat) : Nat × Exc :=
  match f32 a with
  | .nan => (fmtFP32.nanCode, .none)
  | .inf n => (if n then 0 else 0x3F800000, .none)
  | .fin n m e => let r := sigmCode (Config.sigmChoice (BitVec.ofNat 32 a)) n m e; (r, codeExc r)

/-- R74, R205: a transcendental at a width: BF16 lanes compute in FP32 and round once. -/
def transLane (width : Nat) (t : Nat → Nat × Exc) (x : Nat) : Nat × Exc :=
  if width == 0 then t x
  else
    let r := t (to32 (exact (decodeF fmtBF16 x)))
    let n := finish fmtBF16 (exact (f32 r.1))
    (n.1, excMerge r.2 n.2)

/-- R204: the value a lane contributes to a group reduction, none when it takes no part. -/
def gLane (c : Core) (f : VecF) (sum : Bool) (i : Nat) : Option (Nat × Exc) :=
  if laneActive c f i then some (opA c f i, .none) else if sum then some (0, .none) else none

/-- R79: an FP32 code with the canonical NaN for every NaN. -/
def canon32 (a : Nat) : Nat := if (f32 a).isNan then fmtFP32.nanCode else a

/-- R79, R204: one node of a reduction tree; a lone operand passes it unrounded. -/
def gNode (op : VOp) : Option (Nat × Exc) → Option (Nat × Exc) → Option (Nat × Exc)
  | some a, some b =>
    let r := match op with
      | .gsum => finish fmtFP32 (rawAdd (f32 a.1) (f32 b.1))
      | .gmax => finish fmtFP32 (rawMax (f32 a.1) (f32 b.1))
      | _ => finish fmtFP32 (rawMin (f32 a.1) (f32 b.1))
    some (r.1, excMerge a.2 (excMerge b.2 r.2))
  | some a, none | none, some a => some (canon32 a.1, a.2)
  | none, none => none

/-- R204: a group reduction. -/
def groupOp (c : Core) (f : VecF) (op : VOp) : VecOut :=
  let g := if f.gs == 0 then 32 else 16
  let groups := (List.range (128 / g)).map (fun k =>
    treeFold (gNode op) none 8 ((List.range g).map (fun i => gLane c f (op == .gsum) (g * k + i))))
  let res (k : Nat) : Nat × Exc := (nth groups k none).getD (0, .none)
  let o := laneWise c f (fun i => ((res (i / g)).1, .none))
  let used := (List.range (128 / g)).filter (fun k => (List.range g).any (fun i => laneActive c f (g * k + i)))
  { o with exc := countExc (used.map (fun k => (res k).2)) }

/-- R206: the floating-point layout of a format code of `vx.cvt` (INT8 and INT32 are not ones). -/
def cvtFmt (code : Nat) : Fmt :=
  if code == 0 then fmtFP32 else if code == 1 then fmtBF16 else if code == 2 then fmtFP16
  else if code == 3 then fmtE4M3 else if code == 4 then fmtE5M2 else if code == 5 then fmtUE5M3 else fmtE2M1

/-- R206: the bytes of an element of a format code. -/
def cvtBytes (code : Nat) : Nat := if code == 0 || code == 7 then 4 else if code == 1 || code == 2 then 2 else 1

/-- The exact value of a source code of `vx.cvt`. -/
def cvtVal (sf x : Nat) : FVal :=
  if sf == 6 then ofInt (toSigned x 8) else if sf == 7 then ofInt (toSigned x 32) else decodeF (cvtFmt sf) x

/-- R78: one step of a generator, in 32-bit arithmetic. -/
def rngStep (s : Word) : Word :=
  let a := s ^^^ (s <<< 13)
  let b := a ^^^ (a >>> 17)
  b ^^^ (b <<< 5)

/-- R78: the 16 random bits after a step. -/
def rng16 (s : Word) : Nat := (s >>> 16).toNat

/-- R78: the initial state of the generator of lane i on logical core lc for a seed and a segment index. -/
def rngInit (seed : Word) (seg lc i : Nat) : Word :=
  let s := (seed + BitVec.ofNat 32 seg) ^^^ (BitVec.ofNat 32 (lc * 0x9E3779B9)) ^^^ (BitVec.ofNat 32 ((i + 1) * 0x85EBCA6B))
  if s == 0 then 1 else s

/-- R206: one converted element, under the random bits r when SR is set. -/
def cvtElem (f : VecF) (r : Nat) (x : Nat) : Nat × Exc :=
  let v := cvtVal f.sf x
  if f.tf == 6 then narrowInt8 v
  else if cvtBytes f.tf < cvtBytes f.sf || (f.width == 1 && f.tf != 1) then
    (if f.sf == 7 then (to32 (exact v), .none)
     else if f.sr then narrowSr (cvtFmt f.tf) f.nsat r v else narrowRne (cvtFmt f.tf) f.nsat v)
  else ((finish (cvtFmt f.tf) (exact v)).1, .none)

/-- R206, R207: a conversion. The packed side has the narrower elements; a narrowing conversion writes only its part
of VD, a widening one reads only its part of VA. -/
def cvtOp (c : Core) (f : VecF) : VecOut :=
  let n := lanes f.width
  let full := laneBits f.width
  let narrowing := cvtBytes f.tf * 8 < full
  let sb := cvtBytes f.sf * 8
  let src (i : Nat) : Nat :=
    if f.acc then opA c f i
    else if sb < full then c.vreg f.va / 2 ^ (n * sb * f.part + sb * i) % 2 ^ sb
    else laneOf (c.vreg f.va) f.width i
  let gen (i : Nat) : Word := rngStep (nth c.rng i 0)
  let rs := (List.range n).map (fun i => maskedLane c f (fun i => cvtElem f (rng16 (gen i)) (src i)) i)
  let w := if narrowing then cvtBytes f.tf * 8 else full
  let p := packFields w (rs.map (·.1))
  let sh := if narrowing then n * w * f.part else 0
  { writes := [(false, f.vd, p.1 * 2 ^ sh, p.2 * 2 ^ sh)],
    exc := countExc (rs.map (·.2)),
    rng := if f.sr then some (c.rng.mapIdx (fun i s => if i < n && laneActive c f i then rngStep s else s)) else none }

/-- R208: block quantization into part PART of VD and four scale bytes of VB. -/
def qmxOp (c : Core) (f : VecF) : VecOut :=
  let w := if f.tf == 8 then 4 else 8
  let bs := (List.range 4).map (fun k =>
    quantBlock (cvtFmt f.tf) ((List.range 32).map (fun i => f32 (opA c f (32 * k + i)))))
  let es := packFields w ((bs.flatMap (·.2.1)).map some)
  let ss := packFields 8 (bs.map (fun b => some b.1))
  let eo := 128 * w * f.part
  let so := 32 * f.spos
  let e := (false, f.vd, es.1 * 2 ^ eo, es.2 * 2 ^ eo)
  let s := (false, f.vb, ss.1 * 2 ^ so, ss.2 * 2 ^ so)
  { writes := [e, s], exc := countExc (bs.flatMap (·.2.2)) }

/-- R209: block dequantization. -/
def dqmxOp (c : Core) (f : VecF) : VecOut :=
  let w := if f.sf == 8 then 4 else 8
  laneWise c f (fun i =>
    let el := c.vreg f.va / 2 ^ (128 * w * f.part + w * i) % 2 ^ w
    let sc := c.vreg f.vb / 2 ^ (32 * f.spos + 8 * (i / 32)) % 256
    finish fmtFP32 (exact (scaled (decodeF (cvtFmt f.sf) el) sc)))

/-- R201: a mask instruction on 128 bits. -/
def maskOp (c : Core) (f : VecF) (op : Nat → Nat → Nat) : VecOut :=
  { writes := [(true, f.vd % 8, 2 ^ 128 - 1, op (c.mreg (f.va % 8)) (c.mreg (f.vb % 8)))] }

/-- R201: what each vector operation leaves, its operands read now (R193). -/
def vecOp (c : Core) (op : VOp) (f : VecF) : VecOut :=
  let fm := laneFmt f.width
  let a (i : Nat) := decodeF fm (opA c f i)
  let b (i : Nat) := decodeF fm (opB c f i)
  let d (i : Nat) := decodeF fm (opC c f i)
  match op with
  | .add => laneWise c f (fun i => arith f (rawAdd (a i) (b i)))
  | .sub => laneWise c f (fun i => arith f (rawAdd (a i) (negV (b i))))
  | .mul => laneWise c f (fun i => arith f (rawMul (a i) (b i)))
  | .fma => laneWise c f (fun i =>
      arith f (rawFma (if f.negp then negV (a i) else a i) (b i) (if f.negc then negV (d i) else d i)))
  | .min => laneWise c f (fun i => arith f (rawMin (a i) (b i)))
  | .max => laneWise c f (fun i => arith f (rawMax (a i) (b i)))
  | .mov => laneWise c f (fun i => (opA c f i, .none))
  | .abs => laneWise c f (fun i => (absLane f.width (opA c f i), .none))
  | .neg => laneWise c f (fun i => (negLane f.width (opA c f i), .none))
  | .cmp =>
    { writes := maskWrites f.width (f.vd % 8) ((List.range (lanes f.width)).map (fun i =>
        (maskedLane c f (fun i => (b2n (cmpLane f.width f.cond (opA c f i) (opB c f i)), .none)) i).1)) }
  | .gsum => groupOp c f .gsum
  | .gmax => groupOp c f .gmax
  | .gmin => groupOp c f .gmin
  | .exp2 => laneWise c f (fun i => transLane f.width tExp2 (opA c f i))
  | .log2 => laneWise c f (fun i => transLane f.width tLog2 (opA c f i))
  | .rcp => laneWise c f (fun i => transLane f.width tRcp (opA c f i))
  | .rsqrt => laneWise c f (fun i => transLane f.width tRsqrt (opA c f i))
  | .sqrt => laneWise c f (fun i => transLane f.width tSqrt (opA c f i))
  | .tanh => laneWise c f (fun i => transLane f.width tTanh (opA c f i))
  | .sigm => laneWise c f (fun i => transLane f.width tSigm (opA c f i))
  | .cvt => cvtOp c f
  | .qmx => qmxOp c f
  | .dqmx => dqmxOp c f
  | .mand => maskOp c f (fun x y => x &&& y)
  | .mor => maskOp c f (fun x y => x ||| y)
  | .mxor => maskOp c f (fun x y => x ^^^ y)
  | .mnot => maskOp c f (fun x _ => 2 ^ 128 - 1 - x)
  | .mfirst =>
    { writes := maskWrites f.width (f.vd % 8) ((List.range (lanes f.width)).map (fun i => some (b2n (i < f.n)))) }

/-- R201: the latency of an operation. -/
def latency : VOp → Nat
  | .add | .sub | .mul | .fma | .min | .max | .cvt | .dqmx => 4
  | .mov | .abs | .neg | .cmp | .mand | .mor | .mxor | .mnot | .mfirst => 2
  | .gsum | .gmax | .gmin => 8
  | .exp2 | .log2 | .rcp | .rsqrt | .sqrt | .tanh | .sigm => 12
  | .qmx => 6

/-- R193: the writes of a vector instruction that issues in plan cycle t with latency l fall due in t + l − 1. -/
def vecDue (t l : Nat) (o : VecOut) : List (Nat × Due) :=
  o.writes.map (fun w => (t + l - 1, if w.1 then .mreg w.2.1 w.2.2.1 w.2.2.2 else .vreg w.2.1 w.2.2.1 w.2.2.2))

/-- Issues a vector operation on a core: its operands are read, its results fall due (R193). -/
def vecIssue (op : VOp) (f : VecF) (c : Core) : Core × ExcCount :=
  let o := vecOp c op f
  ({ c with due := c.due ++ vecDue c.seq.plan (latency op) o, rng := o.rng.getD c.rng }, o.exc)

/-- R202: `vx.movi`: the immediate in every 32-bit lane; at BF16 width its halves in the even and odd lanes. -/
def moviIssue (f : VecF) (imm : Word) (c : Core) : Core :=
  let o := laneWise c f (fun i => (laneOf (imm.toNat * (1 + 2 ^ 32)) f.width (i % 2), .none))
  { c with due := c.due ++ vecDue c.seq.plan 2 o }

/-- R210: the bytes of a transfer of a SIZE. -/
def ldBytes (size : Nat) : Nat := if size == 0 then 512 else if size == 1 then 256 else if size == 2 then 64 else 32

/-- R211, R219: the word addresses a load or store moves, in register order. -/
def ldWords (c : Core) (f : LdF) : List Nat :=
  let a := c.addr f.areg
  let st := c.stride f.areg
  let col (x : Nat) := (List.range 32).map (fun r => x + 32 * r)
  let grp (x : Nat) := (List.range 32).map (fun k => x + k * st)
  let ws :=
    if f.rmode == 1 then (if f.size == 0 then grp a ++ grp (a + 32 * st) else grp a)
    else if f.rmode == 2 then (if f.size == 0 then col a ++ col (a + 1) else col a)
    else (List.range (ldBytes f.size / 8)).map (a + ·)
  ws.map (· % 2 ^ 21)

/-- The bytes of scratchpad words, in order. -/
def wordsRead (sp : Mem) (ws : List Nat) : List Byte := ws.flatMap (fun w => memReadN sp (8 * w) 8)

/-- R212: `vx.ld`: the reads of plan cycle T, available from T + 8. -/
def ldIssue (f : LdF) (c : Core) : Core :=
  let n := ldBytes f.size
  let v := leNat (wordsRead c.sp (ldWords c f))
  let sh := 8 * n * f.part
  { c with due := c.due ++ [(c.seq.plan + 7, .vreg f.vr ((2 ^ (8 * n) - 1) * 2 ^ sh) (v * 2 ^ sh))] }

/-- R212: `vx.st`: the register is read in T and written to the scratchpad in T + 1. -/
def stIssue (f : LdF) (c : Core) : Core :=
  let n := ldBytes f.size
  let bs := leBytes (c.vreg f.vr / 2 ^ (8 * n * f.part)) n
  { c with due := c.due ++ [(c.seq.plan + 1, .sp (8 * c.addr f.areg) bs)] }

/-- R208: the bytes of an element part of a block-quantized type; none for another type. -/
def partBytes (ty : Nat) : Option Nat := if ty == 8 then some 64 else if 3 ≤ ty && ty ≤ 5 then some 128 else none

/-- A range of bytes of a vector register, or with number 64 + m of mask register m. -/
abbrev RegBytes := Nat × Nat × Nat

/-- R197: the mask registers that an instruction reads. -/
def maskReads (f : VecF) : List RegBytes :=
  if f.men then (List.range (f.width + 1)).map (fun k => (64 + f.mreg + k, 0, 16)) else []

/-- R199: the mask registers of a mask destination. -/
def maskDest (f : VecF) : List RegBytes := (List.range (f.width + 1)).map (fun k => (64 + f.vd % 8 + k, 0, 16))

/-- R200, R207 to R209: the register bytes that a vector operation reads. -/
def vecReads (op : VOp) (f : VecF) : List RegBytes :=
  let a : List RegBytes := if f.acc then [] else [(f.va, 0, 512)]
  let b : RegBytes := (f.vb, 0, 512)
  match op with
  | .add | .sub | .mul | .min | .max | .cmp => maskReads f ++ b :: a
  | .fma => maskReads f ++ (f.vc, 0, 512) :: b :: a
  | .cvt =>
    let n := lanes f.width * cvtBytes f.sf
    let o := if cvtBytes f.sf < cvtBytes f.tf then n * f.part else 0
    maskReads f ++ (if f.acc then [] else [(f.va, o, o + n)])
  | .qmx => a
  | .dqmx =>
    let n := (partBytes f.sf).getD 0
    maskReads f ++ [(f.va, n * f.part, n * (f.part + 1)), (f.vb, 4 * f.spos, 4 * f.spos + 4)]
  | .mand | .mor | .mxor => [(64 + f.va % 8, 0, 16), (64 + f.vb % 8, 0, 16)]
  | .mnot => [(64 + f.va % 8, 0, 16)]
  | .mfirst => []
  | _ => maskReads f ++ a

/-- R194, R207, R208: the register bytes that a vector operation writes. -/
def vecWrites (op : VOp) (f : VecF) : List RegBytes :=
  match op with
  | .cmp | .mfirst => maskDest f
  | .mand | .mor | .mxor | .mnot => [(64 + f.vd % 8, 0, 16)]
  | .cvt =>
    let n := lanes f.width * cvtBytes f.tf
    let o := if cvtBytes f.tf < cvtBytes f.sf then n * f.part else 0
    [(f.vd, o, o + n)]
  | .qmx =>
    let n := (partBytes f.tf).getD 0
    [(f.vd, n * f.part, n * (f.part + 1)), (f.vb, 4 * f.spos, 4 * f.spos + 4)]
  | _ => [(f.vd, 0, 512)]

/-- R193, R212, R213: the register reads, writes and latency of an operation. -/
def regUse : SlotOp → List RegBytes × List RegBytes × Nat
  | .vec op f => (vecReads op f, vecWrites op f, latency op)
  | .movi f _ => (maskReads f, [(f.vd, 0, 512)], 2)
  | .ld f => let n := ldBytes f.size; ([], [(f.vr, n * f.part, n * (f.part + 1))], 8)
  | .st f => let n := ldBytes f.size; ([(f.vr, n * f.part, n * (f.part + 1))], [], 0)
  | _ => ([], [], 0)

/-- R591: whether a read of register bytes finds an error. -/
def Core.regBad (c : Core) (rs : List RegBytes) : Bool :=
  c.upsets.any (fun u => match u with
    | .vec r b => rs.any (fun x => x.1 == r && decide (x.2.1 ≤ b) && decide (b < x.2.2))
    | .mask r b => rs.any (fun x => x.1 == 64 + r && decide (8 * x.2.1 ≤ b) && decide (b < 8 * x.2.2))
    | _ => false)

/-- R137: whether a vector operation that reads accumulator words finds an error in one (R195). -/
def Core.accBad (c : Core) (f : VecF) : Bool :=
  f.acc && c.upsets.any (fun u => match u with
    | .acc a key => a == f.array && (List.range 128).any (fun i => accLaneKey f i == key)
    | _ => false)

/-- R144, R160: the address registers that an operation of the first three slots reads. -/
def opAregs : SlotOp → List Nat
  | .pass f | .lds f => f.vreg :: (if f.scaled then [f.sreg] else []) ++ (if f.qset != 0 then [f.qreg] else [])
  | .ld f | .st f => [f.areg]
  | .arm _ f => [f.breg]
  | .mov sreg _ dreg => [sreg, dreg]
  | .fill dreg _ => [dreg]
  | _ => []

/-- R540: the fault that the operand reads of an operation find. -/
def opFault (c : Core) (op : SlotOp) : Option CoreFault :=
  match op with
  | .vec _ f => if c.accBad f then some { cause := 1, array := f.array }
    else if c.regBad (regUse op).1 then some { cause := 3 } else none
  | _ => if c.regBad (regUse op).1 || c.aregBad (opAregs op) then some { cause := 3 } else none

end Sys2Proof.Machine
end

