-- ==== Sys2Proof/Machine/CoreStep.lean ====
section
/-! DEFINITION. One core in time: what falls due in a plan cycle, the acceptance and release of descriptors (R162,
R264 to R272, R278, R279), the deadline check and hold (R169 to R174), and the issue of bundles, repeats and blocks
(R142 to R148). -/

namespace Sys2Proof.Machine

/-- The item, tenancy and plan variant that a core runs. -/
def runOf (s : State) (k : Nat) : Option (Nat × Item × Option Plan) :=
  match (s.core k).seq.item with
  | some (p, seq, _) => (itemNow s p seq).map (fun i => (p, i, s.planFor p i))
  | none => none

/-- R283, R536, R560: the state that a row about core k in intra-frame cycle u meets when a failure has stopped that core in this
very cycle: the core as it stood. -/
def reviveAt (k u : Nat) (s : State) : Option State :=
  let c := s.core k
  if c.seq.st == .idle && c.seq.item.isNone && s.fails.at_ == (s.time.postmark, u) then
    (s.fails.cores.find? (fun x => x.1 == k)).map (fun x => s.setCore k x.2)
  else none

/-- R536: what such a row leaves: its failure, if it shows one; nothing else, since the core has stopped. -/
def lateOutcome (back : State) (o : Host.Outcome State Fault Refusal) : Host.Outcome State Fault Refusal :=
  match o with
  | .next t => if t.fails == back.fails then .next back else .next t
  | o => o

/-- R283, R536, R560: a row about core k in intra-frame cycle u; a core that a failure stopped in this cycle still shows its own. -/
def withLate (k u : Nat) (row : State → Host.Outcome State Fault Refusal) (s : State) : Host.Outcome State Fault Refusal :=
  match reviveAt k u s with
  | some s1 => lateOutcome s (row s1)
  | none => row s

/-- R560: as `reviveAt` for a command of a core's slots, whose cycle is that in which the core stood. -/
def reviveSlot (k : Nat) (s : State) : Option State :=
  match s.fails.cores.find? (fun x => x.1 == k) with
  | some x => if x.2.frameCycle == s.fails.at_.2 then reviveAt k s.fails.at_.2 s else none
  | none => none

/-- Changes core k. -/
def State.modCore (s : State) (k : Nat) (f : Core → Core) : State := s.setCore k (f (s.core k))

/-- R86, R88, R556: adds exception counts to an item. -/
def addExcItem (p seq : Nat) (e : ExcCount) (s : State) : State :=
  match (s.parcel p).item seq with
  | none => s
  | some i =>
    let hits := (List.range 4).filter (fun k => reaches48 (nth i.exc k 0) (nth e k 0))
    let s := s.modItem p seq (fun i => { i with exc := List.zipWith add48 i.exc e })
    hits.foldl (fun s k => satEvent p i.tenancy seq (1 + k) 0xFFFF s) s

/-- Adds exception counts to the item a core runs. -/
def excOn (k : Nat) (e : ExcCount) (s : State) : State :=
  match (s.core k).seq.item with
  | some (p, seq, _) => addExcItem p seq e s
  | none => s

/-- Fails the item that a core runs, with what the core can say of it. -/
def failOn (k : Nat) (status : IStatus) (desc slot ev : Nat) (s : State) : State :=
  match (s.core k).seq.item with
  | some (p, seq, seg) =>
    failItem p seq { status := status, desc := desc, core := ((s.parcel p).logical k).getD 0xFFFF, seg := seg, slot := slot }
      ev s
  | none => s

/-- Records an event of the item that a core runs, with a payload for the operator and one for the tenancy; the second
result is the record's number in the tenancy log. -/
def eventOn (k kind len : Nat) (body : Nat → List Byte) (s : State) : State × Nat :=
  match runOf s k with
  | some (p, i, _) =>
    let lc := ((s.parcel p).logical k).getD 0xFFFF
    let s := recordP kind p i.tenancy i.seq len (body k) (body lc) s
    (s, tenTail s p i.tenancy)
  | none => (s, 0)

/-- R226: counts corrected scratchpad reads of a core. -/
def countSp (k n : Nat) (s : State) : State :=
  let c := s.core k
  let s' := s.setCore k { c with spCorrected := add48 c.spCorrected n }
  if reaches48 c.spCorrected n then
    satShared (parcelOfCore s k).toList 5 k (fun p => ((s.parcel p).logical k).getD 0xFFFF) s'
  else s'

/-- R226, R227: a read of scratchpad words by a core or its stream engine: single-bit errors are corrected and counted; a word
beyond correction is a fault of the core, and its data is not delivered. -/
def spCheck (k : Nat) (read : Nat → Bool) (s : State) : State × Option CoreFault :=
  let c := s.core k
  (if c.spFixed read == 0 then s else countSp k (c.spFixed read) s, c.spBad read)

/-- R237: an access to a quarter that is off: one event, and the item fails. -/
def bankOff (k q slot : Nat) (s : State) : State :=
  let r := eventOn k evBankOff 4 (fun c => pay [(c, 2), (q, 1), (slot, 1)]) s
  failOn k .bankOff (if slot == 0xFF then 0xFF else 2) slot r.2 r.1

/-- R235, R237: whether a quarter refuses accesses in the core's plan cycle. -/
def quarterOff (c : Core) (q : Nat) : Bool := (c.quarter q).off || decide (c.seq.plan < (c.quarter q).usableAt)

/-- R264, R269: the active descriptor of a slot leaves its position: the next becomes active. -/
def releaseSlot (slot : Nat) (c : Core) : Core :=
  match (c.slot slot).next with
  | some d => c.setSlot slot { active := some d, next := none }
  | none => { c with slots := tblDel c.slots slot }

/-- R269, R271: how many of a slot's positions are taken when an arm is accepted in intra-frame cycle u, after the releases of
that cycle: a descriptor that lands later still holds its own. -/
def slotTaken (c : Core) (u slot : Nat) : Nat := (c.descs.filter (fun x => x.1 == slot && !x.2.landedBy u)).length

/-- R272: the pairing count of a descriptor: partner, direction and tag. -/
def pairKey (d : Desc) : Nat := (d.partner * 2 + b2n d.inbound) * 256 + d.tag

/-- R265, R268, R269: puts an accepted descriptor in its slot; the near bytes of an inbound one are undefined until its plan
deadline. -/
def latch (k slot : Nat) (d : Desc) (s : State) : State :=
  let s := if d.inbound then d.runs.foldl (fun s r => spUndef k r.2.1 d.n0 s) s else s
  s.modCore k (fun c =>
    let d := { d with order := c.accepted }
    let c := { c with accepted := c.accepted + 1 }
    let d := if d.far == 2 then { d with pairIdx := (tblGet c.pairs (pairKey d)).getD 0 } else d
    let c := if d.far == 2 then { c with pairs := tblPut c.pairs (pairKey d) (d.pairIdx + 1) } else c
    let x := c.slot slot
    if x.active.isNone then c.setSlot slot { x with active := some d } else c.setSlot slot { x with next := some d })

/-- R279: a stash push or pop outside the area. -/
def stashOverrun (k slot cur n : Nat) (pop : Bool) (s : State) : State :=
  let r := eventOn k evStashOverrun 12 (fun c => pay [(c, 2), (slot, 1), (b2n pop, 1), (cur, 4), (n, 4)]) s
  failOn k .stashOverrun 6 slot r.2 r.1

/-- R278: takes the far side of a stash descriptor and moves the cursor, or refuses it. -/
def acceptStash (k slot : Nat) (d : Desc) (s : State) : State :=
  match runOf s k with
  | some (p, _, some v) =>
    let lc := ((s.parcel p).logical k).getD 0xFFFF
    let cur := (tblGet (s.parcel p).cursors lc).getD 0
    let area := ((stashArea (s.parcel p) v lc).map (fun a => a.2.1)).getD 0
    let n := d.bytes
    let setCur (x : Nat) (s : State) := s.modParcel p (fun y => { y with cursors := tblPut y.cursors lc x })
    if d.kind == 2 then
      if cur + n > area then stashOverrun k slot cur n false s
      else latch k slot { d with farAddr := cur } (setCur (cur + n) s)
    else if n > cur then stashOverrun k slot cur n true s
    else latch k slot { d with farAddr := cur - n } (setCur (cur - n) s)
  | _ => s

/-- R525: notes that an item uses a stream. -/
def noteStream (k : Nat) (d : Desc) (s : State) : State :=
  match (s.core k).seq.item with
  | some (p, seq, _) =>
    if d.far == 3 then
      s.modItem p seq (fun i => if i.streams.contains (d.partner, d.tag) then i
        else { i with streams := i.streams ++ [(d.partner, d.tag)] })
    else s
  | none => s

/-- R524: the sender's credit for an IN descriptor: 4 KiB for each 4 KiB that accepted IN descriptors ask for. -/
def grantCredit (k : Nat) (d : Desc) (s : State) : State :=
  match (s.core k).seq.item with
  | some (p, _, _) =>
    if d.far == 3 && d.inbound then
      let c := (s.parcel p).chan d.partner
      let st := (tblGet c.streams d.tag).getD {}
      let asked := st.granted + d.bytes
      let n := asked / 4096 - st.granted / 4096
      let c := { c with streams := tblPut c.streams d.tag { st with granted := asked } }
      let s := s.modParcel p (fun x => { x with channels := tblPut x.channels d.partner c })
      let s := if st.rx.length < d.bytes then beginWait p d.partner d.tag c.peerMember s else s
      if n == 0 then s
      else sendChan p d.partner ftCredit 2 c.peerMember c.peerParcel c.peerChannel d.tag 0 0 (leBytes n 4) s
    else s
  | none => s

/-- R523: any use of an unprotected channel by a sealed or seal-pending parcel fails the item. -/
def unprotectedUse (k slot : Nat) (d : Desc) (s : State) : Option State :=
  match runOf s k with
  | some (p, i, _) =>
    if d.far == 3 && chanBarred s p ((s.parcel p).chan d.partner) then
      let body := pay [(6, 1), (d.partner, 1), (((s.parcel p).chan d.partner).peerMember, 2)]
      let s := recordP evSecurity p i.tenancy i.seq 4 body body s
      some (failOn k .security 0xFF slot (tenTail s p i.tenancy) s)
    else none
  | none => none

/-- R282, R521: the member that a descriptor's stream names, if it has been declared lost, with the parcel and the item. -/
def linkLost (k : Nat) (d : Desc) (s : State) : Option (Nat × Item × Nat) :=
  match runOf s k with
  | some (p, i, _) =>
    let m := ((s.parcel p).chan d.partner).peerMember
    if d.far == 3 && s.fed.lostMembers.contains m then some (p, i, m) else none
  | none => none

/-- R165: whether the segment that a core runs stands in its second half. -/
def Core.secondHalf (c : Core) : Bool := c.seq.h0.seg != c.seq.item

/-- R162, R163, R269, R270, R278: the stream engine reads the table entry (R540) and accepts an arm. -/
def acceptArm (k slot entry base kind u t : Nat) (s : State) : State :=
  let c := s.core k
  match c.seq.item with
  | none => s
  | some _ =>
    let half := if c.secondHalf then c.seq.h1 else c.seq.h0
    if c.upsets.contains (.entry c.secondHalf entry) then coreFault k { cause := 4 } s
    else match half.descs[entry]? with
    | none => s
    | some bs =>
      let d := descOf bs entry base
      let d := { d with planDl := t + d.deadline, frameDl := (u : Int) + d.deadline }
      if (if kind == 0 then 2 ≤ d.kind else d.kind != kind + 1) then s
      else if 2 ≤ slotTaken c (u + 1) slot then
        let r := eventOn k evArmOverrun 6 (fun c => pay [(c, 2), (slot, 1), (0, 1), (entry, 2)]) s
        failOn k .descriptor 3 slot r.2 r.1
      else match unprotectedUse k slot d s with
        | some s => s
        | none =>
          if d.far == 4 then acceptStash k slot d s
          else match linkLost k d s with
          | some (p, i, m) =>
            let s := peerLostEvent p i.tenancy i.seq m d.partner s
            failOn k .peerLost 10 slot (tenTail s p i.tenancy) s
          | none => grantCredit k d (noteStream k d (latch k slot d s))

/-- Applies one effect that falls due in the core's plan cycle, in intra-frame cycle u. -/
def applyDue (k : Nat) (d : Due) (s : State) : State :=
  let c := s.core k
  if c.seq.item.isNone then s
  else match d with
  | .acc a key val exc add int =>
    if add && c.upsets.contains (.acc a key) then coreFault k { cause := 1, array := a } s
    else
    let m := c.array a
    let r := accStore ((tblGet m.acc key).getD 0) val exc add int
    let ints := if int then (if m.intWords.contains key then m.intWords else key :: m.intWords)
      else m.intWords.filter (· != key)
    let acc := if r.1 == 0 then tblDel m.acc key else tblPut m.acc key r.1
    excOn k (countExc [r.2])
      (s.setCore k ((c.setArray a { m with acc := acc, intWords := ints }).heal (· == .acc a key)))
  | .vreg r mask val =>
    let v := BitVec.ofNat 4096 (mergeBits (c.vreg r) mask val)
    s.setCore k ({ c with vregs := c.vregs.set r v }.heal (fun u => match u with
      | .vec q b => q == r && mask / 2 ^ (8 * b) % 256 != 0
      | _ => false))
  | .mreg r mask val =>
    let v := BitVec.ofNat 128 (mergeBits (c.mreg r) mask val)
    s.setCore k ({ c with mregs := c.mregs.set r v }.heal (fun u => match u with
      | .mask q b => q == r && bit mask b
      | _ => false))
  | .sp a bs =>
    if quarterOff c (quarterOf a) then bankOff k (quarterOf a) 0xFF s
    else s.setCore k (c.spWrite a bs)
  | .near l => s.setCore k (c.deliver (l.filter (fun x => !quarterOff c (quarterOf x.1))))
  | .awake a => s.setCore k (c.setArray a { c.array a with power := .awake })
  | .rest a => s.setCore k (c.setArray a { c.array a with power := .resting })
  | .mode a q => s.setCore k ((c.setArray a (modeChange (c.array a) q)).heal (fun u => match u with
      | .reg _ b _ _ | .scale _ b _ _ => b == a
      | _ => false))
  | .accept slot entry base kind u t => acceptArm k slot entry base kind u t s

/-- R233, R234: whether a gate request is granted in the core's plan cycle, intra-frame cycle u: no write to the quarter is in
flight, and no armed descriptor maps it; the bytes of a descriptor that has landed are in flight no longer. -/
def gateReady (c : Core) (u q : Nat) : Bool :=
  let x := c.quarter q
  let inFlight := c.due.any (fun d => match d.2 with
    | .sp a _ => quarterOf a == q
    | _ => false)
  let mapped := c.descs.any (fun d => !d.2.landedBy u && d.2.quarters.contains q)
  x.pendingGate && decide (x.gateAt ≤ c.seq.plan) && !inFlight && !mapped

/-- R234: the quarters granted in a cycle are off from the next one on, and what has landed in them is lost. -/
def gateOff (qs : List Nat) (c : Core) : Core :=
  let keep (d : Nat × Due) : Nat × Due := match d.2 with
    | .near l => (d.1, .near (l.filter (fun x => !qs.contains (quarterOf x.1))))
    | _ => d
  qs.foldl (fun c q => c.setQuarter q { c.quarter q with pendingGate := false, granted := false, off := true })
    { c with due := c.due.map keep }

/-- Whether an effect is a stream delivery; a plan write of the same cycle takes effect after it (R228). -/
def Due.isNear : Due → Bool
  | .near _ => true
  | _ => false

/-- R225, R228: scratchpad writes take effect, except in quarters that are off. -/
def landThese (l : List (Nat × Due)) (c : Core) : Core :=
  l.foldl (fun c d => match d.2 with
    | .sp a bs => if quarterOff c (quarterOf a) then c else c.spWrite a bs
    | .near l => c.deliver (l.filter (fun x => !quarterOff c (quarterOf x.1)))
    | _ => c) c

/-- R228: the scratchpad writes of the core's plan cycle take effect although a read of that cycle finds a fault. -/
def landNow (c : Core) : Core :=
  let now := c.due.filter (fun d => decide (d.1 ≤ c.seq.plan))
  landThese (now.filter (·.2.isNear) ++ now.filter (fun d => !d.2.isNear))
    { c with due := c.due.filter (fun d => decide (c.seq.plan < d.1)) }

/-- What falls due in plan cycle τ takes effect, stream deliveries first (R228); then the quarters `qs` go off and the plan
cycle moves on. -/
def finishTick (k : Nat) (qs : List Nat) (s : State) : State :=
  let c := s.core k
  let τ := c.seq.plan
  let now := c.due.filter (fun d => decide (d.1 ≤ τ))
  let s := s.setCore k { c with due := c.due.filter (fun d => decide (τ < d.1)) }
  let s := (now.filter (·.2.isNear) ++ now.filter (fun d => !d.2.isNear)).foldl (fun s d => applyDue k d.2 s) s
  if (s.core k).seq.item.isNone then s
  else s.modCore k (fun c => gateOff qs { c with seq := { c.seq with plan := τ + 1 } })

/-- One plan cycle of a core: every matrix operation reads, is checked (R137, R227) and
advances, what is due takes effect, and gates are granted (R234). -/
def coreTick (k : Nat) (s : State) : State :=
  let c := s.core k
  let u := c.frameCycle
  let τ := c.seq.plan
  let s := s.atCycle u
  let c := { c with gone := c.gone.filter (fun g => !(g.2.landedBy u && g.2.completeAt.any (fun e => decide (e < u)))) }
  let qs := (List.range 16).filter (fun q => (c.quarter q).granted || gateReady c u q)
  let ws := c.ops.flatMap (readWords τ)
  match (ws.map (fun w => quarterOf (8 * w))).find? (quarterOff c) with
  | some q => bankOff k q 0xFF (s.setCore k c)
  | none =>
    let r := spCheck k ws.contains (s.setCore k c)
    match r.2, matFault τ c with
    | some f, _ => coreFault k f (r.1.modCore k landNow)
    | none, some f => coreFault k f r.1
    | none, none => finishTick k qs (r.1.modCore k (matrixCycle τ))

/-- R169: the slots whose descriptors fail the deadline check in intra-frame cycle u, in ascending order. -/
def failingSlots (c : Core) (u : Nat) : List Nat :=
  (List.range 64).filter (fun k => c.descs.any (fun x =>
    x.1 == k && decide (x.2.planDl ≤ c.seq.plan) && !x.2.completeAt.any (fun e => decide (e < u))))

/-- R169, R173: the deadline check at the core's plan cycle: it goes on, or the core enters hold. A descriptor whose
completion is not known yet enters it too: if it turns out to have completed in time, the hold ends in the cycle in which
it began and was none (HOLD_RESUME; log entry 7). -/
def checkDeadline (k : Nat) (s : State) : State :=
  let c := s.core k
  let u := c.frameCycle
  match failingSlots c u with
  | [] => s
  | slot :: _ =>
    let h := c.seq.hold
    let h := if h.episodes == 0 then { h with firstSlot := slot, firstPlan := c.seq.plan } else h
    (s.atCycle u).setCore k { c with
      seq := { c.seq with st := .hold false u, hold := { h with episodes := h.episodes + 1 } } }

/-- A hold that turns out to be none is no episode. -/
def dropEpisode (h : HoldRec) : HoldRec :=
  if h.episodes ≤ 1 then { h with episodes := 0, firstSlot := 0xFF, firstPlan := 0 }
  else { h with episodes := h.episodes - 1 }

/-- R173: the first slot that a core's only episode so far waits for, as its completions become known. -/
def reviewHold (c : Core) : Core :=
  match c.seq.st with
  | .hold false since =>
    if c.seq.hold.episodes == 1 then
      let f := ((failingSlots c since).head?).getD c.seq.hold.firstSlot
      { c with seq := { c.seq with hold := { c.seq.hold with firstSlot := f } } }
    else c
  | _ => c

/-- R144, R148: the writes of address registers that a control slot makes at an issue. -/
def ctlRegs (ctl : CtlOp) (c : Core) : Core :=
  match ctl with
  | .step f =>
    let a := c.areg f.incaDst + c.areg f.incaSrc
    let b := c.areg f.incbDst + c.areg f.incbSrc
    (c.setAreg f.incaDst a).setAreg f.incbDst b
  | .blk _ _ _ => c
  | .seta _ dst imm => c.setAreg dst imm
  | .adda _ dst src imm => c.setAreg dst (c.areg src + imm)
  | .end_ => c

/-- R142: the DELTA of a control slot. -/
def ctlDelta : CtlOp → Nat
  | .step f => f.delta
  | .blk d _ _ => d
  | .seta d _ _ => d
  | .adda d _ _ _ => d
  | .end_ => 1

/-- R143: what follows one issue of a bundle: its DELTA, and its remaining repeats. -/
def afterIssue (b : Bundle) : List Todo :=
  match b.ctl with
  | .step f =>
    if f.repeat_ == 0 then [.wait f.delta]
    else [.wait f.delta, .issue { b with ctl := .step { f with repeat_ := f.repeat_ - 1 } }]
  | c => [.wait (ctlDelta c)]

/-- Adds a matrix operation to those in progress, with its address registers read now (R144, R155, R160). -/
def startMat (isPass : Bool) (f : MatF) (c : Core) : Core :=
  let o : MatOp := ⟨isPass, c.seq.plan, f, c.addr f.vreg, c.stride f.vreg, c.addr f.sreg, c.addr f.qreg, [], []⟩
  { c with ops := c.ops ++ [o] }

/-- Adds effects that fall due later. -/
def addDue (ds : List (Nat × Due)) (c : Core) : Core := { c with due := c.due ++ ds }

/-- R161: the words that `sp.mov` reads: a tile row, a strided group or a tile column. -/
def movWords (c : Core) (sreg rmode : Nat) : List Nat :=
  let a := c.addr sreg
  let st := c.stride sreg
  ((List.range 32).map (fun k =>
    if rmode == 1 then a + k * st else if rmode == 2 then a + 32 * k else a + k)).map (· % 2 ^ 21)

/-- R227, R237: performs an operation that reads words of the scratchpad now, unless one lies in a quarter that is off or is
beyond correction. -/
def withWords (k : Nat) (ws : List Nat) (f : Core → Core) (s : State) : State :=
  match (ws.map (fun w => quarterOf (8 * w))).find? (quarterOff (s.core k)) with
  | some q => bankOff k q 0xFF s
  | none =>
    let r := spCheck k ws.contains s
    match r.2 with
    | some fl => coreFault k fl (r.1.modCore k landNow)
    | none => r.1.modCore k f

/-- R162: an arm goes to the stream engine, which receives it in plan cycle T + 1. -/
def issueArm (kind : Nat) (f : ArmF) (c : Core) : Core :=
  addDue [(c.seq.plan, .accept f.slot f.entry (c.addr f.breg) kind c.frameCycle c.seq.plan)] c

/-- R234: requests a gate on every named quarter. -/
def requestGate (mask : Nat) (c : Core) : Core :=
  (bitsSet mask 16).foldl (fun c q =>
    c.setQuarter q { c.quarter q with pendingGate := true, gateAt := c.seq.plan + 1 }) c

/-- R235: cancels the gate requests of the named quarters and powers up those that are off, whose contents are undefined; each
accepts accesses from plan cycle T + 32. DESIGN CHOICE (log entry 22): a request that would be granted in the very cycle of the
`sp.ungate` is cancelled first. -/
def ungateAll (k mask : Nat) (s : State) : State :=
  (bitsSet mask 16).foldl (fun s q =>
    let x := (s.core k).quarter q
    let s := if x.off || x.granted then spUndef k (q * 786432) 786432 s else s
    s.modCore k (fun c => c.setQuarter q {
      pendingGate := false, off := false, usableAt := c.seq.plan + 32 })) s

/-- What one operation of the first three slots does at an issue in the core's plan cycle (R139 to R141), its operands read.
DESIGN CHOICE (log entry 62): the exceptions of a vector instruction are counted here, at its issue. -/
def performOp (k : Nat) (op : SlotOp) (s : State) : State :=
  let t := (s.core k).seq.plan
  match op with
  | .pass f => s.modCore k (startMat true f)
  | .lds f => s.modCore k (startMat false f)
  | .mode a q => s.modCore k (addDue [(t + 7, .mode a q)])
  | .wake m => s.modCore k (addDue (wakeDue t m))
  | .rest m => s.modCore k (addDue ((bitsSet m 12).map (fun a => (t + 7, Due.rest a))))
  | .vec o f => let r := vecIssue o f (s.core k); excOn k r.2 (s.setCore k r.1)
  | .movi f imm => s.modCore k (moviIssue f imm)
  | .ld f => withWords k (ldWords (s.core k) f) (ldIssue f) s
  | .st f => s.modCore k (stIssue f)
  | .arm kind f => s.modCore k (issueArm kind f)
  | .mov sreg rmode dreg =>
    let ws := movWords (s.core k) sreg rmode
    withWords k ws (fun c => addDue [(t + 8, .sp (8 * c.addr dreg) (wordsRead c.sp ws))] c) s
  | .fill dreg pat => s.modCore k (fun c =>
      addDue [(t + 1, .sp (8 * c.addr dreg) ((List.range 64).flatMap (fun _ => leBytes pat.toNat 4)))] c)
  | .gate m => s.modCore k (requestGate m)
  | .ungate m => ungateAll k m s

/-- R137, R540, R591: one operation at its issue: its operand reads are checked, then it performs. -/
def issueOp (k : Nat) (op : SlotOp) (s : State) : State :=
  match opFault (s.core k) op with
  | some f => coreFault k f s
  | none => performOp k op s

/-- The three slots of a bundle as R139 numbers them: 0 matrix, 1 vector, 2 stream and scratchpad. -/
def slotNo : SlotOp → Nat
  | .pass _ | .lds _ | .mode _ _ | .wake _ | .rest _ => 0
  | .vec _ _ | .movi _ _ | .ld _ | .st _ => 1
  | _ => 2

/-- R148, R591: the address registers that a control slot reads; an increment of a0 does nothing and reads none. -/
def ctlReads : CtlOp → List Nat
  | .step f => (if f.incaDst == 0 then [] else [f.incaDst, f.incaSrc]) ++ (if f.incbDst == 0 then [] else [f.incbDst, f.incbSrc])
  | .adda _ _ src _ => [src]
  | _ => []

/-- R540: the fault of reading a bundle of sequencer memory for issue. -/
def bundleBad (c : Core) (idx : Nat) : Option CoreFault :=
  if c.upsets.contains (.bundle c.secondHalf idx) then some { cause := 4 } else none

/-- R540: the fault that the reads of a control slot find. -/
def ctlFault (c : Core) (ctl : CtlOp) : Option CoreFault := if c.aregBad (ctlReads ctl) then some { cause := 3 } else none

/-- R591: a write of an address register is sound. -/
def ctlHeal (ctl : CtlOp) (c : Core) : Core :=
  let ws := match ctl with
    | .step f => [f.incaDst, f.incbDst]
    | .seta _ dst _ | .adda _ dst _ _ => [dst]
    | _ => []
  c.heal (fun u => match u with
    | .addr r _ => ws.contains r
    | _ => false)

/-- R144, R540, R591: the control slot at an issue: it reads and writes address registers, and `f` goes on. -/
def issueCtl (k : Nat) (ctl : CtlOp) (f : Core → Core) (s : State) : State :=
  let c := s.core k
  match ctlFault c ctl with
  | some fl => coreFault k fl s
  | none => s.setCore k (f (ctlHeal ctl (ctlRegs ctl c)))

/-- Issues a bundle again (R143, R145): it is read, its operations perform, then its control slot. -/
def issueBundle (k : Nat) (b : Bundle) (s : State) : State :=
  match bundleBad (s.core k) b.idx with
  | some fl => coreFault k fl s
  | none =>
    let s := b.ops.foldl (fun s op => if (s.core k).seq.item.isNone then s else issueOp k op s) s
    if (s.core k).seq.item.isNone then s
    else issueCtl k b.ctl (fun c => { c with seq := { c.seq with todo := afterIssue b ++ c.seq.todo } }) s

/-- A bound on the steps that a list of work takes. -/
def todoFuel (l : List Todo) : Nat :=
  (l.map (fun t => match t with
    | .wait n => n + 2
    | .issue b => match b.ctl with
      | .step f => (f.repeat_ + 1) * (f.delta + 4)
      | c => ctlDelta c + 4)).foldl (· + ·) 1

/-- Runs a core through the work it has still to issue by itself, cycle by cycle, until it holds, fails, has nothing
left, or the frame has no cycle left. -/
def runTodo : Nat → Nat → State → State
  | 0, _, s => s
  | n + 1, k, s =>
    let c := s.core k
    if c.seq.st != .issuing then s
    else match c.seq.todo with
    | [] => s
    | .wait 0 :: r => runTodo n k (s.setCore k { c with seq := { c.seq with todo := r } })
    | .wait (m + 1) :: r =>
      if s.time.period ≤ c.frameCycle then s
      else
        let s := coreTick k s
        if (s.core k).seq.item.isNone then s
        else runTodo n k (checkDeadline k
          (s.modCore k (fun c => { c with seq := { c.seq with todo := .wait m :: r } })))
    | .issue b :: r => runTodo n k (issueBundle k b (s.setCore k { c with seq := { c.seq with todo := r } }))

/-- Runs a core through its work. -/
def runCore (k : Nat) (s : State) : State := runTodo (todoFuel (s.core k).seq.todo) k s

/-- R145, R146: records a bundle in the open blocks, the innermost first; a block whose body is complete issues its
further iterations. The second result is what is issued again, in order. -/
def recordBlocks : List Block → List Bundle → List Block × List Bundle
  | [], _ => ([], [])
  | x :: r, new =>
    let rec_ := x.recorded ++ new
    if x.body ≤ 1 then
      let again := (List.replicate x.count rec_).flatten
      let rest := recordBlocks r (new ++ again)
      (rest.1, again ++ rest.2)
    else
      let rest := recordBlocks r new
      ({ x with body := x.body - 1, recorded := rec_ } :: rest.1, rest.2)

/-- A bundle as a block issues it again: an inner `ct.blk` only separates issues then, its iterations are recorded in
full. -/
def replayForm (b : Bundle) : Bundle :=
  match b.ctl with
  | .blk d _ _ => { b with ctl := .step { delta := d } }
  | _ => b

/-- Whether a core takes commands for a bundle: it issues, and has nothing left to issue by itself. -/
def issuing (c : Core) : Bool := c.seq.st == .issuing && c.seq.todo.isEmpty && !c.seq.ended

/-- R540: what has struck a core before a command. -/
def strikeCore (e : CoreEnv) (s : State) : State :=
  if e.upsets.isEmpty then s else s.modCore e.core (fun c => e.upsets.foldl Core.strike c)

/-- R560: a command of a core's slots, after what has struck the core; one stopped in this very cycle still shows its fault. -/
def slotRow (e : CoreEnv) (row : State → Host.Outcome State Fault Refusal) (s : State) : Host.Outcome State Fault Refusal :=
  match reviveSlot e.core s with
  | some s1 => lateOutcome (strikeCore e s) (row (strikeCore e s1))
  | none => row (strikeCore e s)

/-- A slot's operation as it arrives: its bundle is read for issue (R540), then it performs and joins the bundle. A core that
does not issue, or a bundle that has an operation in that slot, is left alone but for what has struck it (log entry 8). -/
def slotRun (e : CoreEnv) (op : Option SlotOp) (s : State) : Host.Outcome State Fault Refusal :=
  let c := s.core e.core
  if !issuing c then .next s
  else
    let s := s.atCycle c.frameCycle
    match bundleBad c c.seq.nextIdx, op with
    | some fl, _ => .next (coreFault e.core fl s)
    | none, none => .next s
    | none, some op =>
      if c.seq.bundle.any (fun x => slotNo x == slotNo op) then .next s
      else
        .next (issueOp e.core op (s.modCore e.core (fun c =>
          { c with seq := { c.seq with bundle := c.seq.bundle ++ [op] } })))

/-- A slot's operation, after what has struck its core. -/
def slotCmd (e : CoreEnv) (op : Option SlotOp) (s : State) : Host.Outcome State Fault Refusal := slotRow e (slotRun e op) s

/-- R142, R145: what follows the control slot of a complete bundle: the bundle is recorded, and its repeats and its block's
iterations are still to issue. -/
def closeBundle (ctl : CtlOp) (c : Core) : Core :=
  let b : Bundle := ⟨c.seq.bundle, ctl, c.seq.nextIdx⟩
  let open_ := match ctl with
    | .blk _ body count => ⟨body, count, []⟩ :: c.seq.blocks
    | _ => c.seq.blocks
  let r := recordBlocks open_ [replayForm b]
  { c with seq := { c.seq with
    bundle := [], nextIdx := c.seq.nextIdx + 1, blocks := r.1, todo := afterIssue b ++ r.2.map Todo.issue } }

/-- A control slot as it arrives: the bundle is complete; the address registers take their new values (R144), and the
core runs to its next issue (R142, R143, R145). -/
def ctlRun (e : CoreEnv) (ctl : CtlOp) (s : State) : Host.Outcome State Fault Refusal :=
  let c := s.core e.core
  if !issuing c then .next s
  else
    let s := s.atCycle c.frameCycle
    match bundleBad c c.seq.nextIdx with
    | some fl => .next (coreFault e.core fl s)
    | none => .next (runCore e.core (issueCtl e.core ctl (closeBundle ctl) s))

/-- A control slot, after what has struck its core. -/
def ctlCmd (e : CoreEnv) (ctl : CtlOp) (s : State) : Host.Outcome State Fault Refusal := slotRow e (ctlRun e ctl) s

end Sys2Proof.Machine
end

