-- ==== Sys2Proof/Machine/StreamSlots.lean ====
section
/-! DEFINITION. The commands of the stream and scratchpad slot and of the control slot (04, 06), and what the stream
engine does by itself: landings (R264), deadlock (R275), a granted gate (R234). -/

namespace Sys2Proof.Machine

/-- R140: ST_NOP. -/
def execStNop (e : CoreEnv) (s : State) : Host.Outcome State Fault Refusal := slotCmd e none s

/-- R162: ST_ARM. -/
def execStArm (e : CoreEnv) (f : ArmF) (s : State) : Host.Outcome State Fault Refusal := slotCmd e (some (.arm 0 f)) s

/-- R162, R278: ST_STASH. -/
def execStStash (e : CoreEnv) (f : ArmF) (s : State) : Host.Outcome State Fault Refusal := slotCmd e (some (.arm 1 f)) s

/-- R162, R278: ST_UNSTASH. -/
def execStUnstash (e : CoreEnv) (f : ArmF) (s : State) : Host.Outcome State Fault Refusal :=
  slotCmd e (some (.arm 2 f)) s

/-- R161: SP_MOV. -/
def execSpMov (e : CoreEnv) (sreg rmode dreg : Nat) (s : State) : Host.Outcome State Fault Refusal :=
  slotCmd e (some (.mov sreg rmode dreg)) s

/-- R161: SP_FILL. -/
def execSpFill (e : CoreEnv) (dreg : Nat) (pattern : Word) (s : State) : Host.Outcome State Fault Refusal :=
  slotCmd e (some (.fill dreg pattern)) s

/-- R234: SP_GATE. -/
def execSpGate (e : CoreEnv) (mask : Nat) (s : State) : Host.Outcome State Fault Refusal :=
  slotCmd e (some (.gate mask)) s

/-- R235: SP_UNGATE. -/
def execSpUngate (e : CoreEnv) (mask : Nat) (s : State) : Host.Outcome State Fault Refusal :=
  slotCmd e (some (.ungate mask)) s

/-- R143: CT_STEP. -/
def execCtStep (e : CoreEnv) (f : StepF) (s : State) : Host.Outcome State Fault Refusal := ctlCmd e (.step f) s

/-- R145: CT_BLK. -/
def execCtBlk (e : CoreEnv) (delta body count : Nat) (s : State) : Host.Outcome State Fault Refusal :=
  ctlCmd e (.blk delta body count) s

/-- R148: CT_SETA. -/
def execCtSeta (e : CoreEnv) (delta dst : Nat) (imm : Word) (s : State) : Host.Outcome State Fault Refusal :=
  ctlCmd e (.seta delta dst imm) s

/-- R148: CT_ADDA. -/
def execCtAdda (e : CoreEnv) (delta dst src : Nat) (imm : Word) (s : State) : Host.Outcome State Fault Refusal :=
  ctlCmd e (.adda delta dst src imm) s

/-- R267: whether an item's cores still hold descriptors that have not landed. -/
def unlanded (s : State) (p seq : Nat) : Bool :=
  (coresOf s p seq).any (fun k => (s.core k).slots.any (fun x =>
    (x.2.active.toList ++ x.2.next.toList).any (fun d => d.landedAt.isNone)))

/-- A cycle as a cycle of this frame; 0 when it lies in an earlier one. -/
def cycleIn (s : State) (x : Nat × Nat) : Nat := if x.1 == s.time.postmark then x.2 else 0

/-- R47, R48, R302: completes an item that has run its last segment, once every descriptor has landed (R267). -/
def tryComplete (p seq : Nat) (s : State) : State :=
  match (s.parcel p).item seq with
  | none => s
  | some i =>
    match s.planFor p i with
    | none => s
    | some v =>
      if i.segRunning || !i.begun || i.seg < v.segments || unlanded s p seq then s
      else
        let st : IStatus := if i.reissued then .doneRetried else if i.late then .doneLate else .done
        let ks := coresOf s p seq
        let s := s.atCycle ((ks.map (fun k => cycleIn s (s.core k).lastLanded)).foldl max s.time.stamp)
        let s := ks.foldl (fun s k => s.modCore k (fun c =>
          { c with slots := [], seq := { h0 := c.seq.h0, h1 := c.seq.h1 } })) s
        endItem p seq { status := st } 0 false s

/-- R225: the scratchpad writes that a core's last bundle leaves in flight land at the segment's end (log entry 22). -/
def landWrites (c : Core) : Core := landThese (sortBy (fun (a b : Nat × Due) => decide (a.1 < b.1)) c.due) c

/-- R129, R171, R173: the end of a segment: every core of it has issued `ct.end`. -/
def segmentEnd (p seq : Nat) (s : State) : State :=
  match (s.parcel p).item seq with
  | none => s
  | some i =>
    let ks := coresOf s p seq
    let held := (ks.map (fun k => (s.core k).seq.hold.cycles)).foldl max 0
    let s := ks.foldl (fun s k => feedLate p i.tenancy seq i.seg k (s.core k).seq.hold s) s
    let s := ks.foldl (fun s k => s.modCore k (fun c =>
      let c := landWrites c
      let q := c.seq
      let h0 : SeqHalf := if q.h0.seg == some (p, seq, i.seg) then {} else q.h0
      let h1 : SeqHalf := if q.h1.seg == some (p, seq, i.seg) then {} else q.h1
      { c with arrays := [], ops := [], due := [], seq := { q with h0 := h0, h1 := h1, hold := {} } })) s
    let s := s.modItem p seq (fun i => { i with
      held := i.held + held, late := i.late || held != 0, segsRun := i.segsRun + 1, segRunning := false, segEnd := s.time.stamp,
      seg := i.seg + 1 })
    tryComplete p seq s

/-- R147, R171, R175: a core that has issued the last bundle of its segment is IDLE; the last core to do so ends the
segment. -/
def endCore (k : Nat) (s : State) : State :=
  match (s.core k).seq.item with
  | none => s
  | some (p, seq, _) =>
    let s := s.modCore k (fun c => { c with
      seq := { c.seq with st := .idle, ended := true, bundle := [], blocks := [], todo := [] } })
    if (coresOf s p seq).all (fun k => (s.core k).seq.ended) then segmentEnd p seq s else s

/-- R147, R175: the core issues the last bundle of its segment and becomes IDLE. -/
def endRun (e : CoreEnv) (s : State) : Host.Outcome State Fault Refusal :=
  let c := s.core e.core
  if !issuing c then .next s
  else
    let s := s.atCycle c.frameCycle
    match bundleBad c c.seq.nextIdx with
    | some fl => .next (coreFault e.core fl s)
    | none => .next (endCore e.core (coreTick e.core s))

/-- R147, R175: CT_END. -/
def execCtEnd (e : CoreEnv) (s : State) : Host.Outcome State Fault Refusal := slotRow e (endRun e) s

/-- R170, R234: the cycle at which a gate is looked at: that of a core that issues; in a hold every landing so far counts. -/
def gateCycle (s : State) (c : Core) : Nat := if c.seq.st == .issuing then c.frameCycle else s.time.period

/-- R234: GATE_GRANT: a pending request is granted when no write to the quarter is in flight and no armed descriptor
maps it; the quarter is off from the next cycle on. -/
def execGateGrant (core quarter : Nat) (s : State) : Host.Outcome State Fault Refusal :=
  let c := s.core core
  if !gateReady c (gateCycle s c) quarter then .next s
  else if c.seq.st == .issuing then
    .next (s.setCore core (c.setQuarter quarter { c.quarter quarter with pendingGate := false, granted := true }))
  else .next (s.setCore core (gateOff [quarter] c))

/-- R222, R259: the write accesses of n words from a word on: 32 at the start of a tile row, 8 on an 8-word boundary, else
4. -/
def nearSplit : Nat → Nat → Nat → List (Nat × Nat)
  | 0, _, _ => []
  | fuel + 1, w, n =>
    let k := if w % 32 == 0 && decide (32 ≤ n) then 32 else if w % 8 == 0 && decide (8 ≤ n) then 8 else min 4 n
    if n == 0 then [] else (w, k) :: nearSplit fuel (w + k) (n - k)

/-- R257, R259: the accesses that bring bytes to the near side of a descriptor, in order: byte address and bytes. -/
def nearAccesses (d : Desc) (bs : List Byte) : List (Nat × List Byte) :=
  (d.runs.foldl (fun (a : List (Nat × List Byte) × List Byte) r =>
    (a.1 ++ (nearSplit (d.n0 / 32) (r.2.1 / 8) (d.n0 / 8)).map (fun x => (8 * x.1, slice a.2 (8 * x.1 - r.2.1) (8 * x.2))),
      a.2.drop d.n0)) ([], bs)).1

/-- Gathers the near bytes of an outbound descriptor in the order of R257. -/
def nearRead (c : Core) (d : Desc) : List Byte := d.runs.flatMap (fun r => memReadN c.sp r.2.1 d.n0)

/-- Whether the near side of a descriptor holds a scratchpad word. -/
def nearHas (d : Desc) (w : Nat) : Bool := d.runs.any (fun r => decide (r.2.1 ≤ 8 * w) && decide (8 * w < r.2.1 + d.n0))

/-- R222, R257, R268: brings bytes to the near side of an inbound descriptor: they are defined from its plan deadline on. -/
def nearWrite (bs : List Byte) (d : Desc) (c : Core) : Core :=
  let l := nearAccesses d bs
  if d.planDl ≤ c.seq.plan || c.seq.st == .idle then c.deliver l else addDue [(d.planDl - 1, .near l)] c

/-- The first near quarter of an inbound descriptor that is off (R237). -/
def nearOff (c : Core) (d : Desc) : Option Nat := d.quarters.find? (quarterOff c)

/-- What became of a descriptor's bytes: moved, and the partner's with them; not possible yet; a memory failure at an address;
a quarter of a core that is off, and the slot of that core (R237); or an uncorrectable scratchpad word of a core (R227). -/
inductive Moved where
  | done
  | wait
  | fail (r : MRes) (addr : Nat)
  | off (core quarter slot : Nat)
  | fault (core : Nat) (f : CoreFault)
  deriving DecidableEq, Repr

/-- Reads the far runs of an HBM descriptor, in order. DESIGN CHOICE (log entry 64): the first failing request in the order of
R257 names the failure. -/
def hbmGet (p ten seq : Nat) (d : Desc) : List (Nat × Nat × Nat) → List Byte → State → Moved × List Byte × State
  | [], bs, s => (.done, bs, s)
  | r :: rest, bs, s =>
    let x := pvRead p ten r.1 d.n0 (d.policy == 0) { ten := ten, seq := seq, quiet := true } s
    if x.1 == .ok then hbmGet p ten seq d rest (bs ++ x.2.2.1) x.2.2.2 else (.fail x.1 x.2.1, [], x.2.2.2)

/-- Moves the runs of an HBM descriptor into the scratchpad. -/
def hbmIn (p ten seq k : Nat) (d : Desc) (s : State) : Moved × State :=
  let x := hbmGet p ten seq d d.runs [] s
  (x.1, if x.1 == .done then x.2.2.modCore k (nearWrite x.2.1 d) else x.2.2)

/-- Moves the runs of an HBM descriptor out of the scratchpad. -/
def hbmOut (p ten seq k : Nat) (d : Desc) : List (Nat × Nat × Nat) → State → Moved × State
  | [], s => (.done, s)
  | r :: rest, s =>
    let bs := memReadN (s.core k).sp r.2.1 d.n0
    let x := pvWrite p ten r.1 bs (d.policy == 0) (p, seq) { ten := ten, seq := seq, quiet := true } s
    if x.1 == .ok then hbmOut p ten seq k d rest x.2.2.2 else (.fail x.1 x.2.1, x.2.2.2)

/-- Reads the requests of a die-store or stash descriptor, in order. -/
def dieGet (p lc : Nat) (v : Plan) (d : Desc) (s : State) : List (Nat × Nat × Nat) → List Byte → Moved × List Byte
  | [], bs => (.done, bs)
  | r :: rest, bs =>
    match farPlace s p v lc d r.1 with
    | none => (.fail .badLot 0, [])
    | some (die, a) =>
      if (s.die die).lost then (.fail .lost 0, []) else dieGet p lc v d s rest (bs ++ dsRead s die a r.2.2)

/-- Moves the requests of a die-store or stash descriptor out of the scratchpad. -/
def dieOut (p k lc : Nat) (v : Plan) (d : Desc) : List (Nat × Nat × Nat) → State → Moved × State
  | [], s => (.done, s)
  | r :: rest, s =>
    match farPlace s p v lc d r.1 with
    | none => (.fail .badLot 0, s)
    | some (die, a) =>
      if (s.die die).lost then (.fail .lost 0, s)
      else dieOut p k lc v d rest (dsWrite die a (memReadN (s.core k).sp r.2.1 r.2.2) s)

/-- Moves a die-store or stash descriptor. -/
def dieMove (p k lc : Nat) (v : Plan) (d : Desc) (s : State) : Moved × State :=
  if d.inbound then
    let x := dieGet p lc v d s (diePieces d) []
    (x.1, if x.1 == .done then s.modCore k (nearWrite x.2 d) else s)
  else dieOut p k lc v d (diePieces d) s

/-- R272: the partner side of a CORE descriptor: the partner core, its slot and descriptor. -/
def partnerOf (s : State) (p lc : Nat) (d : Desc) : Option (Nat × Nat × Bool × Desc) :=
  let k2 := (s.parcel p).phys d.partner
  let ok (e : Desc) : Bool :=
    e.far == 2 && e.partner == lc && e.tag == d.tag && e.inbound != d.inbound && e.pairIdx == d.pairIdx
  ((s.core k2).slots.flatMap (fun x =>
    (x.2.active.toList.filter ok).map (fun e => (k2, x.1, true, e)) ++
    (x.2.next.toList.filter ok).map (fun e => (k2, x.1, false, e)))).head?

/-- Changes the active descriptor of a slot. -/
def modDesc (slot : Nat) (f : Desc → Desc) (c : Core) : Core :=
  let x := c.slot slot
  c.setSlot slot { x with active := x.active.map f }

/-- R269, R272: moves a pair's bytes once both sides are active; a side in the next position has not started its requests. -/
def pairMove (p k lc slot : Nat) (d : Desc) (s : State) : Moved × State :=
  if d.moved then (.done, s)
  else match partnerOf s p lc d with
    | some (k2, slot2, true, e) =>
      let src := if d.inbound then (k2, e) else (k, d)
      let dst := if d.inbound then (k, slot, d) else (k2, slot2, e)
      match nearOff (s.core dst.1) dst.2.2 with
      | some q => (.off dst.1 q dst.2.1, s)
      | none =>
        let r := spCheck src.1 (nearHas src.2) s
        match r.2 with
        | some f => (.fault src.1 f, r.1)
        | none =>
          let s := r.1.modCore dst.1 (nearWrite (nearRead (r.1.core src.1) src.2) dst.2.2)
          (.done, s.modCore k2 (modDesc slot2 (fun e => { e with moved := true })))
    | _ => (.wait, s)

/-- R513, R520, R523, R524: the frames that the bytes of a stream's sender fill, as far as its credit of 4 KiB each allows; bytes
that are left wait for the peer's CREDIT. The bytes of one descriptor are a message: a frame carries bytes of one alone, their
place among them, the descriptor's intra-frame deadline (R260), and LAST with the last of them (log entry 36). -/
def flushTx (p ch tag : Nat) : Nat → State → State
  | 0, s => s
  | n + 1, s =>
    let c := (s.parcel p).chan ch
    let st := (tblGet c.streams tag).getD {}
    match st.txDl with
    | [] => s
    | m :: r =>
      let k := min (min 4096 (4096 * st.credit - st.used)) m.left
      if k == 0 then beginWait p ch (512 + tag) c.peerMember s
      else
        let c := { c with streams := tblPut c.streams tag { st with
          tx := st.tx.drop k, credit := st.credit - (st.used + k) / 4096, used := (st.used + k) % 4096
          txDl := if k == m.left then r else { m with left := m.left - k, sent := m.sent + k } :: r } }
        let s := endWait p ch (512 + tag) c.peerMember (s.modParcel p (fun x => { x with channels := tblPut x.channels ch c }))
        flushTx p ch tag n (sendChan p ch ftData (if k == m.left then 2 else 0) c.peerMember c.peerParcel c.peerChannel tag
          (ofSigned m.dl 32) m.sent (st.tx.take k) s)

/-- R273, R524: moves the bytes of a LINK descriptor to or from its stream. -/
def linkMove (p k : Nat) (d : Desc) (s : State) : Moved × State :=
  let c := (s.parcel p).chan d.partner
  let st := (tblGet c.streams d.tag).getD {}
  let put (st : Stream) (s : State) : State :=
    s.modParcel p (fun x => { x with channels := tblPut x.channels d.partner { c with streams := tblPut c.streams d.tag st } })
  if d.inbound then
    if st.rx.length < d.bytes then (.wait, s)
    else
      let s := s.modCore k (nearWrite (st.rx.take d.bytes) d)
      (.done, put { st with rx := st.rx.drop d.bytes } s)
  else
    let s := put { st with tx := st.tx ++ nearRead (s.core k) d, txDl := st.txDl ++ (if d.bytes == 0 then [] else [{ left := d.bytes, dl := d.frameDl }]) } s
    (.done, flushTx p d.partner d.tag (st.tx.length + d.bytes) s)

/-- R249 to R257, R264: moves the bytes of a descriptor; R237: an inbound one writes no quarter that is off; R227: an
outbound one reads its near bytes through their code. -/
def moveDesc (p k lc slot : Nat) (i : Item) (v : Plan) (d : Desc) (s : State) : Moved × State :=
  if d.far == 2 then pairMove p k lc slot d s
  else match (if d.inbound then nearOff (s.core k) d else none) with
    | some q => (.off k q slot, s)
    | none =>
      let r := if d.inbound then (s, none) else spCheck k (nearHas d) s
      match r.2 with
      | some f => (.fault k f, r.1)
      | none =>
        if d.far == 0 then
          if d.inbound then hbmIn p i.tenancy i.seq k d r.1 else hbmOut p i.tenancy i.seq k d d.runs r.1
        else if d.far == 3 then linkMove p k d r.1
        else dieMove p k lc v d r.1

/-- R264, R267, R269: the active descriptor of a slot is complete and has landed: it is released, the next one becomes active,
and an item that waited for it goes on. An arm accepted in an earlier cycle still finds its position taken (`slotTaken`). -/
def markLanded (k slot completeAt landedAt : Nat) (s : State) : State :=
  let s := s.modCore k (fun c =>
    let d := (c.slot slot).active.map (fun d => (slot, { d with completeAt := some completeAt, landedAt := some landedAt }))
    reviewHold (releaseSlot slot { c with
      gone := c.gone ++ d.toList, lastLanded := later c.lastLanded (s.time.postmark, landedAt) }))
  match (s.core k).seq.item with
  | some (p, seq, _) => tryComplete p seq s
  | none => s

/-- R265: whether an access of one descriptor to a far-side byte must come before another's: they are of one kind and touch one
byte that at least one of them writes (of a CORE descriptor, a byte of the near side of its partner), or use one direction of one
stream. -/
def ordered (s : State) (p lc : Nat) (v : Plan) (e d : Desc) : Bool :=
  let hit (a b : List (Nat × Nat × Nat)) : Bool :=
    a.any (fun x => b.any (fun y => x.1 == y.1 && decide (x.2.1 < y.2.1 + y.2.2) && decide (y.2.1 < x.2.1 + x.2.2)))
  let bytes (x : Desc) : List (Nat × Nat × Nat) :=
    if x.far == 0 then x.runs.map (fun r => (0, r.1, x.n0))
    else if x.far == 1 || x.far == 4 then
      (diePieces x).filterMap (fun r => (farPlace s p v lc x r.1).map (fun y => (y.1 + 1, y.2, r.2.2)))
    else if x.far == 2 then
      match partnerOf s p lc x with
      | some (k2, _, _, y) => y.runs.map (fun r => (9 + k2, r.2.1, y.n0))
      | none => []
    else []
  if d.far == 3 then e.far == 3 && e.partner == d.partner && e.tag == d.tag && e.inbound == d.inbound
  else (!e.inbound || !d.inbound) && hit (bytes e) (bytes d)

/-- R265: whether an earlier-accepted descriptor of the core has still to make its accesses first. -/
def blocked (s : State) (p k lc : Nat) (v : Plan) (d : Desc) : Bool :=
  (s.core k).slots.any (fun x => (x.2.active.toList ++ x.2.next.toList).any (fun e =>
    decide (e.order < d.order) && !e.moved && ordered s p lc v e d))

/-- R264, R269: whether a descriptor that landed in intra-frame cycle u or later held the slot's active position before the one
that holds it now. -/
def landedBefore? (c : Core) (slot u : Nat) : Bool := c.gone.any (fun g => g.1 == slot && g.2.landedAt.any (fun l => decide (u ≤ l)))

/-- R264, R269, R282: the active descriptor of a slot becomes complete and lands in the given intra-frame
cycles (an inbound one lands as it completes; one that waited behind another completes after that one's landing); its bytes
have moved, or the descriptor fails. -/
def landRow (core slot completeAt landedAt : Nat) (s : State) : Host.Outcome State Fault Refusal :=
  let c := s.core core
  match runOf s core, (c.slot slot).active with
  | some (p, i, some v), some d =>
    let lc := ((s.parcel p).logical core).getD 0xFFFF
    if landedAt < completeAt || (d.inbound && landedAt != completeAt)
        || landedBefore? c slot completeAt || blocked s p core lc v d then .next s
    else
      let s := s.atCycle landedAt
      let r := moveDesc p core lc slot i v d s
      match r.1 with
      | .done => fin (markLanded core slot completeAt landedAt r.2)
      | .wait => .next s
      | .off k q sl => fin (bankOff k q sl r.2)
      | .fault k f => fin (coreFault k f (r.2.modCore k (fun c =>
          if c.seq.st == .issuing && c.frameCycle == landedAt then landNow c else c)))
      | .fail m a =>
        let f : FailAt := ⟨m.item, m.desc, lc, i.seg, slot, 0xFFFF, if d.far == 0 then a else 0,
          if d.far == 0 then a / 2 ^ 30 else 0xFFFF⟩
        let ev := if tenTail r.2 p i.tenancy == tenTail s p i.tenancy then 0 else tenTail s p i.tenancy + 1
        fin (failItem p i.seq f ev r.2)
  | _, _ => .next s

/-- R264, R282: DESCRIPTOR_LANDED. -/
def execDescriptorLanded (core slot completeAt landedAt : Nat) (s : State) : Host.Outcome State Fault Refusal :=
  withLate core landedAt (landRow core slot completeAt landedAt) s

/-- R275: the descriptors a core waits on in its hold. -/
def awaited (c : Core) : List (Nat × Desc) :=
  c.slots.flatMap (fun x => ((x.2.active.toList ++ x.2.next.toList).filter (fun d =>
    decide (d.planDl ≤ c.seq.plan) && d.completeAt.isNone)).map (fun d => (x.1, d)))

/-- The lowest-numbered slot of a list. -/
def lowest (l : List (Nat × Desc)) : Option (Nat × Desc) :=
  l.foldl (fun (a : Option (Nat × Desc)) x => match a with
    | some y => if x.1 < y.1 then some x else some y
    | none => some x) none

/-- R275, R276: a core has held for W cycles for CORE descriptors only, whose partner sides are not
accepted and whose partner cores hold too; when the segment's hold count passes the bound in the same cycle, the overrun
counts. DESIGN CHOICE (log entry 63): the partner slot is 0xFF when the partner core holds for no slot. -/
def deadlockRow (core at_ : Nat) (s : State) : Host.Outcome State Fault Refusal :=
  let c := s.core core
  match runOf s core, c.seq.st with
  | some (p, i, some v), .hold false since =>
    let ws := awaited c
    let lc := ((s.parcel p).logical core).getD 0xFFFF
    let w := (ws.map (fun x => x.2.waitBound)).foldl min (2 ^ 32 - 1)
    let stuck (d : Desc) : Bool :=
      let k2 := (s.parcel p).phys d.partner
      d.far == 2 && !d.moved && (partnerOf s p lc d).isNone && (match (s.core k2).seq.st with | .hold _ _ => true | _ => false)
    match lowest ws with
    | none => .next s
    | some (slot, d) =>
      let s := s.atCycle at_
      if since + w ≤ at_ + 1 && ws.all (fun x => stuck x.2) then
        if imgH v.image i.seg < ((coresOf s p i.seq).map (fun j => heldAt (s.core j) at_)).foldl max 0 then fin (failOn core .frameOverrun 0xFF 0xFF 0 s)
        else
          let k2 := (s.parcel p).phys d.partner
          let slot2 := ((lowest (awaited (s.core k2))).map (·.1)).getD 0xFF
          let body (a b : Nat) := pay [(a, 2), (slot, 1), (0, 1), (b, 2), (slot2, 1), (0, 1), (w, 4)]
          let s := recordP evStreamDeadlock p i.tenancy i.seq 12 (body core k2) (body lc d.partner) s
          fin (failOn core .streamDeadlock 5 slot (tenTail s p i.tenancy) s)
      else .next s
  | _, _ => .next s

/-- R275, R276: STREAM_DEADLOCK. -/
def execStreamDeadlock (core at_ : Nat) (s : State) : Host.Outcome State Fault Refusal :=
  withLate core at_ (deadlockRow core at_) s

end Sys2Proof.Machine
end

