-- ==== Sys2Proof/Machine/Segments.lean ====
section
/-! DEFINITION. Segments (01 R44 to R50, 04 R165 to R171): the fill of a sequencer half, the start of a segment with
the batch window (11 R427), the end of a hold, the hold bound; the admission of ring entries (13 R485, R590) and the
re-issue of an item (08 R301). -/

namespace Sys2Proof.Machine

/-- R307: notes that a segment of a plan runs while a stack refreshes above the plan's grade. -/
def thermNote (p : Nat) (v : Plan) (s : State) : State :=
  let f := ((List.range 12).map (fun k => (s.stack k).refresh)).foldl max 1
  let k := ((List.range 12).find? (fun k => (s.stack k).refresh == f)).getD 0
  let g := imgGrade v.image
  s.modParcel p (fun x =>
    if f ≤ g + 1 || f ≤ x.thermEvent % 256 then x else { x with thermEvent := f + 256 * g + 65536 * k })

/-- R427: the batch table of a batch item. -/
def batchTable (x : Parcel) (reg : Reg) (i : Item) : List Byte :=
  pay [(i.batch.length, 4), (i.length, 4), (i.built, 8)] ++ (List.range reg.batch).flatMap (fun b =>
    match i.batch[b]? with
    | some k =>
      let e := (tblGet x.manifest k).getD {}
      pay [(e.position, 4), (k, 2), (1, 1), (0, 1), (e.seqTag, 4), (0, 4)]
    | none => zeros 16)

/-- R424, R427: the live mapping of a registration's window slots for a batch. -/
def windowMap (reg : Reg) (i : Item) (x : Parcel) : Parcel :=
  let kvOf (b k : Nat) : Nat :=
    match i.batch[b]? with
    | some e => let v := nth ((tblGet x.manifest e).getD {}).kv k 0xFFFF; if v == 0xFFFF then reg.padSlot else v
    | none => reg.padSlot
  { x with live := (List.range (reg.batch * reg.kvl)).foldl (fun l n =>
      tblPut l (reg.winBase + n) (kvOf (n / reg.kvl) (n % reg.kvl))) x.live }

/-- R427: what precedes the first segment of a batch item: its table is written and its windows are mapped. -/
def batchStart (p : Nat) (i : Item) (s : State) : MRes × Nat × State :=
  match i.kind with
  | .batch r =>
    match tblGet (s.parcel p).regs r with
    | none => (.ok, 0, s)
    | some reg =>
      let w := pvWrite p i.tenancy (reg.tableSlot * 2 ^ 30) (batchTable (s.parcel p) reg i) false (p, i.seq)
        { ten := i.tenancy, seq := i.seq } s
      (w.1, w.2.1, w.2.2.2.modParcel p (windowMap reg i))
  | _ => (.ok, 0, s)

/-- R166: the half of a core that holds a segment whole. -/
def fullHalf (c : Core) (g : Nat × Nat × Nat) : Option SeqHalf :=
  if c.seq.h0.seg == some g && !c.seq.h0.filling then some c.seq.h0
  else if c.seq.h1.seg == some g && !c.seq.h1.filling then some c.seq.h1 else none

/-- R167, R237, R267: the first cycle in which a core may issue plan cycle 0 of a segment: after its fill, when its
quarters are usable, and after every descriptor of the item's last segment has landed. -/
def readyFrom (s : State) (k : Nat) (g : Nat × Nat × Nat) : Option Nat :=
  let c := s.core k
  match fullHalf c g with
  | none => none
  | some h =>
    let ks := coresOf s g.1 g.2.1
    if unlanded s g.1 g.2.1 then none
    else some (max (cycleIn s h.fullAt + 1) (max (cycleIn s c.usable)
      ((ks.map (fun j => cycleIn s (s.core j).lastLanded + 1)).foldl max 0)))

/-- R78, R110, R119, R129, R150: a core at plan cycle 0 of a segment: registers and arrays clear, the generators
loaded. -/
def clearCore (c : Core) (g : Nat × Nat × Nat) (start lc seed : Nat) : Core :=
  { c with
    vregs := List.replicate 64 0, mregs := List.replicate 8 0, aregs := List.replicate 32 0,
    rng := (List.range 256).map (rngInit (BitVec.ofNat 32 seed) g.2.2 lc), arrays := [], ops := [], due := [],
    pairs := [], gone := [], accepted := 0, quarters := c.quarters.map (fun q => (q.1, { q.2 with usableAt := 0 })),
    upsets := c.upsets.filter (fun u => match u with
      | .word _ _ | .bundle _ _ | .entry _ _ => true
      | _ => false),
    seq := { st := .issuing, item := some g, start := start, h0 := c.seq.h0, h1 := c.seq.h1 } }

/-- R150, R267: loads the initial values of the address registers from the half that holds the segment; the slots are free. -/
def loadAregs (g : Nat × Nat × Nat) (c : Core) : Core :=
  match fullHalf c g with
  | some h => { c with slots := [], aregs := (List.range 32).map (fun k => if k == 0 then 0 else nth h.aregs k 0) }
  | none => c

/-- R167: plan cycle 0 on a core: it issues, or it holds for what is not ready. -/
def enterSegment (k : Nat) (g : Nat × Nat × Nat) (s : State) : State :=
  let c := s.core k
  if (readyFrom s k g).any (fun r => decide (r ≤ c.seq.start)) then s.setCore k (loadAregs g c)
  else s.setCore k { c with seq := { c.seq with st := .hold true c.seq.start, hold := { c.seq.hold with episodes := 1 } } }

/-- R335: whether a segment that could not start in what was left of the frame in which it was ready (after the segment before
it, in the frame head of a re-issue, or from the item's admission) starts elsewhere than at cycle 1,024 of this later frame. -/
def lateStart (s : State) (x : Parcel) (i : Item) (v : Plan) (start : Nat) : Bool :=
  let ready := if i.begun then (i.segFrame, i.segEnd + 1)
    else if i.reissued then later x.noSegBefore (i.segFrame + 1, 0) else later x.noSegBefore i.admitted
  decide (ready.1 < s.time.postmark) && decide (s.time.period < max 1024 ready.2 + imgL v.image i.seg + imgH v.image i.seg)
    && start != 1024

/-- R44, R46, R335: whether a segment of an item may start in this frame at a cycle: the first one as R335 says, each further
one in the frame after the one before it. -/
def mayStart (s : State) (p : Nat) (i : Item) (v : Plan) (start : Nat) : Bool :=
  let x := s.parcel p
  inService x && !noSegments s && i.tenancy == x.running && (headItem x).any (fun j => j.seq == i.seq)
    && !i.segRunning && decide (i.seg < v.segments) && decide (1024 ≤ start)
    && later x.noSegBefore (s.time.postmark, start) == (s.time.postmark, start)
    && decide (start + imgL v.image i.seg + imgH v.image i.seg ≤ s.time.period)
    && !lateStart s x i v start && (!i.begun || !i.reissuePending && i.segFrame + 1 == s.time.postmark)

/-- R44, R78, R150, R167, R280, R427, R544: SEGMENT_START: every core of an item issues plan cycle 0 of a segment in
one intra-frame cycle. -/
def execSegmentStart (parcel seq start : Nat) (s : State) : Host.Outcome State Fault Refusal :=
  match (s.parcel parcel).item seq with
  | none => .next s
  | some i =>
    match s.planFor parcel i with
    | none => .next s
    | some v =>
      if !mayStart s parcel i v start || !i.isPlan then .next s
      else
        let s := s.atCycle start
        let lcs := (unitCores (s.parcel parcel) v.unit).getD []
        let x := s.parcel parcel
        match lcs.find? (fun c => !coreUp s (x.phys c)) with
        | some lc => fin (failItem parcel seq { status := .coreFenced, core := lc } 0 s)
        | none =>
          let w := if i.begun then (.ok, 0, s) else batchStart parcel i s
          let s := w.2.2
          let cur := if i.begun then i.cursors else lcs.map (fun c => (c, (tblGet x.cursors c).getD 0))
          let i := { i with
            begun := true, segRunning := true, segStart := start, segFrame := s.time.postmark, reissuePending := false,
            cursors := cur, exc := if i.begun then i.exc else [0, 0, 0, 0] }
          let s := s.modItem parcel seq (fun _ => i)
          if w.1 != .ok then
            fin (failItem parcel seq { status := w.1.item, seg := i.seg, addr := w.2.1, lotSlot := w.2.1 / 2 ^ 30 } 0 s)
          else
            let g := (parcel, seq, i.seg)
            let s := lcs.foldl (fun s c => s.modCore (x.phys c) (fun y => clearCore y g start c v.seed)) s
            let s := lcs.foldl (fun s c => enterSegment (x.phys c) g s) s
            fin (thermNote parcel v s)

/-- R166: the segment that a core fills next, if it is known. -/
def nextFill (s : State) (k : Nat) : Option (Nat × Nat × Nat) :=
  match parcelOfCore s k with
  | none => none
  | some p =>
    let x := s.parcel p
    let items := x.items.filter Item.isPlan
    let own := items.find? (fun i => i.begun && !i.reissuePending && (itemCores s p i).contains k)
    let further := own.bind (fun i => (s.planFor p i).bind (fun v =>
      let n := i.seg + b2n i.segRunning
      if n < v.segments then some (p, i.seq, n) else none))
    match further with
    | some g => some g
    | none =>
      match items.find? (fun i => i.reissuePending && (itemCores s p i).contains k) with
      | some i => some (p, i.seq, 0)
      | none => (items.find? (fun i => !i.begun && i.tenancy == x.running && (itemCores s p i).contains k)).map
          (fun i => (p, i.seq, 0))

/-- R190: the parcel-virtual address of byte o of a loaded image. -/
def imageAt (v : Plan) (o : Nat) : Nat := v.slot * 2 ^ 30 + v.offset + o

/-- R165, R166, R185: reads a segment of a core from the plan's storage lots: directory, bundles, descriptors. -/
def readSegment (p : Nat) (i : Item) (v : Plan) (lc seg : Nat) (s : State) : MRes × Nat × SeqHalf × State :=
  let c : MCtx := { ten := i.tenancy, seq := i.seq }
  let sec := (imgSection v.image lc).getD 0
  let d := pvRead p i.tenancy (imageAt v (imgDir sec seg)) 160 false c s
  if d.1 != .ok then (d.1, d.2.1, {}, d.2.2.2)
  else
    let dir := d.2.2.1
    let nb := le dir 4 2
    let nd := le dir 6 2
    let b := pvRead p i.tenancy (imageAt v (sec + le dir 0 4)) (32 * nb) false c d.2.2.2
    if b.1 != .ok then (b.1, b.2.1, {}, b.2.2.2)
    else
      let t := pvRead p i.tenancy (imageAt v (sec + le dir 8 4)) (64 * nd) false c b.2.2.2
      if t.1 != .ok then (t.1, t.2.1, {}, t.2.2.2)
      else (.ok, 0, {
        seg := some (p, i.seq, seg), filling := true, later := true,
        bundles := (List.range nb).map (fun n => slice b.2.2.1 (32 * n) 32),
        descs := (List.range nd).map (fun n => slice t.2.2.1 (64 * n) 64),
        aregs := (List.range 32).map (fun n => BitVec.ofNat 32 (le dir (16 + 4 * n) 4)) }, t.2.2.2)

/-- R166: SEQUENCER_FILL_START: a free half of a core begins to fill with the core's next segment. DESIGN CHOICE (log entry
65): all bytes are read from the plan's storage lots now, and the half counts as whole at SEQUENCER_FILL_COMPLETE. -/
def execSequencerFillStart (core : Nat) (s : State) : Host.Outcome State Fault Refusal :=
  let q := (s.core core).seq
  match nextFill s core with
  | none => .next s
  | some g =>
    if q.h0.seg == some g || q.h1.seg == some g || (q.h0.seg.isSome && q.h1.seg.isSome) then .next s
    else match (s.parcel g.1).item g.2.1 with
      | none => .next s
      | some i =>
        match s.planFor g.1 i with
        | none => .next s
        | some v =>
          let lc := ((s.parcel g.1).logical core).getD 0xFFFF
          let r := readSegment g.1 i v lc g.2.2 s
          if r.1 == .ok then
            .next (r.2.2.2.modCore core (fun c =>
              let second := c.seq.h0.seg.isSome
              { c with seq := if second then { c.seq with h1 := r.2.2.1 }
                else { c.seq with h0 := r.2.2.1, h1 := { c.seq.h1 with later := false } } }.heal (fun u =>
                match u with
                | .bundle b _ | .entry b _ => b == second
                | _ => false)))
          else
            fin (failItem g.1 g.2.1 ⟨r.1.item, 0xFF, lc, g.2.2, 0xFF, 0xFFFF, r.2.1, r.2.1 / 2 ^ 30⟩ 0 r.2.2.2)

/-- R166: whether the fill that completes next is the first half's: of two under way, the one that began first. -/
def Seq.firstFills (q : Seq) : Bool := q.h0.filling && (!q.h1.filling || q.h1.later)

/-- R166, R167: SEQUENCER_FILL_COMPLETE: the half that fills holds its whole segment from an intra-frame cycle on; of two that
fill, the one that began first. -/
def execSequencerFillComplete (core at_ : Nat) (s : State) : Host.Outcome State Fault Refusal :=
  let f (h : SeqHalf) : SeqHalf := if h.filling then { h with filling := false, fullAt := (s.time.postmark, at_) } else h
  .next ((s.atCycle at_).modCore core (fun c => { c with
    seq := if c.seq.firstFills then { c.seq with h0 := f c.seq.h0 } else { c.seq with h1 := f c.seq.h1 } }))

/-- R167, R169: the cycle in which a core's hold ends, once what it waits for is known. -/
def resumeAt (s : State) (k : Nat) (c : Core) : Option Nat :=
  match c.seq.st, c.seq.item with
  | .hold true since, some g => (readyFrom s k g).map (max since)
  | .hold false since, some _ =>
    let ds := (c.descs.map (·.2)).filter (fun d => decide (d.planDl ≤ c.seq.plan))
    if ds.any (fun d => d.completeAt.isNone) then none
    else if (failingSlots c since).isEmpty then some since
    else some (max (since + 1) ((ds.map (fun (d : Desc) => d.completeAt.getD 0 + 1)).foldl max 0))
  | _, _ => none

/-- R49, R174: the item of a core that holds fails in the cycle in which its hold first exceeds the bound. -/
def overrun (k since : Nat) (h : Nat) (s : State) : State :=
  let n := (s.core k).seq.hold.cycles
  failOn k .frameOverrun 0xFF 0xFF 0 (s.atCycle (since + (h - n)))

/-- R169, R170, R174: HOLD_RESUME: a core leaves its hold in the cycle after the awaited data has landed and issues on
from the same plan cycle, unless its hold has exceeded the bound. A hold whose data was there in time ends in the cycle in
which it began and was none. -/
def execHoldResume (core at_ : Nat) (s : State) : Host.Outcome State Fault Refusal :=
  let c := s.core core
  match c.seq.st, runOf s core, c.seq.item with
  | .hold fill since, some (_, i, some v), some g =>
    if resumeAt s core c != some at_ then .next s
    else
      let h := imgH v.image i.seg
      let held := c.seq.hold.cycles + (at_ - since)
      if h < held then fin (overrun core since h s)
      else
        let hold := if at_ == since then dropEpisode c.seq.hold else { c.seq.hold with cycles := held }
        let c := { c with seq := { c.seq with st := .issuing, hold := hold } }
        let c := if fill then loadAregs g c else c
        fin (runCore core (checkDeadline core ((s.atCycle at_).setCore core c)))
  | _, _, _ => .next s

/-- Whether a core's hold is one: what it waits for was not there in time. -/
def realHold (s : State) (k : Nat) (c : Core) : Bool :=
  match c.seq.st, c.seq.item with
  | .hold true since, some g => !(readyFrom s k g).any (fun r => decide (r ≤ since))
  | .hold false since, some _ => !(failingSlots c since).isEmpty
  | _, _ => false

/-- R49, R171, R276: the hold count of a core reaches H + 1 and ends the segment. -/
def boundRow (core at_ : Nat) (s : State) : Host.Outcome State Fault Refusal :=
  let c := s.core core
  match c.seq.st, runOf s core with
  | .hold _ since, some (_, i, some v) =>
    if realHold s core c && since ≤ at_ && c.seq.hold.cycles + (at_ + 1 - since) == imgH v.image i.seg + 1 then
      fin (failOn core .frameOverrun 0xFF 0xFF 0 (s.atCycle at_))
    else .next s
  | _, _ => .next s

/-- R49, R171, R276: HOLD_BOUND_EXCEEDED. -/
def execHoldBoundExceeded (core at_ : Nat) (s : State) : Host.Outcome State Fault Refusal :=
  withLate core at_ (boundRow core at_) s

/-- R485, R590: the entry of a submission ring that the ZMP takes: it writes SEQ and ADMITTED into it. -/
def writeAdmitted (n k seq : Nat) (s : State) : State :=
  let b := s.block n
  match hostWrite s n (b.req.addr k 64 + 56) (leBytes seq 4 ++ [1]) with
  | some s => s
  | none => ringFail n s

/-- R331, R485, R486: ITEM_ADMIT: the ZMP takes the next entry of the submission ring of a block. -/
def execItemAdmit (block : Nat) (s : State) : Host.Outcome State Fault Refusal :=
  let b := s.block block
  match boundTo s block with
  | none => .next s
  | some (p, t) =>
    if !s.power.ready || !mayAdmit s p t || b.readStopped || b.req.head == b.req.tail || !roomFor s p t
        || 16 ≤ (tenItems s p t).length then .next s
    else match hostRead s block (b.req.addr b.req.head 64) 64 with
      | none => fin (ringFail block (s.setBlock block { b with readStopped := true }))
      | some e =>
        let q := takeSeq p t s
        let s := q.2.setBlock block { b with req := { b.req with head := wrap32 (b.req.head + 1) } }
        let s := writeAdmitted block b.req.head q.1 s
        fin (admitItem p { seq := q.1, tenancy := t, itemId := le e 0 4, length := le e 4 4, userTag := le e 8 8 } s)

/-- R301, R302, R348: ITEM_REISSUE: in the frame head after its failure the item comes first in its parcel's work list
and will run again from its first segment, with its exception counters at zero (R89). -/
def execItemReissue (parcel : Nat) (s : State) : Host.Outcome State Fault Refusal :=
  match (s.parcel parcel).items.find? (fun i => i.reissuePending && i.begun) with
  | some i =>
    if inHead s && decide (i.segFrame < s.time.postmark) && !s.power.holdOn then
      let j := { i with begun := false, seg := 0, exc := [0, 0, 0, 0] }
      .next (s.modParcel parcel (fun x => { x with items := j :: x.items.filter (fun y => y.seq != i.seq) }))
    else .next s
  | none => .next s

end Sys2Proof.Machine
end

