-- ==== Sys2Proof/Machine/Power.lean ====
section
/-! DEFINITION. Power and temperature (16 R561 to R566, R577 to R581; 08 R305 to R309): the removal of power, the
samples of temperature and power, and the reference clock. -/

namespace Sys2Proof.Machine

/-- R565: the rails of each stage. -/
def railStages : List (List Rail) := [[.hotSwap], [.aux], [.hub], [.hbm], (List.range 8).map .cd]

/-- R565: one stage: its rails come into regulation one after the other, once those of the stage before are. -/
def raiseStage (before now : List Rail) (s : State) : State :=
  if before.all s.power.rails.contains then
    { s with power := { s.power with rails := s.power.rails ++ now }, outputs := s.outputs ++ now.map (.rail · true) }
  else s

/-- R565: stages 1 to 5, in order. -/
def raiseRails (s : State) : State := (([] :: railStages).zip railStages).foldl (fun s x => raiseStage x.1 x.2 s) s

/-- R566: PWR_GOOD is deasserted at once, then the rails are removed in reverse order. -/
def dropRails (s : State) : State :=
  { s with
    power := { s.power with rails := [], good := false }
    outputs := s.outputs ++ (if s.power.good then [.pwrGood false] else []) ++ s.power.rails.reverse.map (.rail · false) }

/-- R572: GLOBAL_STATUS.BOOT_STAGE shows the step that begins. -/
def bootStep (n : Nat) (s : State) : State :=
  { s with power := { s.power with bootStage := n }, outputs := s.outputs ++ [.bootStage n] }

/-- R561, R566, R568: power is removed: everything is lost but what fuses, boot storage and pins hold; with `latch`
the module stays off until the input has fallen below 47.0 V. -/
def powerOff (latch : Bool) (s : State) : State :=
  { State.reset with
    pending := s.pending, free := s.free, host := s.host, outputs := (dropRails s).outputs
    store := { s.store with rowSeen := [], laneReplays := [] }
    power := {
      inputMv := s.power.inputMv, latchOff := latch || s.power.latchOff, modResetL := s.power.modResetL
      refclk := s.power.refclk, sbSel := s.power.sbSel, slotId := s.power.slotId }
    pcie := { perst := s.pcie.perst } }

/-- R565, R572, R573: the rails rise stage by stage; with the last of them in regulation PWR_GOOD is asserted, and step 1 of
the cold boot begins in the frame of postmark 0. -/
def powerUp (s : State) : State :=
  let s := raiseRails s
  bootStep 1 { s with power := { s.power with good := true }, outputs := s.outputs ++ [.pwrGood true] }

/-- Records the input voltage. -/
def setMv (mv : Nat) (s : State) : State := { s with power := { s.power with inputMv := mv } }

/-- R562, R565: POWER_ON: the input rises above 49.0 V; the module starts unless a latched cause or MOD_RESET_L keeps
it off. -/
def execPowerOn (millivolts : Nat) (s : State) : Host.Outcome State Fault Refusal :=
  let s := setMv millivolts s
  if s.power.good || s.power.latchOff || s.power.modResetL || millivolts ≤ 49000 then .next s
  else .next (powerUp s)

/-- R562, R566: UNDERVOLTAGE: below 47.0 V the latched causes are over; after 1 ms power is removed. -/
def execUndervoltage (millivolts microseconds : Nat) (s : State) : Host.Outcome State Fault Refusal :=
  let s := setMv millivolts s
  if 47000 ≤ millivolts then .next s
  else
    let s := if s.power.good && 1000 ≤ microseconds then powerOff false s else s
    .next { s with power := { s.power with latchOff := false } }

/-- R562, R566: OVERVOLTAGE: above 62 V for 1 ms, or above 65 V at any instant, power is removed and stays off. -/
def execOvervoltage (millivolts microseconds : Nat) (s : State) : Host.Outcome State Fault Refusal :=
  let s := setMv millivolts s
  if s.power.good && (decide (65000 < millivolts) || (decide (62000 < millivolts) && decide (1000 ≤ microseconds))) then
    .next (powerOff true s)
  else .next s

/-- R564, R566: POWER_OVERDRAW: an average above 4,000 W over 10 ms removes power until the input has fallen below
47.0 V. -/
def execPowerOverdraw (watts : Nat) (s : State) : Host.Outcome State Fault Refusal :=
  if s.power.good && decide (4000 < watts) then .next (powerOff true s) else .next s

/-- R566, R589: MOD_RESET_L: power is removed while the pin is low. -/
def execModResetL (s : State) : Host.Outcome State Fault Refusal :=
  let s := powerOff false s
  .next { s with power := { s.power with modResetL := true } }

/-- R566: MOD_RESET_L_DEASSERT: sequencing restarts at stage 1, if the input allows it. -/
def execModResetLDeassert (s : State) : Host.Outcome State Fault Refusal :=
  let s' := { s with power := { s.power with modResetL := false } }
  if s.power.modResetL && !s.power.latchOff && decide (49000 < s.power.inputMv) then .next (powerUp s') else .next s'

/-- R577, R589: REFCLK_LOSS: the PLLs hold over, the PCIe link goes down, and items run on. -/
def execRefclkLoss (s : State) : Host.Outcome State Fault Refusal :=
  if s.power.refclk && s.power.good then
    fin (internalEvent 0x101 { s with
      power := { s.power with refclk := false }, pcie := { s.pcie with linkUp := false, cfgReady := false } })
  else .next { s with power := { s.power with refclk := false } }

/-- R569: whether the write-back of a warm reset is still going on: the link does not train before its end. -/
def writingBack (s : State) : Bool := s.power.bootWarm && s.power.selfRefresh && s.power.bootStage == 0

/-- R577: REFCLK_RETURN: the PLLs relock without a lost cycle; the link trains if PERST# allows it. -/
def execRefclkReturn (s : State) : Host.Outcome State Fault Refusal :=
  .next { s with
    power := { s.power with refclk := true }
    pcie := { s.pcie with linkUp := s.pcie.linkUp || (s.power.good && !s.pcie.perst && !writingBack s) } }

/-- R308, R563: a reading calls for a thermal hold; the first call of a frame stands. -/
def callHold (cause : Nat) (s : State) : State :=
  if s.power.holdDue != 0 && s.power.holdAt != s.time.postmark then s
  else { s with power := { s.power with holdDue := if cause == 1 || s.power.holdDue == 0 then cause else s.power.holdDue, holdAt := s.time.postmark } }

/-- R459: a temperature sample of a sensor of R585: its sum and count since the sensors were last read. -/
def averaged (sensor t : Nat) (s : State) : State :=
  let a := (tblGet s.telem.acc sensor).getD (0, 0)
  { s with telem := { s.telem with acc := tblPut s.telem.acc sensor (a.1 + t, a.2 + 1) } }

/-- R578: the band of a die temperature in quarters of a degree. -/
def dieLevel (t : Nat) : Nat := if t ≤ 380 then 0 else if t ≤ 400 then 1 else if t ≤ 440 then 2 else 3

/-- R305, R309: the band of a stack temperature. -/
def stackLevel (t : Nat) : Nat :=
  if t ≤ 340 then 0 else if t ≤ 380 then 1 else if t ≤ 420 then 2 else if t ≤ 460 then 3 else 4

/-- R583, R587: the transport that SB_SEL straps. -/
def sideBus (s : State) : SideBus := if s.power.sbSel then .smbus else .i3c

/-- R587: the module's static address on the sideband: SLOT_ID gives its low bits (log entry 45). -/
def sideAddr (s : State) : Nat := Config.sideAddrHigh * 8 + s.power.slotId % 8

/-- R584: a platform event of a sensor whose band has changed. -/
def bandEvent (sensor old new value : Nat) (s : State) : State :=
  if old == new then s else { s with outputs := s.outputs ++ [.pldmEvent (sideBus s) (sideAddr s) sensor value] }

/-- R305, R306: one stack's sample: a rise of the refresh factor takes effect now. -/
def stackSample (k t : Nat) (s : State) : State :=
  let x := s.stack k
  if x.unreachable then s
  else
    let f := max x.refresh (refreshAt t)
    let below := [nth x.below 0 true && decide (t ≤ 328), nth x.below 1 true && decide (t ≤ 368)]
    let s := s.setStack k { x with temp := t, refresh := f, below := below, sampled := true }
    let s := averaged (13 + k) t (bandEvent (13 + k) (stackLevel x.temp) (stackLevel t) (t / 4) s)
    if f == x.refresh then s else refreshEvent k s

/-- R306, R578: one compute die's sample: a rise above 95 °C takes effect now. -/
def dieSample (d t : Nat) (s : State) : State :=
  let x := s.die d
  if x.lost then s
  else averaged (4 + d) t (bandEvent (4 + d) (dieLevel x.temp) (dieLevel t) (t / 4) (s.setDie d { x with
    temp := t, hot := x.hot || decide (380 < t), below := x.below && decide (t ≤ 368) }))

/-- R307: notes for every parcel the segment it runs above its plan's grade. -/
def thermNotes (s : State) : State :=
  (liveParcels s).foldl (fun s p =>
    ((s.parcel p).items.filter (·.segRunning)).foldl (fun s i =>
      match s.planFor p i with
      | some v => thermNote p v s
      | none => s) s) s

/-- R305 to R309, R563, R578 to R581, R584: TEMP_SAMPLE: the readings of every sensor; a rise takes effect in this
sample, a shutdown removes power. -/
def execTempSample (t : Temps) (s : State) : Host.Outcome State Fault Refusal :=
  if !s.power.good then .next s
  else
    let s := averaged 12 t.hub (bandEvent 12 (dieLevel s.power.hubTemp) (dieLevel t.hub) (t.hub / 4) s)
    let s := { s with power := { s.power with
      hubTemp := t.hub, regTemp := t.regulator, sampled := true
      hubHot := s.power.hubHot || decide (380 < t.hub), hubBelow := s.power.hubBelow && decide (t.hub ≤ 368) } }
    let s := (List.range 12).foldl (fun s k => stackSample k (nth t.hs k 0) s) s
    let s := (List.range 8).foldl (fun s d => dieSample d (nth t.cd d 0) s) s
    let dies := dieTemps s
    let hss := stackTemps s
    if dies.any (fun x => decide (440 < x)) || hss.any (fun x => decide (460 < x)) || decide (500 < t.regulator) then
      .next (powerOff true s)
    else
      let hot := dies.any (fun x => decide (400 < x)) || hss.any (fun x => decide (420 < x))
      let s := { s with power := { s.power with frameCool := s.power.frameCool && coolNow s } }
      let s := if hot then callHold 1 s else s
      fin (setAlert (thermNotes s))

/-- R563: POWER_SAMPLE: the 1 s average of the input and the 100 ms averages of the dies against the hold limits; the input
voltage is sampled with them (R585). -/
def execPowerSample (inputW : Nat) (dieW : List Nat) (s : State) : Host.Outcome State Fault Refusal :=
  if !s.power.good then .next s
  else
    let s := averaged 2 s.power.inputMv { s with power := { s.power with inputW := inputW } }
    let s : State := (List.range 8).foldl (fun (s : State) d => s.setDie d { s.die d with powerW := nth dieW d 0 }) s
    let high := decide (3400 < inputW) || (List.range 8).any (fun (d : Nat) => !(s.die d).lost && decide (290 < (s.die d).powerW))
    let s := if high then callHold 2 s else s
    .next { s with power := { s.power with frameCool := s.power.frameCool && coolNow s } }

end Sys2Proof.Machine
end

