-- ==== Sys2Proof/Machine/Identity.lean ====
section
/-! DEFINITION. The keys and certificates that the security module derives at boot (12 R432, R436, R454) and the SPDM 1.3
key schedule (R432, R437). The layouts of DER, of the TCG DICE TcbInfo and of the SPDM key schedule are the named standards'
(R23; log entry 10). -/

namespace Sys2Proof.Machine

/-- HMAC_DRBG with SHA-256, seeded from the hub's entropy source at a draw (R430; log entry 10). -/
def drbgAt (n : Nat) : Drbg := drbgSeed (Config.entropy n)

/-- R432: the device identity key: a key pair from HMAC_DRBG seeded with HMAC(UDS, "XA2 DIK"). -/
def dikKey : Nat := p256Key 64 (drbgSeed (hmac (slice Config.uds 0 32) (ascii "XA2 DIK")))

/-- R432: the storage key. -/
def storageKey : List Byte := hmac (slice Config.uds 0 32) (ascii "XA2 STORE")

/-- R455: DIK_ID: the SHA-256 of the device identity public key. -/
def dikId : List Byte := sha256 (p256Point dikKey)

/-- R432: CDI1 of the measurements: HMAC(CDI0, M2 ‖ M3 ‖ M4), where CDI0 is HMAC(UDS, M1 ‖ M5). -/
def cdiOf (m : List (List Byte)) : List Byte :=
  let r (k : Nat) : List Byte := slice (nth m k []) 0 32
  hmac (hmac (slice Config.uds 0 32) (r 1 ++ r 5)) (r 2 ++ r 3 ++ r 4)

/-- R432: the alias key: a key pair from HMAC_DRBG seeded with CDI1. -/
def aliasOf (cdi1 : List Byte) : Nat := p256Key 64 (drbgSeed cdi1)

/-- X.690: one DER value of a tag, below 65,536 bytes. -/
def der (tag : Nat) (c : List Byte) : List Byte :=
  let n := c.length
  BitVec.ofNat 8 tag ::
    ((if n < 128 then beBytes n 1 else if n < 256 then 0x81 :: beBytes n 1 else 0x82 :: beBytes n 2) ++ c)

/-- X.690: a DER integer below 2^256. -/
def derInt (x : Nat) : List Byte :=
  let n := ((List.range 33).filter (fun k => decide (2 ^ (8 * k) ≤ 2 * x))).length
  der 2 (beBytes x (max n 1))

/-- R430: an ECDSA P-256 signature of a digest, its secret number from the random bits of a draw. -/
def signWith (key n : Nat) (digest : List Byte) : Nat × Nat := ecdsaSign key (p256Key 64 (drbgAt n)) digest

/-- The TcbInfo extension of TCG DICE that carries M1 to M5: a list of SHA-256 digests (R436). -/
def tcbInfo (m : List (List Byte)) : List Byte :=
  let oid (l : List Byte) : List Byte := der 6 l
  let fwid (k : Nat) : List Byte :=
    der 0x30 (oid [0x60, 0x86, 0x48, 0x01, 0x65, 0x03, 0x04, 0x02, 0x01] ++ der 4 (slice (nth m k []) 0 32))
  der 0x30 (oid [0x67, 0x81, 0x05, 0x05, 0x04, 0x01] ++ der 4 (der 0x30 (der 0xA6 ([1, 2, 3, 4, 5].flatMap fwid))))

/-- ecdsa-with-SHA256 as an algorithm identifier. -/
def ecdsaAlg : List Byte := der 0x30 (der 6 [0x2A, 0x86, 0x48, 0xCE, 0x3D, 0x04, 0x03, 0x02])

/-- A P-256 public key as a SubjectPublicKeyInfo. -/
def spki (point : List Byte) : List Byte :=
  der 0x30 (der 0x30 (der 6 [0x2A, 0x86, 0x48, 0xCE, 0x3D, 0x02, 0x01] ++
    der 6 [0x2A, 0x86, 0x48, 0xCE, 0x3D, 0x03, 0x01, 0x07]) ++ der 3 (0 :: point))

/-- R436: the alias certificate, issued by the device identity key: the alias public key and the TcbInfo of M1 to M5. The secret
number of its signature comes from the random bits of draw n (R430). -/
def aliasCert (n alias_ : Nat) (m : List (List Byte)) : List Byte :=
  let point := p256Point alias_
  let tbs := der 0x30 (Config.aliasNames point ++ spki point ++ der 0xA3 (der 0x30 (tcbInfo m ++ Config.aliasExts)))
  let g := signWith dikKey n (sha256 tbs)
  der 0x30 (tbs ++ ecdsaAlg ++ der 3 (0 :: der 0x30 (derInt g.1 ++ derInt g.2)))

/-- R436: the chain of SPDM slot 0: the root, the device authority, the DIK and the alias certificate, in the form that SPDM
gives a chain. -/
def certChain (cert : List Byte) : List Byte :=
  let certs := Config.rootCert ++ Config.caCert ++ Config.dikCert ++ cert
  leBytes (certs.length + 36) 2 ++ zeros 2 ++ sha256 Config.rootCert ++ certs

/-- The SPDM 1.3 key schedule: n bytes from a secret, a label and a context. -/
def spdmExpand (secret : List Byte) (label : String) (context : List Byte) (n : Nat) : List Byte :=
  expand secret (leBytes n 2 ++ ascii "spdm1.3 " ++ ascii label ++ context) n

/-- The SPDM 1.3 key schedule: the two secrets of a phase, requester's and responder's, from its main secret and the digest
of the transcript. -/
def spdmPair (main : List Byte) (phase : String) (digest : List Byte) : List Byte × List Byte :=
  (spdmExpand main ("req " ++ phase) digest 32, spdmExpand main ("rsp " ++ phase) digest 32)

/-- The SPDM 1.3 key schedule: the handshake secret of an ECDH secret, and the master secret after it. -/
def spdmHandshake (shared : List Byte) : List Byte := hmac (zeros 32) shared
def spdmMaster (handshake : List Byte) : List Byte := hmac (spdmExpand handshake "derived" [] 32) (zeros 32)

/-- The SPDM 1.3 key schedule: the key and the IV with which a direction of a session is protected. -/
def spdmKeyIv (secret : List Byte) : List Byte × List Byte := (spdmExpand secret "key" [] 32, spdmExpand secret "iv" [] 12)

/-- The SPDM 1.3 key schedule: the verification data of a direction over a transcript's digest. -/
def spdmVerify (secret digest : List Byte) : List Byte := hmac (spdmExpand secret "finished" [] 32) digest

/-- The SPDM 1.3 key schedule: a secret after KEY_UPDATE. -/
def spdmUpdated (secret : List Byte) : List Byte := spdmExpand secret "traffic upd" [] 32

end Sys2Proof.Machine
end

