-- ==== Sys2Proof/Machine/UpdMath.lean ====
section
/-! DEFINITION. The arithmetic of the update engine (10 R357 to R375, R391): the group entry, the operations rounded to
FP32 with their exceptions, the rules, update programs, and the tally. -/

namespace Sys2Proof.Machine

/-- R357: fields of a group entry. -/
def gRule (g : List Byte) : Nat := le g 0 1
def gProgram (g : List Byte) : Nat := le g 1 1
def gFlags (g : List Byte) : Nat := le g 2 2
def gStep (g : List Byte) : Nat := le g 4 4
def gLr (g : List Byte) : Nat := le g 8 4
def gWd (g : List Byte) : Nat := le g 12 4
def gBeta1 (g : List Byte) : Nat := le g 16 4
def gBeta2 (g : List Byte) : Nat := le g 20 4
def gEps (g : List Byte) : Nat := le g 24 4
def gClip (g : List Byte) : Nat := le g 28 4
def gPolicy (g : List Byte) : Nat := le g 32 1
def gNslots (g : List Byte) : Nat := le g 33 1
def gFrozenSkip (g : List Byte) : Nat := le g 34 6
def gRows (g : List Byte) : Nat := le g 40 4
def gCols (g : List Byte) : Nat := le g 44 4
def gWAddr (g : List Byte) : Nat := le g 48 8
def gM1Addr (g : List Byte) : Nat := le g 56 8
def gM2Addr (g : List Byte) : Nat := le g 64 8
def gStage (g : List Byte) : Nat := le g 72 8
def gSparseAddr (g : List Byte) : Nat := le g 80 8
def gSlotAddr (g : List Byte) (k : Nat) : Nat := le g (88 + 8 * k) 8
def gShards (g : List Byte) : Nat := le g 152 2
def gShard (g : List Byte) : Nat := le g 154 2
def gChannel (g : List Byte) : Nat := le g 156 2

/-- R358: flags of a group entry. -/
def gValid (g : List Byte) : Bool := bit (gFlags g) 0
def gFrozen (g : List Byte) : Bool := bit (gFlags g) 1
def gSparse (g : List Byte) : Bool := bit (gFlags g) 2
def gSharded (g : List Byte) : Bool := bit (gFlags g) 3
def gWfmt (g : List Byte) : Bool := bit (gFlags g) 4
def gM1 (g : List Byte) : Bool := bit (gFlags g) 5
def gM2 (g : List Byte) : Bool := bit (gFlags g) 6
def gNesterov (g : List Byte) : Bool := bit (gFlags g) 7
def gTrust (g : List Byte) : Bool := bit (gFlags g) 8
def gSkipNf (g : List Byte) : Bool := bit (gFlags g) 9
def gSkew (g : List Byte) : Bool := bit (gFlags g) 10
def gLocked (g : List Byte) : Bool := bit (gFlags g) 11

/-- Sets or clears a flag of a group entry. -/
def gSetFlag (k : Nat) (on : Bool) (g : List Byte) : List Byte :=
  let f := gFlags g
  let v := if bit f k == on then f else if on then f + 2 ^ k else f - 2 ^ k
  overlay g 2 (leBytes v 2)

/-- R359: elements of a group, and the padded count. -/
def gN (g : List Byte) : Nat := gRows g * gCols g
def gNp (g : List Byte) : Nat := 32 * ((gN g + 31) / 32)

/-- R359: bytes of a weight. -/
def gWb (g : List Byte) : Nat := if gWfmt g then 4 else 2

/-- R359: whether the second moment region holds blocks (and not factors). -/
def gM2Blocks (g : List Byte) : Bool := gM2 g && gRule g != 3

/-- R359, R382: the state regions of a group with their sizes in bytes: weights, first moment, second moment or
factors. -/
def gRegions (g : List Byte) : List (Nat × Nat) :=
  [(gWAddr g, gWb g * gN g)] ++ (if gM1 g then [(gM1Addr g, 33 * gNp g / 32)] else []) ++
    (if gM2 g then [(gM2Addr g, if gRule g == 3 then 4 * (gRows g + gCols g) else 33 * gNp g / 32)] else [])

/-- R382: lot slots that a region fills. -/
def slotsOf (size : Nat) : Nat := (size + 2 ^ 30 - 1) / 2 ^ 30

/-- R382: the pairs of a state slot and its staging slot. -/
def gStagePairs (g : List Byte) : List (Nat × Nat) :=
  let st := (gRegions g).flatMap (fun r => (List.range (slotsOf r.2)).map (r.1 / 2 ^ 30 + ·))
  st.zipIdx.map (fun x => (x.1, gStage g / 2 ^ 30 + x.2))

/-- R382: where pass 2 writes a state address: in place, or in the staging slot that mirrors it. -/
def gDest (g : List Byte) (v : Nat) : Nat :=
  if gSharded g then
    match (gStagePairs g).find? (fun x => x.1 == v / 2 ^ 30) with
    | some x => x.2 * 2 ^ 30 + v % 2 ^ 30
    | none => v
  else v

/-- R356: a value with the exceptions of the operations that made it. -/
abbrev XV := Nat × List Exc

/-- A value that no counted operation made. -/
def xLit (c : Nat) : XV := (c, [])

/-- The value alone: its exceptions are counted where it was made. -/
def xVal (a : XV) : XV := (a.1, [])

/-- R369: one operation rounded to FP32. -/
def xOp2 (f : FVal → FVal → Raw) (a b : XV) : XV :=
  let r := finish fmtFP32 (f (f32 a.1) (f32 b.1))
  (r.1, a.2 ++ b.2 ++ [r.2])

def xAdd (a b : XV) : XV := xOp2 rawAdd a b
def xSub (a b : XV) : XV := xOp2 (fun x y => rawAdd x (negV y)) a b
def xMul (a b : XV) : XV := xOp2 rawMul a b
def xDiv (a b : XV) : XV := xOp2 rawDiv a b
def xMin (a b : XV) : XV := xOp2 rawMin a b
def xMax (a b : XV) : XV := xOp2 rawMax a b

/-- a × b + c, rounded once. -/
def xFma (a b c : XV) : XV :=
  let r := finish fmtFP32 (rawFma (f32 a.1) (f32 b.1) (f32 c.1))
  (r.1, a.2 ++ b.2 ++ c.2 ++ [r.2])

/-- An operation of one operand. -/
def xOp1 (f : Nat → Nat × Exc) (a : XV) : XV := let r := f a.1; (r.1, a.2 ++ [r.2])

def xSqrt (a : XV) : XV := xOp1 tSqrt a

/-- R86, R356: one operation rounded to FP64: it counts a NaN made from numbers and a division by zero. -/
def x64 (r : Raw) (es : List Exc) : XV := (to64 r, es ++ [r.exc])

/-- R72, R86: an FP64 result rounded once to FP32, an overflow or a result rounded to zero counted. -/
def xNarrow (a : XV) : XV := let r := roundArith fmtFP32 false (f64 a.1); (r.1, a.2 ++ [r.2])

/-- R369: +1 or −1; +0 for a zero; NaN for NaN. -/
def signOf (c : Nat) : Nat :=
  let v := f32 c
  if v.isNan then fmtFP32.nanCode else if v.isZero then 0 else if v.neg? then 0xBF800000 else 0x3F800000

def one32 : Nat := 0x3F800000

/-- R369, R374: the t-th power of an FP32 code, in FP64. -/
def pow64 (c t : Nat) : Nat :=
  match f32 c with
  | .fin n m e => to64 (exact (.fin (n && t % 2 == 1) (m ^ t) (e * t)))
  | .inf n => to64 (exact (.inf (n && t % 2 == 1)))
  | _ => fmtFP64.nanCode

/-- R369: fp32(1 / (1 − beta^t)), power and quotient in FP64; 1 when beta is 0. -/
def biasOf (beta t : Nat) : Nat :=
  if (f32 beta).isZero then one32
  else
    let d := to64 (rawAdd (.fin false 1 0) (negV (f64 (pow64 beta t))))
    n64to32 (to64 (rawDiv (.fin false 1 0) (f64 d)))

/-- R374: a factor of a touched row: its k-th power, in FP64, rounded once to FP32. -/
def powRow (c k : Nat) : Nat := if k == 1 then c else n64to32 (pow64 c k)

/-- R86, R356: what forming that power counts: a non-zero power that becomes zero, a finite one that becomes infinite. -/
def powExc (c k : Nat) : List Exc :=
  let v := f32 (powRow c k)
  if k == 1 || !(f32 c).isFin then [] else if v.isZero && !(f32 c).isZero then [.underflow] else if !v.isFin then [.overflow]
  else []

/-- What pass 2 computes once per group (R369). -/
structure UpConst where
  t : Nat := 1
  cf : Nat := 0x3F800000
  om1 : Nat := 0
  om2 : Nat := 0
  bc1 : Nat := 0x3F800000
  bc2 : Nat := 0x3F800000
  a : Nat := 0x3F800000
  s : Nat := 0
  fac : List Nat := []
  fq : Option Nat := none
  deriving DecidableEq, Repr

/-- R369: the group's constants, with the exceptions of the operations on them. -/
def upConst (g : List Byte) (cf tr : Nat) : UpConst × List Exc :=
  let t := gStep g + 1
  let om1 := xSub (xLit one32) (xLit (gBeta1 g))
  let om2 := xSub (xLit one32) (xLit (gBeta2 g))
  let a := xSub (xLit one32) (xMul (xLit (gLr g)) (xLit (gWd g)))
  let s := xMul (xLit (gLr g)) (xLit tr)
  ({ t := t, cf := cf, om1 := om1.1, om2 := om2.1, bc1 := biasOf (gBeta1 g) t, bc2 := biasOf (gBeta2 g) t, a := a.1,
     s := s.1 }, om1.2 ++ om2.2 ++ a.2 ++ s.2)

/-- R363 with the exceptions of the additions. -/
def orderedSumX (l : List XV) : XV :=
  let cs := (chunksOf 4096 l.length l).map (fun c => match c with
    | [] => xLit 0
    | a :: r => r.foldl xAdd a)
  treeFold xAdd (xLit 0) cs.length cs

/-- The FP32 code of a natural number. -/
def ofNat32 (n : Nat) : Nat := to32 (exact (.fin false n 0))

/-- R369: the new factors: rows, then columns, and the quotient rows / sum_rr, none when the sum is 0. DESIGN CHOICE (log
entry 25): of a SHARDED group, ROWS and sum_rr are those of the local shard. -/
def factors (g : List Byte) (c : UpConst) (old rs cs : List Nat) : UpConst × List Exc :=
  let f (n : Nat) (o q : Nat) : XV :=
    xAdd (xMul (xLit (gBeta2 g)) (xLit o)) (xMul (xLit c.om2) (xDiv (xLit q) (xLit (ofNat32 n))))
  let rr := (List.range (gRows g)).map (fun i => f (gCols g) (nth old i 0) (nth rs i 0))
  let cc := (List.range (gCols g)).map (fun j => f (gRows g) (nth old (gRows g + j) 0) (nth cs j 0))
  let sum := orderedSumX (rr.map xVal)
  let q := if (f32 sum.1).isZero then none else some (xDiv (xLit (ofNat32 (gRows g))) (xLit sum.1))
  ({ c with fac := (rr ++ cc).map (·.1), fq := q.map (·.1) },
    (rr ++ cc).flatMap (·.2) ++ sum.2 ++ ((q.map (·.2)).getD []))

/-- R371: fields of an instruction word. -/
def upOp (w : Nat) : Nat := bits w 31 26
def upF (w : Nat) : UpF := ⟨bits w 25 23, bits w 22 18, bits w 17 13, bits w 12 8⟩

/-- R371: the constants that operand codes 8 to 22 name. -/
def upCodes (g : List Byte) (c : UpConst) : List Nat :=
  [gLr g, gWd g, gBeta1 g, gBeta2 g, gEps g, gClip g, c.bc1, c.bc2, c.om1, c.om2, 0, one32, 0x40000000, 0x3F000000,
    ofNat32 c.t]

/-- R371: the value of an operand code. -/
def upVal (cs u : List Nat) (k : Nat) : Nat := if k < 8 then nth u k 0 else nth cs (k - 8) 0

/-- R371: one instruction on the operand registers. -/
def upStep (cs : List Nat) (op : Nat) (f : UpF) (u : List Nat) : List Nat × List Exc :=
  let a := xLit (upVal cs u f.a)
  let b := xLit (upVal cs u f.b)
  let c := xLit (upVal cs u f.c)
  let r : XV :=
    if op == 1 then xAdd a b else if op == 2 then xSub a b else if op == 3 then xMul a b
    else if op == 4 then xFma a b c else if op == 5 then xDiv a b else if op == 6 then xSqrt a
    else if op == 7 then xOp1 tRsqrt a else if op == 8 then xMin a b else if op == 9 then xMax a b
    else if op == 10 then xLit (absLane 0 a.1) else if op == 11 then xLit (negLane 0 a.1)
    else if op == 12 then xLit (signOf a.1)
    else if op == 13 then
      (let v := f32 c.1
       if !v.isNan && !v.isZero && !v.neg? then a else b)
    else if op == 14 then xOp1 tExp2 a else if op == 15 then xOp1 tLog2 a
    else xLit (nth u f.d 0)
  (u.set f.d r.1, r.2)

/-- R371: runs a program; the exceptions of its first `skip` instructions have been counted already. -/
def upRun (cs : List Nat) (skip : Nat) : List Nat → Nat → List Nat → List Nat × List Exc
  | [], _, u => (u, [])
  | w :: r, k, u =>
    if upOp w == 0x3F then (u, [])
    else
      let x := upStep cs (upOp w) (upF w) u
      let y := upRun cs skip r (k + 1) x.1
      (y.1, (if k < skip then [] else x.2) ++ y.2)

/-- R371: the words of a stored program. -/
def progWords (bs : List Byte) : List Nat := (List.range 16).map (fun k => le bs (4 * k) 4)

/-- The powers of a row's stored factors (R374): beta1, beta2 and a. -/
structure RowPow where
  b1 : Nat
  b2 : Nat
  a : Nat
  deriving DecidableEq, Repr

/-- R374: the powers for a row whose age is known; those of other groups are the factors themselves. -/
def rowPow (g : List Byte) (c : UpConst) (age : Option Nat) : RowPow :=
  match age with
  | some n => ⟨powRow (gBeta1 g) (n + 1), powRow (gBeta2 g) (n + 1), powRow c.a (n + 1)⟩
  | none => ⟨gBeta1 g, gBeta2 g, c.a⟩

/-- R356, R374: the exceptions of a row's powers, of those factors that the group's rule multiplies a stored moment or the weight
by. -/
def rowExc (g : List Byte) (c : UpConst) (age : Option Nat) : List Exc :=
  match age with
  | some n => powExc (gBeta1 g) (n + 1) ++ (if gRule g == 0 then [] else powExc (gBeta2 g) (n + 1)) ++ powExc c.a (n + 1)
  | none => []

/-- What an element's update gives: the new weight before narrowing, the new moments, the exceptions. -/
structure ElemOut where
  w : Nat
  m : Nat
  v : Nat
  exc : List Exc
  deriving DecidableEq, Repr

/-- R369: d, the new m and the new v of element e by the group's rule. -/
def ruleOf (g : List Byte) (c : UpConst) (prog : List Nat) (skip : Nat) (p : RowPow) (e w gr m v : Nat) :
    XV × XV × XV :=
  let gx := xLit gr
  let mx := xLit m
  let vx := xLit v
  if gRule g == 0 then
    let m' := xAdd (xMul (xLit p.b1) mx) gx
    if gNesterov g then (xAdd gx (xMul (xLit (gBeta1 g)) (xVal m')), m', vx) else (xVal m', m', vx)
  else if gRule g == 1 then
    let m' := xAdd (xMul (xLit p.b1) mx) (xMul (xLit c.om1) gx)
    let v' := xAdd (xMul (xLit p.b2) vx) (xMul (xLit c.om2) (xMul gx gx))
    let den := xAdd (xSqrt (xMul (xVal v') (xLit c.bc2))) (xLit (gEps g))
    (xDiv (xMul (xVal m') (xLit c.bc1)) den, m', v')
  else if gRule g == 2 then
    let u := xAdd (xMul (xLit p.b1) mx) (xMul (xLit c.om1) gx)
    let m' := xAdd (xMul (xLit p.b2) mx) (xMul (xLit c.om2) gx)
    ((signOf u.1, u.2), m', vx)
  else if gRule g == 3 then
    let v' := match c.fq with
      | some q => xMul (xMul (xLit (nth c.fac (e / gCols g) 0)) (xLit (nth c.fac (gRows g + e % gCols g) 0))) (xLit q)
      | none => xLit 0
    let d := xDiv gx (xAdd (xSqrt (xMul v' (xLit c.bc2))) (xLit (gEps g)))
    if gM1 g then
      let m' := xAdd (xMul (xLit (gBeta1 g)) mx) (xMul (xLit c.om1) d)
      (xVal m', m', vx)
    else (d, mx, vx)
  else
    let r := upRun (upCodes g c) skip prog 0 [w, gr, m, v, 0, 0, 0, 0]
    ((nth r.1 4 0, r.2), xLit (nth r.1 2 0), xLit (nth r.1 3 0))

/-- R369: one element. -/
def elemUpdate (g : List Byte) (c : UpConst) (prog : List Nat) (skip : Nat) (p : RowPow) (e w gr m v : Nat) :
    ElemOut :=
  let r := ruleOf g c prog skip p e w gr m v
  let s : XV := (c.s ^^^ 0x80000000, [])
  let x := xFma s (xVal r.1) (xMul (xLit p.a) (xLit w))
  ⟨x.1, r.2.1.1, r.2.2.1, r.1.2 ++ r.2.1.2 ++ r.2.2.2 ++ x.2⟩

/-- R369, R82: the stored code of a new weight. -/
def narrowW (g : List Byte) (w : Nat) : Nat × Exc :=
  if gWfmt g then (w, .none) else narrowRne fmtBF16 false (f32 w)

/-- R359: the FP32 code of a stored weight. -/
def widenW (g : List Byte) (c : Nat) : Nat := if gWfmt g then c else to32 (exact (decodeF fmtBF16 c))

/-- R362: the sum of the gradient slots of an element, the first taken exactly. -/
def gradSum (l : List Nat) : XV :=
  match l.map (fun c => xLit (to32 (exact (decodeF fmtBF16 c)))) with
  | [] => xLit 0
  | a :: r => r.foldl xAdd a

/-- R366: the clipped gradient and whether policy 3 changed it. -/
def clipG (g : List Byte) (cf : Nat) (x : XV) : XV × Bool :=
  let y := xMul (xLit cf) x
  if gPolicy g == 3 then
    let lo := (gClip g) ^^^ 0x80000000
    let z := to32 (rawMin (f32 (to32 (rawMax (f32 y.1) (f32 lo)))) (f32 (gClip g)))
    ((z, y.2), z != y.1)
  else (y, false)

/-- A square rounded once to FP64 (R364). -/
def sq64 (c : Nat) : Nat := to64 (rawMul (f32 c) (f32 c))

/-- The square root of an FP64 code. -/
def sqrt64 (c : Nat) : Nat := to64 (rawSqrt (f64 c))

/-- R356, R366: min(1, CLIP / √s) in FP64, rounded once to FP32; 1 when the denominator is 0; with its exceptions. -/
def clipFactorX (g : List Byte) (s : Nat) : XV :=
  let r := x64 (rawSqrt (f64 s)) []
  if (f64 r.1).isZero then (one32, r.2)
  else
    let q := x64 (rawDiv (f32 (gClip g)) (f64 r.1)) r.2
    xNarrow (x64 (rawMin (.fin false 1 0) (f64 q.1)) q.2)

/-- R366: the clip factor alone. -/
def clipFactor (g : List Byte) (s : Nat) : Nat := (clipFactorX g s).1

/-- R356, R367: the trust ratio √sw / (cf × √sg + WD × √sw) in FP64, rounded once to FP32, with its exceptions. -/
def trustRatioX (g : List Byte) (cf sw sg : Nat) : XV :=
  if gTrust g then
    let w := x64 (rawSqrt (f64 sw)) []
    let v := x64 (rawSqrt (f64 sg)) w.2
    let a := x64 (rawMul (f32 cf) (f64 v.1)) v.2
    let b := x64 (rawMul (f32 (gWd g)) (f64 w.1)) a.2
    let d := x64 (rawAdd (f64 a.1) (f64 b.1)) b.2
    if (f64 w.1).isZero || (f64 d.1).isZero then (one32, d.2) else xNarrow (x64 (rawDiv (f64 w.1) (f64 d.1)) d.2)
  else xLit one32

/-- R367: the trust ratio alone. -/
def trustRatio (g : List Byte) (cf sw sg : Nat) : Nat := (trustRatioX g cf sw sg).1

/-- R389: √(SUM_DW / SUM_W); 0 when both are 0; +∞ when only SUM_W is 0. -/
def ratioOf (sdw sw : Nat) : Nat :=
  if (f64 sw).isZero then (if (f64 sdw).isZero then 0 else 0x7F800000)
  else n64to32 (sqrt64 (to64 (rawDiv (f64 sdw) (f64 sw))))

/-- R391: the hash of one element. -/
def tallyOf (e x : Nat) : Nat :=
  let h := (e * 2 ^ 32 + x) * 0x9E3779B97F4A7C15 % 2 ^ 64
  let h := h ^^^ (h / 2 ^ 29)
  let h := h * 0xBF58476D1CE4E5B9 % 2 ^ 64
  h ^^^ (h / 2 ^ 32)

/-- Ascending indices as contiguous runs (first, count). -/
def spans (l : List Nat) : List (Nat × Nat) :=
  (l.foldl (fun (a : List (Nat × Nat)) k =>
    match a with
    | (f, n) :: r => if f + n == k then (f, n + 1) :: r else (k, 1) :: a
    | [] => [(k, 1)]) []).reverse

/-- The distinct blocks of 32 elements that ascending elements lie in. -/
def blocksOf (es : List Nat) : List Nat :=
  (es.foldl (fun (a : List Nat) e => match a with
    | b :: _ => if b == e / 32 then a else e / 32 :: a
    | [] => [e / 32]) []).reverse

/-- R369, R84: the FP32 codes of a moment block. -/
def momBlock (f : Fmt) (el : List Byte) (sc : Nat) : List Nat :=
  el.map (fun b => to32 (exact (scaled (decodeF f b.toNat) sc)))

/-- R374: a moment block as pass 2 writes it. `old` are its stored scale and element codes, `vs` the new values of the
elements that the pass touches, `fills` the values of the others. A block whose other elements R67's encoding would change
keeps its old scale and their codes, and the new values are narrowed under that scale (DESIGN CHOICE, log entry 71). -/
def sparseBlock (f : Fmt) (old : Nat × List Nat) (vs : List (Option FVal)) (fills : List FVal) : Nat × List Nat × List Exc :=
  let q := quantBlock f ((vs.zip fills).map (fun x => x.1.getD x.2))
  let val (sc c : Nat) : Nat := to32 (exact (scaled (decodeF f c) sc))
  let same := (List.range 32).all (fun j => (nth vs j none).isSome || val q.1 (nth q.2.1 j 0) == to32 (exact (nth fills j .nan)))
  if same then q
  else
    let es := (List.range 32).map (fun j => match nth vs j none with
      | some v => quantElem f ((old.1 : Int) - 127) v
      | none => (nth old.2 j 0, .none))
    let bad := vs.any (fun v => v.any (fun y => !y.isFin))
    (old.1, es.map (·.1), es.map (·.2) ++ (if bad then [.invalid] else []))

end Sys2Proof.Machine
end

