-- ==== Sys2Proof/Machine/UpdMem.lean ====
section
/-! DEFINITION. The two passes of the update engine over memory (10 R362 to R364, R369 to R375, R380, R382): what they
read, what they compute, and what they write, chunk by chunk. -/

namespace Sys2Proof.Machine

/-- On whose behalf a pass runs. -/
structure UpWho where
  parcel : Nat
  ten : Nat
  seq : Nat
  deriving DecidableEq, Repr

/-- Reads one range for the engine, with the STREAM policy (R349). -/
def upRead (w : UpWho) (a n : Nat) (s : State) : MRes × Nat × List Byte × State :=
  pvRead w.parcel w.ten a n false { ten := w.ten, seq := w.seq, quiet := true } s

/-- Reads ranges in order until one fails, joined. -/
def upReadL (w : UpWho) : List (Nat × Nat) → List Byte → State → MRes × Nat × List Byte × State
  | [], acc, s => (.ok, 0, acc, s)
  | (a, n) :: r, acc, s =>
    let x := upRead w a n s
    if x.1 == .ok then upReadL w r (acc ++ x.2.2.1) x.2.2.2 else (x.1, x.2.1, [], x.2.2.2)

/-- Reads several lists of ranges in order; one result for each. -/
def upReadLL (w : UpWho) : List (List (Nat × Nat)) → State → MRes × Nat × List (List Byte) × State
  | [], s => (.ok, 0, [], s)
  | l :: r, s =>
    let x := upReadL w l [] s
    if x.1 == .ok then
      let y := upReadLL w r x.2.2.2
      (y.1, y.2.1, x.2.2.1 :: y.2.2.1, y.2.2.2)
    else (x.1, x.2.1, [], x.2.2.2)

/-- Writes ranges in order until one fails; at most `lim` of them. -/
def upWriteL (w : UpWho) : Nat → List (Nat × List Byte) → State → MRes × Nat × State
  | 0, _, s => (.ok, 0, s)
  | _, [], s => (.ok, 0, s)
  | n + 1, (a, bs) :: r, s =>
    let x := pvWrite w.parcel w.ten a bs false (w.parcel, w.seq) { ten := w.ten, seq := w.seq, quiet := true } s
    if x.1 == .ok then upWriteL w n r x.2.2.2 else (x.1, x.2.1, x.2.2.2)

/-- The ranges of n-byte elements at a base for runs of indices. -/
def rangesAt (base n : Nat) (sp : List (Nat × Nat)) : List (Nat × Nat) := sp.map (fun x => (base + n * x.1, n * x.2))

/-- R373: the bytes of a touched-row bitmap, and where the ages begin. -/
def bitmapLen (g : List Byte) : Nat := (gRows g + 7) / 8
def agesAt (g : List Byte) : Nat := gSparseAddr g + (bitmapLen g + 255) / 256 * 256

/-- R373, R374: the rows that a pass covers with their ages, none for a group that is not SPARSE. -/
def touched (w : UpWho) (g : List Byte) (s : State) : MRes × Nat × Option (List Nat × List Nat) × State :=
  if !gSparse g then (.ok, 0, none, s)
  else
    let x := upReadLL w [[(gSparseAddr g, bitmapLen g)], [(agesAt g, 2 * gRows g)]] s
    let bm := nth x.2.2.1 0 []
    let rows := (List.range (gRows g)).filter (fun i => bit (le bm (i / 8) 1) (i % 8))
    (x.1, x.2.1, some (rows, (List.range (gRows g)).map (fun i => le (nth x.2.2.1 1 []) (2 * i) 2)), x.2.2.2)

/-- The elements that a pass covers, in ascending order. -/
def covered (g : List Byte) (t : Option (List Nat × List Nat)) : List Nat :=
  match t with
  | some (rows, _) => rows.flatMap (fun i => (List.range (gCols g)).map (fun j => i * gCols g + j))
  | none => List.range (gN g)

/-- What a pass has read of its elements: weights and gradient slots as stored, the moment blocks decoded, and their scale
and element codes. -/
structure UpIn where
  w : List Nat
  slots : List (List Nat)
  m1 : List (List Nat)
  m2 : List (List Nat)
  q1 : List (Nat × List Nat)
  q2 : List (Nat × List Nat)
  deriving DecidableEq, Repr

/-- Fixed-width numbers of a byte list. -/
def numsOf (n : Nat) (bs : List Byte) : List Nat := (List.range (bs.length / n)).map (fun k => le bs (n * k) n)

/-- R364, R369: reads the weights, gradient slots and moments of elements. -/
def upLoad (w : UpWho) (g : List Byte) (es : List Nat) (s : State) : MRes × Nat × UpIn × State :=
  let sp := spans es
  let bs := spans (blocksOf es)
  let mom (on : Bool) (a : Nat) : List (List (Nat × Nat)) :=
    if on then [rangesAt a 32 bs, rangesAt (a + gNp g) 1 bs] else [[], []]
  let reqs := [rangesAt (gWAddr g) (gWb g) sp] ++ mom (gM1 g) (gM1Addr g) ++ mom (gM2Blocks g) (gM2Addr g) ++
    (List.range (gNslots g)).map (fun k => rangesAt (gSlotAddr g k) 2 sp)
  let x := upReadLL w reqs s
  let d (k : Nat) : List Byte := nth x.2.2.1 k []
  let blocks (f : Fmt) (el sc : List Byte) : List (List Nat) :=
    (List.range sc.length).map (fun k => momBlock f (slice el (32 * k) 32) (le sc k 1))
  let codes (el sc : List Byte) : List (Nat × List Nat) :=
    (List.range sc.length).map (fun k => (le sc k 1, (slice el (32 * k) 32).map (·.toNat)))
  (x.1, x.2.1,
    ⟨numsOf (gWb g) (d 0), (List.range (gNslots g)).map (fun k => numsOf 2 (d (5 + k))), blocks fmtE4M3 (d 1) (d 2),
     blocks fmtUE5M3 (d 3) (d 4), codes (d 1) (d 2), codes (d 3) (d 4)⟩, x.2.2.2)

/-- R362: g of element number k of what was read. -/
def UpIn.grad (d : UpIn) (k : Nat) : XV := gradSum (d.slots.map (fun l => nth l k 0))

/-- What pass 1 leaves (R364). -/
structure Pass1 where
  sw : Nat := 0
  sg : Nat := 0
  rows : List Nat := []
  cols : List Nat := []
  elements : Nat := 0
  exc : List Exc := []
  deriving DecidableEq, Repr

/-- R364, R363: pass 1 of a group. -/
def pass1 (w : UpWho) (g : List Byte) (s : State) : MRes × Nat × Pass1 × State :=
  let t := touched w g s
  if t.1 != .ok then (t.1, t.2.1, {}, t.2.2.2)
  else
    let es := covered g t.2.2.1
    let x := upLoad w g es t.2.2.2
    if x.1 != .ok then (x.1, x.2.1, {}, x.2.2.2)
    else
      let f := if gRule g == 3 then upRead w (gM2Addr g) (4 * (gRows g + gCols g)) x.2.2.2 else (.ok, 0, [], x.2.2.2)
      if f.1 != .ok then (f.1, f.2.1, {}, f.2.2.2)
      else
        let d := x.2.2.1
        let gs := (List.range es.length).map d.grad
        let sw := orderedSum add64 0 (d.w.map (fun c => sq64 (widenW g c)))
        let sg := orderedSum add64 0 (gs.map (fun y => sq64 y.1))
        let base : Pass1 := { sw := sw, sg := sg, elements := es.length, exc := gs.flatMap (·.2) }
        if gRule g == 3 then
          let q := gs.map (fun y => xMul (xVal y) (xVal y))
          let at_ (i j : Nat) : XV := xVal (nth q (i * gCols g + j) (xLit 0))
          let rs := (List.range (gRows g)).map (fun i => orderedSumX ((List.range (gCols g)).map (at_ i)))
          let cs := (List.range (gCols g)).map (fun j => orderedSumX ((List.range (gRows g)).map (fun i => at_ i j)))
          (.ok, 0, { base with
            rows := rs.map (·.1), cols := cs.map (·.1),
            exc := base.exc ++ q.flatMap (·.2) ++ (rs ++ cs).flatMap (·.2) }, f.2.2.2)
        else (.ok, 0, base, f.2.2.2)

/-- What pass 2 gathers (R389, R391): the squares of the weight changes, the tally, whether policy 3 clipped, the
exceptions. -/
structure Pass2 where
  dw : List Nat := []
  tally : Nat := 0
  clipped : Bool := false
  exc : List Exc := []
  deriving DecidableEq, Repr

/-- R359, R369 to R371, R374: the new state of one chunk: what it gathers and what it writes, in order; the elements past
the group's last one are written as +0. `done` gives the instructions of an element's program that have run already. -/
def chunkOut (g : List Byte) (c : UpConst) (prog : List Nat) (ages : Option (List Nat)) (done : Nat → Nat) (es : List Nat)
    (d : UpIn) : Pass2 × List (Nat × List Byte) :=
  let blks := blocksOf es
  let old (m : List (List Nat)) (e : Nat) : Nat := nth (nth m ((blks.findIdx? (· == e / 32)).getD 0) []) (e % 32) 0
  let one (k e : Nat) : ElemOut × Bool × Nat × List Exc × Nat :=
    let w := widenW g (nth d.w k 0)
    let cg := clipG g c.cf (xVal (d.grad k))
    let o := elemUpdate g c prog (done e) (rowPow g c (ages.map (fun l => nth l (e / gCols g) 0))) e w cg.1.1
      (old d.m1 e) (old d.m2 e)
    let n := narrowW g o.w
    let row := if e % gCols g == 0 then rowExc g c (ages.map (fun l => nth l (e / gCols g) 0)) else []
    (o, cg.2, n.1, row ++ (d.grad k).2 ++ cg.1.2 ++ o.exc ++ [n.2], w)
  let rs := (List.range es.length).map (fun k => one k (nth es k 0))
  let dif (r : ElemOut × Bool × Nat × List Exc × Nat) : Nat :=
    let x := to64 (rawAdd (f32 (widenW g r.2.2.1)) (negV (f32 r.2.2.2.2)))
    to64 (rawMul (f64 x) (f64 x))
  let block (f : Fmt) (m : List (List Nat)) (q : List (Nat × List Nat)) (sel : ElemOut → Nat) (b : Nat) :
      Nat × List Nat × List Exc :=
    sparseBlock f (nth q ((blks.findIdx? (· == b)).getD 0) (0, []))
      ((List.range 32).map (fun j => if gN g ≤ 32 * b + j then some (FVal.fin false 0 0)
        else ((es.findIdx? (· == 32 * b + j)).bind (fun k => rs[k]?)).map (fun r => f32 (sel r.1))))
      ((List.range 32).map (fun j => f32 (old m (32 * b + j))))
  let mom (on : Bool) (f : Fmt) (m : List (List Nat)) (q : List (Nat × List Nat)) (sel : ElemOut → Nat) (a : Nat) :
      List (Nat × List Byte) × List Exc :=
    if on then
      let qs := blks.map (block f m q sel)
      let put (base n : Nat) (bs : List Byte) : List (Nat × List Byte) :=
        ((spans blks).foldl (fun (acc : List (Nat × List Byte) × List Byte) sp =>
          (acc.1 ++ [(base + n * sp.1, acc.2.take (n * sp.2))], acc.2.drop (n * sp.2))) ([], bs)).1
      (put a 32 (qs.flatMap (fun q => q.2.1.map (BitVec.ofNat 8))) ++
        put (a + gNp g) 1 (qs.map (fun q => BitVec.ofNat 8 q.1)), qs.flatMap (·.2.2))
    else ([], [])
  let wb := rs.flatMap (fun r => leBytes r.2.2.1 (gWb g))
  let ws := ((spans es).foldl (fun (acc : List (Nat × List Byte) × List Byte) sp =>
    (acc.1 ++ [(gWAddr g + gWb g * sp.1, acc.2.take (gWb g * sp.2))], acc.2.drop (gWb g * sp.2))) ([], wb)).1
  let a := mom (gM1 g) fmtE4M3 d.m1 d.q1 (·.m) (gM1Addr g)
  let b := mom (gM2Blocks g) fmtUE5M3 d.m2 d.q2 (·.v) (gM2Addr g)
  ({ dw := rs.map dif
     tally := ((List.range es.length).map (fun k => tallyOf (nth es k 0) ((rs[k]?.map (·.2.2.1)).getD 0))).foldl
       (fun x y => (x + y) % 2 ^ 64) 0
     clipped := rs.any (·.2.1), exc := rs.flatMap (·.2.2.2.1) ++ a.2 ++ b.2 },
    (ws ++ a.1 ++ b.1).map (fun x => (gDest g x.1, x.2)))

/-- R370, R374: what the last chunk writes besides: the factors; the ages and the bitmap. -/
def lastOut (g : List Byte) (c : UpConst) (t : Option (List Nat × List Nat)) : List (Nat × List Byte) :=
  (if gRule g == 3 then [(gDest g (gM2Addr g), c.fac.flatMap (fun f => leBytes f 4))] else []) ++
  (match t with
   | some (rows, ages) => [(gSparseAddr g, zeros (bitmapLen g)),
      (agesAt g, (ages.zipIdx.flatMap (fun x => leBytes (if rows.contains x.2 then 0 else min (x.1 + 1) 65535) 2)))]
   | none => [])

/-- What pass 2 runs with: the group entry, its constants, its program, its rows. -/
structure Pass2Env where
  g : List Byte
  c : UpConst
  prog : List Nat
  t : Option (List Nat × List Nat)
  done : Nat → Nat

/-- R380: the chunks of a group. -/
def chunkCount (g : List Byte) : Nat := (gN g + 4095) / 4096

/-- R380: one chunk of pass 2: reads, then writes, at most `lim` of them. -/
def runChunk (w : UpWho) (v : Pass2Env) (k lim : Nat) (s : State) : MRes × Nat × Pass2 × State :=
  let all := (covered v.g v.t).filter (fun e => decide (4096 * k ≤ e) && decide (e < 4096 * (k + 1)))
  let x := upLoad w v.g all s
  if x.1 != .ok then (x.1, x.2.1, {}, x.2.2.2)
  else
    let o := chunkOut v.g v.c v.prog (v.t.map (·.2)) v.done all x.2.2.1
    let ws := o.2 ++ (if k + 1 == chunkCount v.g then lastOut v.g v.c v.t else [])
    let y := upWriteL w lim ws x.2.2.2
    (y.1, y.2.1, o.1, y.2.2)

/-- R380: the chunks from k on in ascending order until one fails. -/
def runChunks (w : UpWho) (v : Pass2Env) : Nat → Nat → Pass2 → State → MRes × Nat × Pass2 × State
  | 0, _, acc, s => (.ok, 0, acc, s)
  | n + 1, k, acc, s =>
    let x := runChunk w v k (2 ^ 40) s
    let a := x.2.2.1
    let acc : Pass2 := ⟨acc.dw ++ a.dw, (acc.tally + a.tally) % 2 ^ 64, acc.clipped || a.clipped, acc.exc ++ a.exc⟩
    if x.1 == .ok then runChunks w v n (k + 1) acc x.2.2.2 else (x.1, x.2.1, acc, x.2.2.2)

/-- R371: the program of a group. -/
def progOf (x : Parcel) (g : List Byte) : List Nat :=
  if gRule g == 4 then progWords ((tblGet x.programs (gProgram g)).getD []) else []

/-- R369: the environment of pass 2 of a group run, with the exceptions of its constants. The factors need what the
region holds and the sums of pass 1. -/
def pass2Env (w : UpWho) (r : GroupRun) (s : State) : MRes × Nat × Pass2Env × List Exc × State :=
  let x := s.parcel w.parcel
  let g := x.group r.group
  let k := upConst g r.cf r.tr
  let done (e : Nat) : Nat :=
    match r.elem with
    | i :: pc :: _ => if e < i then 16 else if e == i then pc else 0
    | _ => 0
  let t := touched w g s
  if t.1 != .ok then (t.1, t.2.1, ⟨g, k.1, [], none, done⟩, [], t.2.2.2)
  else if gRule g == 3 then
    let f := upRead w (gM2Addr g) (4 * (gRows g + gCols g)) t.2.2.2
    let k2 := factors g k.1 (numsOf 4 f.2.2.1) r.rows r.cols
    (f.1, f.2.1, ⟨g, k2.1, [], t.2.2.1, done⟩, k.2 ++ k2.2, f.2.2.2)
  else (.ok, 0, ⟨g, k.1, progOf x g, t.2.2.1, done⟩, k.2, t.2.2.2)

/-- R369, R380: the whole of pass 2. -/
def pass2 (w : UpWho) (r : GroupRun) (s : State) : MRes × Nat × Pass2 × State :=
  let e := pass2Env w r s
  if e.1 != .ok then (e.1, e.2.1, {}, e.2.2.2.2)
  else runChunks w e.2.2.1 (chunkCount e.2.2.1.g) 0 { exc := e.2.2.2.1 } e.2.2.2.2

/-- R356, R390: what a pass 2 that stops has counted, and whether it has clipped, are kept. -/
def keepPass (w : UpWho) (r : GroupRun) (q : Pass2) (s : State) : State :=
  addExcItem w.parcel w.seq (countExc q.exc) (s.modItem w.parcel w.seq (fun i => { i with groups := i.groups.map (fun x =>
    if x.group == r.group then { x with clipped := x.clipped || q.clipped } else x) }))

/-- R380: pass 2 stopped at chunk k: the chunks before it are written, it may be written in part (a free value says how
many of its writes were made; its exceptions count where it made some). -/
def pass2Torn (w : UpWho) (r : GroupRun) (k : Nat) (s : State) : State :=
  let e := pass2Env w r s
  if e.1 != .ok then keepPass w r { exc := e.2.2.2.1 } e.2.2.2.2
  else
    let v := e.2.2.1
    let y := runChunks w v (min k (chunkCount v.g)) 0 { exc := e.2.2.2.1 } e.2.2.2.2
    if y.1 != .ok then keepPass w r y.2.2.1 y.2.2.2
    else
      let f := draw y.2.2.2
      let n := Config.freeNat f.1
      let z := runChunk w v k n f.2
      let q := y.2.2.1
      keepPass w r (if n == 0 then q else { q with clipped := q.clipped || z.2.2.1.clipped, exc := q.exc ++ z.2.2.1.exc }) z.2.2.2

end Sys2Proof.Machine
end

