-- ==== Sys2Proof/Machine/Update.lean ====
section
/-! DEFINITION. Update items (10 R349 to R393): taking up groups, the passes as the engine runs them, the norm exchange,
the seal of SHARDED groups, the tally exchange, the survey and the item's end. -/

namespace Sys2Proof.Machine

/-- Changes the entry of a group. -/
def modGroup (p g : Nat) (f : List Byte → List Byte) (s : State) : State :=
  s.modParcel p (fun x => { x with groups := tblPut x.groups g (f (x.group g)) })

/-- The update item of a parcel that names a group, with the group's run. -/
def runOfGroup (s : State) (p g : Nat) : Option (Item × GroupRun) :=
  ((s.parcel p).items.filter (fun i => i.kind == .update)).findSome? (fun i =>
    (i.groups.find? (fun r => r.group == g)).map (fun r => (i, r)))

/-- Changes the run of a group in its item. -/
def modRun (p seq g : Nat) (f : GroupRun → GroupRun) (s : State) : State :=
  s.modItem p seq (fun i => { i with groups := i.groups.map (fun r => if r.group == g then f r else r) })

/-- Whether a run has reached its final outcome. -/
def GroupRun.isDone (r : GroupRun) : Bool :=
  match r.phase with
  | .done _ => true
  | _ => false

/-- On whose behalf an item's update runs. -/
def whoOf (p : Nat) (i : Item) : UpWho := ⟨p, i.tenancy, i.seq⟩

/-- Cuts bytes into pieces of at most n with their offsets. -/
def cutBytes (n : Nat) (bs : List Byte) : List (Nat × List Byte) :=
  let k := max 1 ((bs.length + n - 1) / n)
  (List.range k).map (fun j => (n * j, (bs.drop (n * j)).take n))

/-- R531, R513, R523: sends a control message to one rank of a channel, in frames of at most n bytes, the last marked
LAST; nothing leaves on an unprotected channel of a sealed or seal-pending parcel. -/
def sendMsg (p ch type n m24 : Nat) (bs : List Byte) (s : State) : State :=
  if chanBarred s p ((s.parcel p).chan ch) then s
  else
    let l := cutBytes n bs
    l.zipIdx.foldl (fun s x =>
      sendChan p ch type (if x.2 + 1 == l.length then 2 else 0) (bits m24 13 0) (bits m24 19 14) ch 0 0 x.1.1 x.1.2 s) s

/-- Sends a control message to every other rank of a channel. -/
def sendAll (p ch type n : Nat) (bs : List Byte) (s : State) : State :=
  let c := (s.parcel p).chan ch
  (c.members.zipIdx.filter (fun m => m.2 != c.rank)).foldl (fun s m => sendMsg p ch type n m.1 bs s) s

/-- R531: the payload of VOTE, DECISION, QUERY and ANSWER. -/
def voteBody (g shard t v : Nat) : List Byte := pay [(g, 2), (shard, 2), (t, 4), (v, 1)] ++ zeros 7

/-- The member of a shard: shard k is rank k of the group's channel (DEDUCED, log entry 31). -/
def shardMember (x : Parcel) (ge : List Byte) (k : Nat) : Nat := nth (x.chan (gChannel ge)).members k 0

/-- R531: sends one VOTE-shaped frame to a shard. -/
def sendShard (p g k type v t : Nat) (s : State) : State :=
  let x := s.parcel p
  let ge := x.group g
  sendMsg p (gChannel ge) type 4096 (shardMember x ge k) (voteBody g (gShard ge) t v) s

/-- R531: sends one VOTE-shaped frame to every other shard. -/
def sendShards (p g type v t : Nat) (s : State) : State :=
  let ge := (s.parcel p).group g
  ((List.range (gShards ge)).filter (· != gShard ge)).foldl (fun s k => sendShard p g k type v t s) s

/-- R385: the journal entry of a group. -/
def journalOf (x : Parcel) (g : Nat) : Option Journal := x.journal.find? (fun j => j.group == g)

/-- R385: the slots of a group as its journal entry records them. -/
def journalSlots (x : Parcel) (g : Nat) : List (Nat × Nat × Nat × Nat) :=
  (gStagePairs (x.group g)).filterMap (fun k =>
    match tblGet x.lots k.1, tblGet x.lots k.2 with
    | some a, some b => some (k.1, a.lot, k.2, b.lot)
    | _, _ => none)

/-- R385: writes the journal entry of a group: its slots are those at the vote. -/
def putJournal (p : Nat) (j : Journal) (s : State) : State :=
  s.modParcel p (fun x =>
    let old := x.journal.find? (fun y => y.group == j.group && y.t == j.t && !j.decision.isNone)
    let j := { j with slots := (old.map (·.slots)).getD (journalSlots x j.group) }
    { x with journal := x.journal.filter (fun y => y.group != j.group) ++ [j] })

/-- R389: appends a survey record; at 8,192 unread records the oldest goes, and its tenancy has lost one. SURVEY_NEXT counts a
tenancy's records that are read or lost (DESIGN CHOICE, log entry 73). -/
def surveyPush (p : Nat) (rec_ : List Byte) (s : State) : State :=
  let x := s.parcel p
  let l := x.survey ++ [rec_]
  if l.length ≤ 8192 then s.setParcel p { x with survey := l }
  else
    let old := x.surveyDropped
    let t := le (nth l 0 []) 68 1
    let x := x.setTen t { x.ten t with surveyLost := true, surveyNext := wrap32 ((x.ten t).surveyNext + 1) }
    let s := s.setParcel p { x with survey := l.drop 1, surveyDropped := add48 old 1 }
    if reaches48 old 1 then satEvent p 0xFF 0xFFFFFFFF 12 0xFFFF s else s

/-- R389, R390: the survey record of a group at its outcome. -/
def surveyRec (s : State) (p : Nat) (i : Item) (r : GroupRun) (st : IStatus) : List Byte :=
  let ge := (s.parcel p).group r.group
  let flags := b2n (gSharded ge) + 2 * b2n (gSparse ge) + 4 * b2n r.clipped + 8 * b2n r.torn + 16 * b2n r.skipped
    + 32 * b2n (gTrust ge) + 64 * b2n (gRule ge == 4)
  let bare := st.fails || r.skipped
  let v (n : Nat) : Nat := if bare then 0 else n
  pay [(r.group, 2), (st.code, 1), (flags, 1), (gStep ge, 4), (s.time.postmark, 8), (v r.sw, 8), (v r.sg, 8), (v r.sdw, 8),
    (v (ratioOf r.sdw r.sw), 4), (v r.cf, 4), (v r.tr, 4), (i.seq, 4), (v r.tally, 8), (v r.elements, 4),
    (i.tenancy, 1)] ++ zeros 11

/-- R552: a SEAL_ABORT record. -/
def sealAbort (p ten seq g t reason : Nat) (s : State) : State :=
  let b := pay [(g, 2), (t, 4), (reason, 1)]
  recordP evSealAbort p ten seq 7 b b s

/-- R355, R358: ends an update item: its groups are unlocked, and its status is DONE or the outcome of the
lowest-numbered group that failed. -/
def endUpdate (p : Nat) (i : Item) (s : State) : State :=
  let s := i.groups.foldl (fun s r => modGroup p r.group (gSetFlag 11 false) s) s
  let bad := i.groups.filter (fun r => match r.phase with
    | .done st => st.fails
    | _ => false)
  let reset := bad.filter (fun r => r.phase == .done .parcelReset)
  let bad := if reset.isEmpty then bad else reset
  let worst := bad.foldl (fun (a : Option GroupRun) r => match a with
    | some y => if r.group < y.group then some r else some y
    | none => some r) none
  match worst with
  | some r =>
    let st := match r.phase with
      | .done st => st
      | _ => .internal
    let atAddr := r.addr != 0
    endItem p i.seq { status := st, group := r.group, addr := r.addr, lotSlot := if atAddr then r.addr / 2 ^ 30 else 0xFFFF }
      r.ev false s
  | none => endItem p i.seq { status := .done } 0 false s

/-- R392: the tally entries of an item's REPLICATED groups: group, flags, t, tally. -/
def tallyEntries (x : Parcel) (i : Item) : List (Nat × Nat × Nat × Nat) :=
  (i.groups.filter (fun r => !gSharded (x.group r.group) && !gFrozen (x.group r.group))).map (fun r =>
    (r.group, b2n (r.phase == .done .done && !r.skipped), if r.step == 0 then gStep (x.group r.group) + 1 else r.step, r.tally))

/-- R392: the groups that every package compares, and whose tallies differ; the t of an entry plays no part (log entry
72). -/
def diverging (l : List (List (Nat × Nat × Nat × Nat))) : List (Nat × Nat) :=
  match l with
  | own :: others => (own.filter (fun e => bit e.2.1 0 && others.all (fun o => o.any (fun f => f.1 == e.1 && bit f.2.1 0))
      && others.any (fun o => o.any (fun f => f.1 == e.1 && f.2.2.2 != e.2.2.2)))).map (fun e => (e.1, e.2.2.1))
  | [] => []

/-- R392: the ranks other than this package's whose tallies are compared: the REPLICAS packages are the first ranks of the
channel (DEDUCED, log entry 72). -/
def tallyRanks (x : Parcel) (i : Item) : List Nat :=
  let c := x.chan i.tallyCh
  (List.range (min i.replicas c.members.length)).filter (· != c.rank)

/-- R392, R355: ends the exchange, with the comparison when every tally has come, and the item with it. The first diverging
group is the one of the lowest number (DESIGN CHOICE, log entry 72). -/
def tallyEnd (p : Nat) (i : Item) (s : State) : State :=
  let ranks := tallyRanks (s.parcel p) i
  let all := ranks.all (fun k => i.tallies.any (fun e => e.1 == k))
  let d := if all then sortBy (fun a b => decide (a.1 < b.1))
    (diverging (tallyEntries (s.parcel p) i :: ranks.map (fun k => (tblGet i.tallies k).getD []))) else []
  let s := endWaits p i.tallyCh 65536 s
  match d with
  | (g, t) :: _ =>
    let b := pay [(g, 2), (d.length, 2), (t, 4), (i.seq, 4)]
    let s := recordP evDivergence p i.tenancy i.seq 12 b b s
    endUpdate p i (s.modTen p i.tenancy (fun x => { x with divHold := true }))
  | [] => endUpdate p i s

/-- An update item ends as a whole, in its tally exchange. -/
def updateEnds (p : Nat) (i : Item) (st : IStatus) (ev : Nat) (s : State) : State :=
  let s := endWaits p i.tallyCh 65536 s
  let s := i.groups.foldl (fun s r => modGroup p r.group (gSetFlag 11 false) s) s
  endItem p i.seq { status := st } ev false s

/-- R523: an update item that uses a channel in its tally exchange fails with FAIL_SECURITY. -/
def updateSecurity (p : Nat) (i : Item) (ev : Nat) (s : State) : State := updateEnds p i .security ev s

/-- R392: the tally entries of a TALLY payload: group, flags, t, tally. -/
def tallyBody (b : List Byte) : List (Nat × Nat × Nat × Nat) :=
  (List.range (b.length / 16)).map (fun k => (le b (16 * k) 2, le b (16 * k + 2) 2, le b (16 * k + 4) 4, le b (16 * k + 8) 8))

/-- R392: takes the TALLYs that came before an update item was ready for them: of each rank the first that has come on the
item's channel; a rank's further ones are those of later items (log entry 72). -/
def takeTallies (p seq : Nat) (s : State) : State :=
  (s.parcel p).inbox.foldl (fun s e =>
    match (s.parcel p).item seq with
    | none => s
    | some i =>
      if e.type != ftTally || e.channel != i.tallyCh || i.tallies.any (fun y => y.1 == e.rank) then s
      else
        let s := s.modItem p seq (fun i => { i with tallies := tblPut i.tallies e.rank (tallyBody e.body) })
        s.modParcel p (fun x => { x with inbox := x.inbox.erase e })) s

/-- R355, R392: once every group has its outcome, the tallies are exchanged if the request asks for it, and the item
completes. -/
def tryEndUpdate (p seq : Nat) (s0 : State) : State :=
  let s := if ((s0.parcel p).item seq).any (fun i => i.tallyCh != 0xFFFF && i.groups.all (·.isDone)) then takeTallies p seq s0 else s0
  match (s.parcel p).item seq with
  | none => s
  | some i =>
    if !i.groups.all (·.isDone) then s
    else
      let es := tallyEntries (s.parcel p) i
      if i.tallyCh == 0xFFFF || es.isEmpty || (tallyRanks (s.parcel p) i).isEmpty || i.tallyOver then tallyEnd p i s
      else if chanBarred s p ((s.parcel p).chan i.tallyCh) then
        let b := pay [(6, 1), (i.tallyCh, 1), (0, 2)]
        let s := recordP evSecurity p i.tenancy i.seq 4 b b s
        updateSecurity p i (tenTail s p i.tenancy) s
      else
        let c := (s.parcel p).chan i.tallyCh
        let ranks := tallyRanks (s.parcel p) i
        let s := if i.tallySent then s
          else
            let body := es.flatMap (fun e => pay [(e.1, 2), (e.2.1, 2), (e.2.2.1, 4), (e.2.2.2, 8)])
            let s := s.modItem p seq (fun i => { i with tallySent := true })
            sendAll p i.tallyCh ftTally 4080 body s
        let miss := ranks.filter (fun k => !i.tallies.any (fun e => e.1 == k))
        if miss.all (fun k => s.fed.lostMembers.contains (nth c.members k 0 % 16384)) then tallyEnd p i s
        else (ranks.filter (fun k => !i.tallies.any (fun e => e.1 == k))).foldl (fun s k =>
          beginWait p i.tallyCh 65536 (nth c.members k 0 % 16384) s) s

/-- R386: whether a group has voted already. -/
def GroupRun.hasVoted (r : GroupRun) : Bool :=
  match r.phase with
  | .voted | .inDoubt | .committed => true
  | _ => false

/-- R383, R386: what a SHARDED group that ends without a commit tells the others: the coordinator decides ABORT, a shard
that has not voted votes NOT_READY. -/
def sealRefuse (p g t : Nat) (r : GroupRun) (quiet : Bool) (s : State) : State :=
  let ge := (s.parcel p).group g
  if quiet then s
  else if gShard ge == 0 then
    sendShards p g ftDecision 0 t (putJournal p ⟨g, t, some false, s.time.postmark, false, []⟩ s)
  else if r.hasVoted then s
  else sendShard p g 0 ftVote 0 t s

/-- R384: the abort of step t of a group is recorded at this package, once. -/
def noteAbort (p ten seq g t reason : Nat) (s : State) : State :=
  sealAbort p ten seq g t reason (s.modParcel p (fun x => { x with aborted := tblPut x.aborted g t }))

/-- R355, R386, R389: a group reaches its outcome. `quiet`: the others know already, or are not told. An abort that a query
brought about is recorded already (R387). -/
def finishOne (p seq g : Nat) (st : IStatus) (reason : Nat) (quiet : Bool) (s : State) : State :=
  match runOfGroup s p g with
  | none => s
  | some (i, r) =>
    if i.seq != seq || r.isDone then s
    else
      let ge := (s.parcel p).group g
      let t := gStep ge + 1
      let aborted := gSharded ge && (st.fails || r.skipped) && st != .parcelReset
      let s := if aborted then sealRefuse p g t r quiet s else s
      let s := if aborted && r.hasVoted && (journalOf (s.parcel p) g).any (fun j => j.decision.isNone) then
          putJournal p ⟨g, t, some false, s.time.postmark, false, []⟩ s
        else s
      let told := tblGet (s.parcel p).doomed g == some t
      let s := if aborted && !told then noteAbort p i.tenancy i.seq g t reason s else s
      let s := endWaits p (gChannel ge) (8192 + g) (endWaits p (gChannel ge) (1024 + g) s)
      let ev := if r.ev != 0 then r.ev else if aborted then tenTail s p i.tenancy else 0
      let s := modRun p seq g (fun r => { r with phase := .done st, ev := ev, elem := [] }) s
      if gFrozen ge then s else surveyPush p (surveyRec s p i r st) s

/-- R366: the sum G of an item's policy-2 groups, in ascending group number. -/
def sumG (x : Parcel) (i : Item) : Nat :=
  let l := i.groups.filter (fun r => r.normed && gPolicy (x.group r.group) == 2)
  (sortBy (fun a b => decide (a.1 < b.1)) (l.map (fun r => (r.group, r.sgAll)))).foldl (fun a e => add64 a e.2) 0

/-- R366: whether every policy-2 group of an item has passed pass 1 and its norm exchange, or has ended. -/
def p2Ready (x : Parcel) (i : Item) : Bool :=
  i.groups.all (fun r => gPolicy (x.group r.group) != 2 || r.normed || r.isDone)

/-- R368: the sum that governs a group's clipping, once it is known. -/
def governing (x : Parcel) (i : Item) (r : GroupRun) : Option Nat :=
  if !r.normed then none
  else if gPolicy (x.group r.group) == 2 then (if p2Ready x i then some (sumG x i) else none)
  else some r.sgAll

/-- R368: skips the groups whose governing sum is known and not finite. -/
def skipCheck (p seq : Nat) (s : State) : State :=
  match (s.parcel p).item seq with
  | none => s
  | some i =>
    let x := s.parcel p
    let bad := i.groups.filter (fun r => r.phase == .norm && gSkipNf (x.group r.group) &&
      (governing x i r).any (fun c => !(f64 c).isFin))
    bad.foldl (fun s r =>
      finishOne p seq r.group .done 0 false (modRun p seq r.group (fun r => { r with skipped := true }) s)) s

/-- R355, R368, R386, R389: a group of an update item reaches its outcome, which may make the sum known that governs others,
and may end the item. -/
def finishGroup (p seq g : Nat) (st : IStatus) (reason : Nat) (quiet : Bool) (s : State) : State :=
  match runOfGroup s p g with
  | none => s
  | some (i, r) =>
    if i.seq != seq || r.isDone then s
    else tryEndUpdate p seq (skipCheck p seq (finishOne p seq g st reason quiet s))

/-- A group fails with a memory status met at an address; `tail` is the tenancy log's end before the pass. -/
def finishMem (p : Nat) (i : Item) (g : Nat) (m : MRes) (a tail : Nat) (torn : Bool) (s : State) : State :=
  let ev := if tenTail s p i.tenancy == tail then 0 else tail + 1
  let s := modRun p i.seq g (fun r => { r with addr := a / 256 * 256, ev := ev, torn := torn }) s
  finishGroup p i.seq g m.item 0 false s

/-- R365: when every shard's norm has come, the sums in ascending shard index. -/
def tryNorm (p seq g : Nat) (s : State) : State :=
  match runOfGroup s p g with
  | none => s
  | some (i, r) =>
    let ge := (s.parcel p).group g
    let ks := List.range (if gSharded ge then gShards ge else 1)
    if r.phase != .norm || r.normed then s
    else if !ks.all (fun k => r.norms.any (fun e => e.1 == k)) then s
    else
      let nv (k : Nat) : Nat × Nat := (tblGet r.norms k).getD (0, 0)
      let sumOf (f : Nat × Nat → Nat) : Nat := match ks.map (fun k => f (nv k)) with
        | a :: l => l.foldl add64 a
        | [] => 0
      let cols := (List.range r.cols.length).map (fun j =>
        match ks.map (fun k => nth ((tblGet r.normCols k).getD []) j 0) with
        | a :: l => l.foldl (fun x y => xAdd x (xLit y)) (xLit a)
        | [] => xLit 0)
      let s := modRun p i.seq g (fun r => { r with
        normed := true, swAll := sumOf (·.1), sgAll := sumOf (·.2), cols := cols.map (·.1) }) s
      tryEndUpdate p seq (skipCheck p seq (addExcItem p seq (countExc (cols.flatMap (·.2))) s))

/-- R386: whether a shard of a group is lost to this package; to a package that has left its federation every other shard
is. -/
def shardLost (s : State) (p : Nat) (ge : List Byte) : Bool :=
  ((List.range (gShards ge)).filter (· != gShard ge)).any (fun k =>
    !s.fed.federated || s.fed.lostMembers.contains (shardMember (s.parcel p) ge k % 16384))

/-- R523: the use of an unprotected channel by a sealed parcel: one SECURITY event, and the group fails. -/
def groupBarred (p : Nat) (i : Item) (g : Nat) (s : State) : State :=
  let ch := gChannel ((s.parcel p).group g)
  let b := pay [(6, 1), (ch, 1), (0, 2)]
  let s := recordP evSecurity p i.tenancy i.seq 4 b b s
  let s := modRun p i.seq g (fun r => { r with ev := tenTail s p i.tenancy }) s
  finishGroup p i.seq g .security 0 false s

/-- R365: enters NORM: this shard's sums are sent to the others and awaited from them. -/
def enterNorm (p : Nat) (i : Item) (g : Nat) (s : State) : State :=
  let ge := (s.parcel p).group g
  let ch := gChannel ge
  match runOfGroup s p g with
  | none => s
  | some (_, r) =>
    let k := if gSharded ge then gShard ge else 0
    let s := modRun p i.seq g (fun r => { r with
      phase := .norm, votedAt := s.time.postmark, norms := tblPut r.norms k (r.sw, r.sg),
      normCols := tblPut r.normCols k r.cols }) s
    if gSharded ge && 1 < gShards ge then
      if shardLost s p ge then finishGroup p i.seq g .stepAborted 3 false s
      else if chanBarred s p ((s.parcel p).chan ch) then groupBarred p i g s
      else
        let body := pay [(g, 2), (gShard ge, 2), (gStep ge + 1, 4), (r.sw, 8), (r.sg, 8)] ++
          (if gRule ge == 3 then (r.rows ++ r.cols).flatMap (fun c => leBytes c 4) else [])
        let others := (List.range (gShards ge)).filter (· != gShard ge)
        let s := others.foldl (fun s k => sendMsg p ch ftNorm 4096 (shardMember (s.parcel p) ge k) body s) s
        let s := (others.filter (fun k => !r.norms.any (fun e => e.1 == k))).foldl (fun s k =>
          beginWait p ch (1024 + g) (shardMember (s.parcel p) ge k % 16384) s) s
        tryNorm p i.seq g s
    else tryNorm p i.seq g s

/-- R365: a shard's NORM for a group that is open. -/
def onNorm (p g shard t sw sg : Nat) (sums : List Nat) (s : State) : State :=
  match runOfGroup s p g with
  | none => s
  | some (i, r) =>
    let ge := (s.parcel p).group g
    if t != gStep ge + 1 || r.isDone then s
    else
      let s := modRun p i.seq g (fun r => { r with
        norms := tblPut r.norms shard (sw, sg), normCols := tblPut r.normCols shard (sums.drop (sums.length - gCols ge)) }) s
      tryNorm p i.seq g (endWait p (gChannel ge) (1024 + g) (shardMember (s.parcel p) ge shard % 16384) s)

/-- R383: a decision of COMMIT is journalled; the commit is applied in a frame head after this. -/
def commitGroup (p : Nat) (i : Item) (g t : Nat) (s : State) : State :=
  let s := endWaits p (gChannel ((s.parcel p).group g)) (8192 + g) s
  modRun p i.seq g (fun r => { r with phase := .committed }) (putJournal p ⟨g, t, some true, s.time.postmark, false, []⟩ s)

/-- R383: the coordinator decides when it can. -/
def tryDecide (p g : Nat) (s : State) : State :=
  match runOfGroup s p g with
  | none => s
  | some (i, r) =>
    let ge := (s.parcel p).group g
    let t := gStep ge + 1
    if gShard ge != 0 || r.isDone then s
    else if r.votes.any (fun v => !v.2.2) then finishGroup p i.seq g .stepAborted 0 false s
    else if r.phase != .voted then s
    else if r.votes.any (fun v => v.2.1 != t) then finishGroup p i.seq g .stepSkew 1 false s
    else if (List.range (gShards ge)).all (fun k => r.votes.any (fun v => v.1 == k)) then
      sendShards p g ftDecision 1 t (commitGroup p i g t s)
    else s

/-- R383: a shard's VOTE at the coordinator. -/
def onVote (p g shard t : Nat) (ready : Bool) (s : State) : State :=
  match runOfGroup s p g with
  | none => s
  | some (i, r) =>
    let ge := (s.parcel p).group g
    if r.isDone || r.phase == .committed then s
    else
      let s := modRun p i.seq g (fun r => { r with votes := tblPut r.votes shard (t, ready) }) s
      tryDecide p g (endWait p (gChannel ge) (8192 + g) (shardMember (s.parcel p) ge shard % 16384) s)

/-- R383, R386: VOTED: the vote READY after pass 2 has reached HBM. -/
def voteReady (p : Nat) (i : Item) (g : Nat) (s : State) : State :=
  let ge := (s.parcel p).group g
  let ch := gChannel ge
  let t := gStep ge + 1
  if 1 < gShards ge && chanBarred s p ((s.parcel p).chan ch) then groupBarred p i g s
  else
    let s := putJournal p ⟨g, t, none, s.time.postmark, false, []⟩ s
    let s := modRun p i.seq g (fun r => { r with phase := .voted, votedAt := s.time.postmark }) s
    if gShard ge == 0 then
      let have_ := ((runOfGroup s p g).map (fun x => x.2.votes.map (·.1))).getD []
      let s := ((List.range (gShards ge)).filter (fun k => k != 0 && !have_.contains k)).foldl (fun s k =>
        beginWait p ch (8192 + g) (shardMember (s.parcel p) ge k % 16384) s) s
      if 1 < gShards ge && shardLost s p ge then finishGroup p i.seq g .stepAborted 3 false s
      else onVote p g 0 t true s
    else
      let s := sendShard p g 0 ftVote 1 t s
      let m := shardMember (s.parcel p) ge 0 % 16384
      if s.fed.lostMembers.contains m then modRun p i.seq g (fun r => { r with phase := .inDoubt, votedAt := 0 }) s
      else beginWait p ch (8192 + g) m s

/-- The tenancy that owns a group's weights: an abort outside an update item is recorded for it. -/
def groupOwner (s : State) (p g : Nat) : Nat :=
  ((tblGet (s.parcel p).lots (gWAddr ((s.parcel p).group g) / 2 ^ 30)).map (·.owner)).getD 0xFF

/-- R386, R571: the end of a group that has no open update item but a vote in the journal: it is IN_DOUBT after a warm
reset. -/
def resolveDoubt (p g t : Nat) (commit : Bool) (reason : Nat) (s : State) : State :=
  match journalOf (s.parcel p) g with
  | some j =>
    if j.decision.isSome || j.t != t then s
    else if commit then putJournal p ⟨g, t, some true, s.time.postmark, false, []⟩ s
    else
      let s := putJournal p ⟨g, t, some false, s.time.postmark, false, []⟩ s
      let s := modGroup p g (gSetFlag 11 false) s
      noteAbort p (groupOwner s p g) 0xFFFFFFFF g t reason s
  | none => s

/-- R383, R384: a frozen coordinator decides ABORT: into its journal first, then to every shard. -/
def abortAll (p g t reason : Nat) (s : State) : State :=
  let s := putJournal p ⟨g, t, some false, s.time.postmark, false, []⟩ s
  noteAbort p (groupOwner s p g) 0xFFFFFFFF g t reason (sendShards p g ftDecision 0 t s)

/-- R384: an ABORT for a group that is in no open update item here: recorded unless it is already. -/
def closedAbort (p g t reason : Nat) (s : State) : State :=
  let x := s.parcel p
  if !gValid (x.group g) || !gSharded (x.group g) || tblGet x.aborted g == some t then s
  else noteAbort p (groupOwner s p g) 0xFFFFFFFF g t reason s

/-- R383, R384, R386: a DECISION, or an ANSWER to a query. The reason of an ABORT is not sent: it is known for an unequal t, and
free otherwise. A FROZEN group that still waits to be taken up ends as R386 has it (DESIGN CHOICE, log entry 72); one that has
been passed over records the abort. -/
def onDecision (p g t : Nat) (commit : Bool) (s : State) : State :=
  match runOfGroup s p g with
  | none =>
    let f := draw s
    let reason := Config.freeNat f.1 % 4
    if (journalOf (s.parcel p) g).any (fun j => j.decision.isNone && j.t == t) then resolveDoubt p g t commit reason f.2
    else if commit then s else closedAbort p g t reason f.2
  | some (i, r) =>
    let own := gStep ((s.parcel p).group g) + 1
    let f := draw s
    let free := Config.freeNat f.1 % 4
    match r.phase with
    | .voted =>
      if commit then commitGroup p i g own s
      else if t != own then finishGroup p i.seq g .stepSkew 1 true s
      else finishGroup p i.seq g .stepAborted free true f.2
    | .inDoubt =>
      if commit then commitGroup p i g own s else finishGroup p i.seq g .stepAborted free true f.2
    | .wait | .pass1 | .norm | .pass2 =>
      if commit then s else finishGroup p i.seq g .stepAborted free true f.2
    | .done _ => if commit then s else closedAbort p g t free f.2
    | .committed => s

/-- R387: a QUERY: COMMIT from the journal, ABORT if aborted or not yet voted (the group is then aborted and votes
NOT_READY, its next run of that step included: log entry 72), no answer while in doubt or voted. -/
def onQuery (p g shard t : Nat) (s : State) : State :=
  let x := s.parcel p
  let answer (v : Nat) (s : State) : State := sendShard p g shard ftAnswer v t s
  match (journalOf x g).filter (fun j => j.t == t), runOfGroup s p g with
  | some ⟨_, _, some d, _, _, _⟩, _ => answer (b2n d) s
  | _, some (i, r) =>
    if r.hasVoted then s
    else if r.isDone then answer 0 s
    else finishGroup p i.seq g .stepAborted 0 false (answer 0 s)
  | some _, none => s
  | none, none =>
    let ge := x.group g
    let s := answer 0 s
    if !gValid ge || !gSharded ge || tblGet x.aborted g == some t then s
    else
      let s := s.modParcel p (fun x => { x with doomed := tblPut x.doomed g t })
      if gShard ge == 0 then abortAll p g t 0 s
      else noteAbort p (groupOwner s p g) 0xFFFFFFFF g t 0 (sendShard p g 0 ftVote 0 t s)

/-- R376, R383, R384: a peer opens a seal or norm exchange for a frozen SHARDED group: it votes NOT_READY, as coordinator it
decides ABORT, once for each seal. Another seal has begun when t is new, or when a shard sends its NORM again. -/
def frozenVote (p g type shard t : Nat) (s : State) : State :=
  let x := s.parcel p
  let ge := x.group g
  let old := (tblGet x.heard g).getD (0, [])
  let new := old.1 != t || (type == ftNorm && old.2.contains shard)
  let s := s.modParcel p (fun x => { x with
    heard := tblPut x.heard g (t, if new then [shard] else shard :: old.2.filter (· != shard)) })
  if !new then s
  else if gShard ge == 0 then abortAll p g t 0 s
  else sendShard p g 0 ftVote 0 t (s.modParcel p (fun x => { x with aborted := tblDel x.aborted g }))

/-- A VOTE-shaped or NORM message for a group: to its run, or kept until the group is open. -/
def onGroupMsg (p ch type rank : Nat) (b : List Byte) (s : State) : State :=
  let g := le b 0 2
  let shard := le b 2 2
  let t := le b 4 4
  let ge := (s.parcel p).group g
  let open_ := match runOfGroup s p g with
    | some (_, r) => !(r.phase == .wait && type != ftDecision)
    | none => false
  if type == ftQuery then onQuery p g shard t s
  else if gValid ge && gFrozen ge && gSharded ge then
    if type == ftNorm || type == ftVote then frozenVote p g type shard t s
    else if type == ftDecision then onDecision p g t (le b 8 1 == 1) s
    else s
  else if !open_ && type == ftDecision then onDecision p g t (le b 8 1 == 1) s
  else if !open_ then
    s.modParcel p (fun x => { x with inbox := x.inbox.filter (fun e =>
      !(e.type == type && e.rank == rank && le e.body 0 2 == g)) ++ [⟨type, ch, rank, b⟩] })
  else if type == ftNorm then onNorm p g shard t (le b 8 8) (le b 16 8) (numsOf 4 (b.drop 24)) s
  else if type == ftVote then onVote p g shard t (le b 8 1 == 1) s
  else onDecision p g t (le b 8 1 == 1) s

/-- Takes the frames kept for a group when it is taken up; those of earlier steps are dropped. -/
def absorb (p g : Nat) (s : State) : State :=
  let x := s.parcel p
  let mine := x.inbox.filter (fun e => e.type != ftTally && le e.body 0 2 == g)
  let t := gStep (x.group g) + 1
  let s := s.setParcel p { x with inbox := x.inbox.filter (fun e => !(e.type != ftTally && le e.body 0 2 == g)) }
  mine.foldl (fun s e => if le e.body 4 4 < t then s else onGroupMsg p e.channel e.type e.rank e.body s) s

/-- R353, R485: the state of a gate: satisfied, failed, or still to come. -/
def gateState (s : State) (p t gate : Nat) : Option Bool :=
  let x := (s.parcel p).ten t
  let d := dist32 gate (wrap32 x.nextSeq)
  if gate == 0xFFFFFFFF then some true
  else if d == 0 || min x.nextSeq (2 ^ 31) < d then none
  else if (tenItems s p t).any (fun i => i.seq == gate) then none
  else some (!x.failed.contains gate)

/-- R351, R353, R376, R378, R379, R386, R387: UPDATE_GROUP_TAKE_UP: the next group of an update item, in the order of its range
entries. -/
def execUpdateGroupTakeUp (parcel group : Nat) (s : State) : Host.Outcome State Fault Refusal :=
  match runOfGroup s parcel group with
  | none => .next s
  | some (i, r) =>
    let ge := (s.parcel parcel).group group
    let first := (i.groups.find? (fun r => r.phase == .wait)).any (fun q => q.group == group)
    if r.phase != .wait || !first then .next s
    else if gFrozen ge then
      let old := gFrozenSkip ge
      let s := modGroup parcel group (fun g => overlay g 34 (leBytes (add48 old 1) 6)) s
      let s := if reaches48 old 1 then satEvent parcel i.tenancy i.seq 11 group s else s
      let s := modRun parcel i.seq group (fun r => { r with phase := .done .done }) s
      fin (tryEndUpdate parcel i.seq (skipCheck parcel i.seq s))
    else if tblGet (s.parcel parcel).doomed group == some (gStep ge + 1) then
      let s := finishGroup parcel i.seq group .stepAborted 0 true s
      fin (s.modParcel parcel (fun x => { x with doomed := tblDel x.doomed group }))
    else match gateState s parcel i.tenancy r.gate with
      | none => .next s
      | some false => fin (finishGroup parcel i.seq group .stepAborted 0 false s)
      | some true =>
        if s.power.holdOn then .next s
        else if gSkew ge then
          fin (finishGroup parcel i.seq group .stepSkew 0 false (modGroup parcel group (gSetFlag 10 false) s))
        else if gStep ge == 0xFFFFFFFF then
          let s := satEvent parcel i.tenancy i.seq 18 group s
          let ev := tenTail s parcel i.tenancy
          fin (finishGroup parcel i.seq group .stepSkew 0 false (modRun parcel i.seq group (fun r => { r with ev := ev }) s))
        else
          fin (absorb parcel group (modRun parcel i.seq group (fun r => { r with phase := .pass1, step := gStep ge + 1 }) s))

/-- R364, R365, R368: UPDATE_PASS1_COMPLETE: the sums of a group are formed. -/
def execUpdatePass1Complete (parcel group : Nat) (s : State) : Host.Outcome State Fault Refusal :=
  match runOfGroup s parcel group with
  | none => .next s
  | some (i, r) =>
    let ge := (s.parcel parcel).group group
    if r.phase != .pass1 then .next s
    else if gSharded ge && gSkew ge then
      fin (finishGroup parcel i.seq group .stepSkew 0 false (modGroup parcel group (gSetFlag 10 false) s))
    else
      let tail := tenTail s parcel i.tenancy
      let x := pass1 (whoOf parcel i) ge s
      if x.1 != .ok then fin (finishMem parcel i group x.1 x.2.1 tail false x.2.2.2)
      else
        let q := x.2.2.1
        let s := addExcItem parcel i.seq (countExc q.exc) x.2.2.2
        let s := modRun parcel i.seq group (fun r => { r with
          sw := q.sw, sg := q.sg, swAll := q.sw, sgAll := q.sg, rows := q.rows, cols := q.cols, elements := q.elements }) s
        fin (enterNorm parcel i group s)

/-- R371: the operand registers at the start of an element, for the group's clipping; none past the last one. -/
def elemLoad (p : Nat) (i : Item) (r : GroupRun) (from_ : Nat) (s : State) : List Nat :=
  let w := whoOf p i
  let g := (s.parcel p).group r.group
  let t := touched w g s
  match (covered g t.2.2.1).find? (fun e => decide (from_ ≤ e)) with
  | none => []
  | some e =>
    let d := (upLoad w g [e] s).2.2.1
    let mom (m : List (List Nat)) : Nat := nth (nth m 0 []) (e % 32) 0
    [e, 0, widenW g (nth d.w 0 0), (clipG g r.cf (d.grad 0)).1.1, mom d.m1, mom d.m2, 0, 0, 0, 0]

/-- R366, R367, R369: UPDATE_PASS2_START: once every sum it needs is known, a group's clip factor and trust ratio are
formed and pass 2 begins. -/
def execUpdatePass2Start (parcel group : Nat) (s : State) : Host.Outcome State Fault Refusal :=
  match runOfGroup s parcel group with
  | none => .next s
  | some (i, r) =>
    let x := s.parcel parcel
    let ge := x.group group
    match governing x i r with
    | none => .next s
    | some sum =>
      if r.phase != .norm then .next s
      else
        let cfx := if gPolicy ge == 1 || gPolicy ge == 2 then clipFactorX ge sum else xLit one32
        let trx := trustRatioX ge cfx.1 r.swAll r.sgAll
        let cf := cfx.1
        let tr := trx.1
        let less := !(f32 cf).isNan && decide (cmpV (f32 cf) (f32 one32) < 0)
        let r := { r with phase := .pass2, cf := cf, tr := tr, clipped := less }
        let r := { r with elem := if gRule ge == 4 then elemLoad parcel i r 0 s else [] }
        fin (addExcItem parcel i.seq (countExc (cfx.2 ++ trx.2)) (modRun parcel i.seq group (fun _ => r) s))

/-- R377, R380, R383: UPDATE_PASS2_COMPLETE: the new state is written; a REPLICATED group's STEP becomes t, a SHARDED
group votes. -/
def execUpdatePass2Complete (parcel group : Nat) (s : State) : Host.Outcome State Fault Refusal :=
  match runOfGroup s parcel group with
  | none => .next s
  | some (i, r) =>
    let ge := (s.parcel parcel).group group
    if r.phase != .pass2 then .next s
    else
      let tail := tenTail s parcel i.tenancy
      let x := pass2 (whoOf parcel i) r s
      let q := x.2.2.1
      let s := addExcItem parcel i.seq (countExc q.exc) x.2.2.2
      if x.1 != .ok then
        let s := modRun parcel i.seq group (fun r => { r with clipped := r.clipped || q.clipped }) s
        fin (finishMem parcel i group x.1 x.2.1 tail (!gSharded ge) s)
      else
        let s := flushItem parcel i.seq s
        let s := modRun parcel i.seq group (fun r => { r with
          sdw := orderedSum add64 0 q.dw, tally := q.tally, clipped := r.clipped || q.clipped }) s
        if gSharded ge then
          if gSkew ge then
            fin (finishGroup parcel i.seq group .stepSkew 0 false (modGroup parcel group (gSetFlag 10 false) s))
          else fin (voteReady parcel i group s)
        else
          let s := modGroup parcel group (fun g => overlay g 4 (leBytes (gStep g + 1) 4)) s
          fin (finishGroup parcel i.seq group .done 0 true s)

/-- R383: a duration in ms as frames. -/
def msFrames (s : State) (ms : Nat) : Nat := ceilDiv (ms * 3300000) s.time.period

/-- R383, R386: whether SEAL_WAIT, extended by a shard's HOLD frames, has run out for a group that waits on a shard. -/
def sealWaitOver (s : State) (p key : Nat) (i : Item) (r : GroupRun) (ge : List Byte) (missing : List Nat) : Bool :=
  missing.any (fun k =>
    let m := shardMember (s.parcel p) ge k % 16384
    let e := ((s.fed.waits.find? (fun w => w.parcel == p && w.channel == gChannel ge && w.key == key && w.member == m)).map
      (·.ext)).getD 0
    decide (r.votedAt + i.sealWait + msFrames s (min e 500) ≤ s.time.postmark))

/-- R383, R386: SEAL_WAIT_EXPIRY: a vote, or a norm, has not come in time. -/
def execSealWaitExpiry (parcel group : Nat) (s : State) : Host.Outcome State Fault Refusal :=
  match runOfGroup s parcel group with
  | none => .next s
  | some (i, r) =>
    let ge := (s.parcel parcel).group group
    let missing (have_ : List Nat) := (List.range (gShards ge)).filter (fun k => k != gShard ge && !have_.contains k)
    if !gSharded ge then .next s
    else if r.phase == .voted && gShard ge == 0 then
      if sealWaitOver s parcel (8192 + group) i r ge (missing (r.votes.map (·.1))) then
        fin (finishGroup parcel i.seq group .stepAborted 2 false s)
      else .next s
    else if r.phase == .norm && !r.normed then
      if sealWaitOver s parcel (1024 + group) i r ge (missing (r.norms.map (·.1))) then
        fin (finishGroup parcel i.seq group .stepAborted 2 false s)
      else .next s
    else .next s

/-- R382, R384: exchanges the lots of the state and staging slots of a group; the bytes of the new staging lots beyond
the group's regions are undefined. -/
def swapStaging (p g : Nat) (s : State) : State :=
  let ge := (s.parcel p).group g
  let swap (l : Tbl LotEnt) (x : Nat × Nat) : Tbl LotEnt :=
    match tblGet l x.1, tblGet l x.2 with
    | some a, some b => tblPut (tblPut l x.1 { a with lot := b.lot, classA := b.classA }) x.2 { b with lot := a.lot, classA := a.classA }
    | _, _ => l
  let s := s.modParcel p (fun x => { x with lots := (gStagePairs ge).foldl swap x.lots })
  let ends := (gRegions ge).filterMap (fun r =>
    let slot := r.1 / 2 ^ 30 + slotsOf r.2 - 1
    if r.2 % 2 ^ 30 == 0 then none else some (slot, r.2 % 2 ^ 30))
  ends.foldl (fun s e =>
    match (gStagePairs ge).find? (fun x => x.1 == e.1) with
    | some x =>
      match tblGet (s.parcel p).lots x.2 with
      | some l =>
        let d := draw s
        { d.2 with hbm := { d.2.hbm with mem := memUndef d.2.hbm.mem (l.lot * 2 ^ 30 + e.2) (2 ^ 30 - e.2) d.1 } }
      | none => s
    | none => s) s

/-- R377, R384, R399: applies one journalled COMMIT. -/
def applyCommit (p g : Nat) (j : Journal) (s : State) : State :=
  let s := swapStaging p g s
  let s := modGroup p g (fun ge => overlay ge 4 (leBytes j.t 4)) s
  let s := putJournal p { j with applied := true } s
  let s := cad s
  match runOfGroup s p g with
  | some (i, _) => finishGroup p i.seq g .done 0 true s
  | none => modGroup p g (gSetFlag 11 false) s

/-- R384, R393, R329: SEAL_COMMIT_APPLY: in a frame head after the decision was journalled, after folds, after the
changes accepted before it, the lowest group of the parcel first. -/
def execSealCommitApply (parcel group : Nat) (s : State) : Host.Outcome State Fault Refusal :=
  let x := s.parcel parcel
  let due (j : Journal) : Bool := j.decision == some true && !j.applied && decide (j.at_ < s.time.postmark)
  match (journalOf x group).filter due with
  | none => .next s
  | some j =>
    if !inHead s || x.journal.any (fun k => due k && decide (k.group < group))
        || s.changes.any (fun c => decide (c.1 < s.time.postmark) && decide (c.1 ≤ j.at_) && changeReady s c.2)
        || foldWaits s then .next s
    else fin (applyCommit parcel group j s)

/-- R387: IN_DOUBT_QUERY: once per frame, to every shard whose member is not lost. -/
def execInDoubtQuery (parcel group : Nat) (s : State) : Host.Outcome State Fault Refusal :=
  match runOfGroup s parcel group with
  | none =>
    match journalOf (s.parcel parcel) group with
    | none => .next s
    | some j =>
      if j.decision.isSome || j.at_ == s.time.postmark + 1 || !s.fed.federated then .next s
      else
        let ge := (s.parcel parcel).group group
        let ks := (List.range (gShards ge)).filter (fun k => k != gShard ge &&
          !s.fed.lostMembers.contains (shardMember (s.parcel parcel) ge k % 16384))
        let s := ks.foldl (fun s k => sendShard parcel group k ftQuery 0 j.t s) s
        .next (s.modParcel parcel (fun x => { x with
          journal := x.journal.map (fun y => if y.group == group then { y with at_ := s.time.postmark + 1 } else y) }))
  | some (i, r) =>
    let ge := (s.parcel parcel).group group
    if r.phase != .inDoubt || r.votedAt == s.time.postmark + 1 then .next s
    else
      let ks := (List.range (gShards ge)).filter (fun k => k != gShard ge &&
        !s.fed.lostMembers.contains (shardMember (s.parcel parcel) ge k % 16384))
      let s := ks.foldl (fun s k => sendShard parcel group k ftQuery 0 (gStep ge + 1) s) s
      .next (modRun parcel i.seq group (fun r => { r with votedAt := s.time.postmark + 1 }) s)

/-- R383, R386, R392, R521: what the loss of a member does to the updates of a parcel. -/
def updPeerLost (p m : Nat) (s : State) : State :=
  ((s.parcel p).items.filter (fun i => i.kind == .update)).foldl (fun s i =>
    let s := i.groups.foldl (fun s q =>
      match runOfGroup s p q.group with
      | none => s
      | some (_, r) =>
        let ge := (s.parcel p).group r.group
        let isM (k : Nat) : Bool := shardMember (s.parcel p) ge k % 16384 == m
        let hit := gSharded ge && ((List.range (gShards ge)).filter (· != gShard ge)).any isM
        if !hit then s
        else match r.phase with
          | .norm => finishGroup p i.seq r.group .stepAborted 3 false s
          | .voted =>
            if gShard ge == 0 then finishGroup p i.seq r.group .stepAborted 3 false s
            else if isM 0 then
              endWaits p (gChannel ge) (8192 + r.group)
                (modRun p i.seq r.group (fun r => { r with phase := .inDoubt, votedAt := 0 }) s)
            else s
          | _ => s) s
    if i.tallySent && ((tallyRanks (s.parcel p) i).any (fun k =>
        nth ((s.parcel p).chan i.tallyCh).members k 0 % 16384 == m && !i.tallies.any (fun e => e.1 == k))) then
      tryEndUpdate p i.seq (s.modItem p i.seq (fun i => { i with tallyOver := true }))
    else s) s

/-- R392: a TALLY of a rank: to the update item that uses the channel, or kept for it. -/
def onTally (p ch rank : Nat) (b : List Byte) (s : State) : State :=
  match (s.parcel p).items.find? (fun i => i.kind == .update && i.tallyCh == ch && !i.tallies.any (fun e => e.1 == rank)) with
  | some i =>
    let s := s.modItem p i.seq (fun i => { i with tallies := tblPut i.tallies rank (tallyBody b) })
    let m := nth ((s.parcel p).chan ch).members rank 0 % 16384
    tryEndUpdate p i.seq (endWait p ch 65536 m s)
  | none => s.modParcel p (fun x => { x with inbox := x.inbox ++ [⟨ftTally, ch, rank, b⟩] })

/-- R393, R410: what a parcel reset does to an update item: its open groups end FAIL_PARCEL_RESET, staging is discarded, a
REPLICATED pass 2 is torn at a chunk that nothing fixes. -/
def updReset (p : Nat) (i : Item) (s : State) : State :=
  let s := s.modItem p i.seq (fun i => { i with tallyOver := true })
  let s := i.groups.foldl (fun s q =>
      match runOfGroup s p q.group with
      | none => s
      | some (_, r) =>
        let ge := (s.parcel p).group r.group
        if r.phase == .pass2 && !gSharded ge then
          let d := draw s
          let s := pass2Torn (whoOf p i) r (Config.freeNat d.1 % chunkCount ge) d.2
          finishGroup p i.seq r.group .parcelReset 0 true (modRun p i.seq r.group (fun r => { r with torn := true }) s)
        else finishGroup p i.seq r.group .parcelReset 0 true s) s
  match (s.parcel p).item i.seq with
  | some j => updateEnds p j .parcelReset 0 s
  | none => s

/-- R308, R393: what a thermal hold does to the groups that are not yet in pass 2; a group that is not taken up, of an
item that came during the hold, is no case of this. -/
def updHold (p : Nat) (s : State) : State :=
  ((s.parcel p).items.filter (fun i => i.kind == .update)).foldl (fun s i =>
    i.groups.foldl (fun s q =>
      match runOfGroup s p q.group with
      | none => s
      | some (_, r) =>
        match r.phase with
        | .wait | .pass1 | .norm => finishGroup p i.seq r.group .thermalHold 0 false s
        | _ => s) s) s

/-- R359, R380: the chunk of an offset in a moment region: element bytes first, then a scale byte for each 32 elements. -/
def momentChunk (g : List Byte) (o : Nat) : Nat :=
  min ((if o < gNp g then o else 32 * (o - gNp g)) / 4096) (chunkCount g - 1)

/-- R359, R373, R380: the regions of a group with their sizes, each with the chunk that an offset in it belongs to. Factors,
bitmap and ages are read before the first chunk and written with the last one (`wr`). -/
def chunkRegions (wr : Bool) (g : List Byte) : List (Nat × Nat × (Nat → Nat)) :=
  let elem (b w : Nat) : Nat × Nat × (Nat → Nat) := (b, w * gN g, fun o => o / w / 4096)
  let once : Nat → Nat := fun _ => if wr then chunkCount g - 1 else 0
  [elem (gWAddr g) (gWb g)] ++ (List.range (gNslots g)).map (fun k => elem (gSlotAddr g k) 2) ++
    (if gM1 g then [(gM1Addr g, 33 * gNp g / 32, momentChunk g)] else []) ++
    (if gM2Blocks g then [(gM2Addr g, 33 * gNp g / 32, momentChunk g)]
     else if gM2 g then [(gM2Addr g, 4 * (gRows g + gCols g), once)] else []) ++
    (if gSparse g then [(gSparseAddr g, agesAt g - gSparseAddr g + 2 * gRows g, once)] else [])

/-- R382: the address of a group's state for which a staging address stands in pass 2; any other address as it is. -/
def gSource (g : List Byte) (v : Nat) : Nat :=
  if gSharded g then
    match (gStagePairs g).find? (fun x => x.2 == v / 2 ^ 30) with
    | some x => x.1 * 2 ^ 30 + v % 2 ^ 30
    | none => v
  else v

/-- The open pass that covers an address of a slot: item, group run, and the chunk in which the address lies. -/
def updHit (wr : Bool) (s : State) (p slot a : Nat) : Option (Item × GroupRun × Nat) :=
  let hit (i : Item) (r : GroupRun) : Option Nat :=
    let g := (s.parcel p).group r.group
    let v := gSource g (slot * 2 ^ 30 + a % 2 ^ 30) / 256 * 256
    if (r.phase == .pass1 || r.phase == .pass2) && i.kind == .update then
      (chunkRegions wr g).findSome? (fun x =>
        if x.1 ≤ v + 255 && decide (v < x.1 + x.2.1) then some (x.2.2 (v - x.1)) else none)
    else none
  (s.parcel p).items.findSome? (fun i => i.groups.findSome? (fun r => (hit i r).map (fun k => (i, r, k))))

/-- R298, R313, R380, R386: a memory failure met by a burst of the engine at a package-physical address: the open pass
that covers it fails. `wr` says that the burst was a write. -/
def updFault (wr : Bool) (p slot a : Nat) (m : MRes) (s : State) : State :=
  let v := slot * 2 ^ 30 + a % 2 ^ 30
  match updHit wr s p slot a with
  | none => s
  | some (i, r, k) =>
    let ge := (s.parcel p).group r.group
    let tail := tenTail s p i.tenancy - 1
    let torn := r.phase == .pass2 && !gSharded ge
    let s := if torn then pass2Torn (whoOf p i) r k s else s
    finishMem p i r.group m v tail torn s

end Sys2Proof.Machine
end

