-- ==== Sys2Proof/Machine/Collective.lean ====
section
/-! DEFINITION. Collective items (14 R526 to R530): the ring of a channel, its messages, the sums, and how an item
begins, goes on and ends. -/

namespace Sys2Proof.Machine

/-- A tensor that an operation moves: the group and slot of a GRADIENT tensor, source, destination, elements. -/
structure Tensor where
  group : Nat := 0xFFFF
  slot : Nat := 0
  src : Nat
  dst : Nat
  count : Nat
  deriving DecidableEq, Repr

/-- R527: the tensors of an operation. -/
def tensorsOf (x : Parcel) (o : CollOp) : List Tensor :=
  if o.op == 4 then
    ((List.range (o.src / 65536 % 65536)).map (o.src % 65536 + ·)).flatMap (fun g =>
      let ge := x.group g
      if gValid ge && !gFrozen ge then
        (List.range (gNslots ge)).map (fun k => ⟨g, k, gSlotAddr ge k, gSlotAddr ge k, gN ge⟩)
      else [])
  else [{ src := o.src, dst := o.dst, count := o.count }]

/-- R527: first element and number of elements of a chunk. -/
def chunkAt (m count c : Nat) : Nat × Nat :=
  let k := 128 * ((count + 128 * m - 1) / (128 * m))
  (c * k, min ((c + 1) * k) count - c * k)

/-- The chunk j places before a rank on a ring of m. -/
def ringBack (m r j : Nat) : Nat := (r + m * j - j) % m

/-- R528: the messages that a rank receives for one tensor, in order: the chunk, and whether it carries a partial sum.
A BROADCAST is one message, its chunk the whole tensor. -/
def msgsOf (o m r root : Nat) : List (Nat × Bool) :=
  let red := (List.range (m - 1)).map (fun j => (ringBack m r (j + 2), true))
  let gat := (List.range (m - 1)).map (fun j => (ringBack m r (j + 1), false))
  if o == 0 || o == 4 then red ++ gat else if o == 1 then red else if o == 2 then gat
  else if r == root then [] else [(0, false)]

/-- Bytes of an element of a format. -/
def fmtBytes (f : Nat) : Nat := if f == 1 then 4 else 2

/-- R75: the FP32 code of an input element. -/
def collIn (f c : Nat) : Nat := if f == 1 then c else to32 (exact (decodeF fmtBF16 c))

/-- R75: an FP32 code narrowed to the output format. DESIGN CHOICE (log entry 69): a sum beyond BF16's largest finite value
saturates, as in R82. -/
def collOut (f c : Nat) : Nat := if f == 1 then c else (narrowRne fmtBF16 false (f32 c)).1

/-- R559: the code that an ALL_GATHER or BROADCAST stores for an input element: its bits unchanged where the formats are
equal. -/
def collCopy (o : CollOp) (c : Nat) : Nat := if o.fmt == o.outFmt then c else collOut o.outFmt (collIn o.fmt c)

/-- First element and number of elements that a message of an operation covers. -/
def msgRange (o m count c : Nat) : Nat × Nat := if o == 3 then (0, count) else chunkAt m count c

/-- Bytes of an element in a message. -/
def msgWidth (o : CollOp) (partial_ : Bool) : Nat :=
  if partial_ then 4 else if o.op == 2 || o.op == 3 then fmtBytes o.fmt else fmtBytes o.outFmt

/-- R531, R529: sends one message to the next rank of the ring. -/
def ringSend (p : Nat) (o : CollOp) (t : Tensor) (bs : List Byte) (s : State) : State :=
  let c := (s.parcel p).chan o.channel
  let m24 := nth c.members ((c.rank + 1) % c.members.length) 0
  let head := if o.op == 4 then
    pay [(t.group, 2), (t.slot, 1), (0, 1), (gStep ((s.parcel p).group t.group), 4)] else []
  if bs.isEmpty then s
  else
    let l := cutBytes 4088 bs
    l.zipIdx.foldl (fun s x =>
      sendChan p o.channel ftData (if x.2 + 1 == l.length then 2 else 0) (bits m24 13 0) (bits m24 19 14) o.channel 0
        (2 ^ 31 - 2) x.1.1 (head ++ x.1.2) s) s

/-- R530: reads elements for a collective item. -/
def collRead (p : Nat) (i : Item) (a n : Nat) (s : State) : MRes × Nat × List Byte × State :=
  pvRead p i.tenancy a n false { ten := i.tenancy, seq := i.seq, quiet := true } s

/-- R530: writes elements of a collective item. -/
def collWrite (p : Nat) (i : Item) (a : Nat) (bs : List Byte) (s : State) : MRes × Nat × State :=
  let x := pvWrite p i.tenancy a bs false (p, i.seq) { ten := i.tenancy, seq := i.seq, quiet := true } s
  (x.1, x.2.1, x.2.2.2)

/-- R527: the bytes of a tensor at this rank's source and destination: an ALL_GATHER has one chunk as its source, a
REDUCE_SCATTER one as its destination. -/
def collBytes (c : Channel) (o : CollOp) (t : Tensor) : Nat × Nat :=
  let chunk := (chunkAt c.members.length t.count c.rank).2
  (fmtBytes o.fmt * (if o.op == 2 then chunk else t.count), fmtBytes o.outFmt * (if o.op == 1 then chunk else t.count))

/-- R530: the destinations of the operation in progress hold undefined values. -/
def collUndef (p : Nat) (i : Item) (o : CollOp) (s : State) : State :=
  (tensorsOf (s.parcel p) o).foldl (fun s t =>
    pvUndef p i.tenancy t.dst (collBytes ((s.parcel p).chan o.channel) o t).2 s) s

/-- R521, R529, R530: a collective item fails; with `tell`, ABORT goes to every member of the operation's channel. -/
def collFail (p seq : Nat) (st : IStatus) (addr ev : Nat) (tell : Bool) (s : State) : State :=
  match (s.parcel p).item seq with
  | none => s
  | some i =>
    let f : FailAt := { status := st, addr := addr / 256 * 256, lotSlot := if addr == 0 then 0xFFFF else addr / 2 ^ 30 }
    match i.ops[i.coll.op]? with
    | some o =>
      let s := if i.begun then collUndef p i o s else s
      let s := if tell then sendAll p o.channel ftAbort 4096 (leBytes i.coll.op 4) s else s
      let s := endWaits p o.channel 256 s
      let s := s.modParcel p (fun x => { x with inbox := x.inbox.filter (fun e => !(e.type == ftData && e.channel == o.channel)) })
      endItem p seq f ev false s
    | none => endItem p seq f ev false s

/-- The operation, tensor, messages and next message of an item. -/
def collNow (s : State) (p : Nat) (i : Item) : Option (CollOp × Tensor × List (Nat × Bool)) :=
  match i.ops[i.coll.op]? with
  | some o =>
    let c := (s.parcel p).chan o.channel
    ((tensorsOf (s.parcel p) o)[i.coll.tensor]?).map (fun t => (o, t, msgsOf o.op c.members.length c.rank o.root))
  | none => none

/-- Reads this rank's own elements of a range as codes of the input format. -/
def ownElems (p : Nat) (i : Item) (o : CollOp) (t : Tensor) (r : Nat × Nat) (s : State) :
    MRes × Nat × List Nat × State :=
  let w := fmtBytes o.fmt
  let x := collRead p i (t.src + w * r.1) (w * r.2) s
  (x.1, x.2.1, numsOf w x.2.2.1, x.2.2.2)

/-- The bytes of codes of a format. -/
def codeBytes (f : Nat) (es : List Nat) : List Byte := es.flatMap (fun c => leBytes c (fmtBytes f))

/-- Stores codes of the output format from element k of a tensor's destination on. -/
def storeElems (p : Nat) (i : Item) (o : CollOp) (t : Tensor) (k : Nat) (es : List Nat) (s : State) : MRes × Nat × State :=
  collWrite p i (t.dst + fmtBytes o.outFmt * k) (codeBytes o.outFmt es) s

/-- R528: what a rank does when a tensor begins: it sends the first message, and an ALL_GATHER or BROADCAST stores its
own part. -/
def tensorStart (p : Nat) (i : Item) (o : CollOp) (t : Tensor) (s : State) : MRes × Nat × State :=
  let c := (s.parcel p).chan o.channel
  let m := c.members.length
  if o.op == 3 then
    if c.rank == o.root then
      let x := ownElems p i o t (0, t.count) s
      if x.1 != .ok then (x.1, x.2.1, x.2.2.2)
      else storeElems p i o t 0 (x.2.2.1.map (collCopy o)) (ringSend p o t (codeBytes o.fmt x.2.2.1) x.2.2.2)
    else (.ok, 0, s)
  else if o.op == 2 then
    let r := chunkAt m t.count c.rank
    let x := ownElems p i o t (0, r.2) s
    if x.1 != .ok then (x.1, x.2.1, x.2.2.2)
    else storeElems p i o t r.1 (x.2.2.1.map (collCopy o)) (ringSend p o t (codeBytes o.fmt x.2.2.1) x.2.2.2)
  else
    let x := ownElems p i o t (chunkAt m t.count (ringBack m c.rank 1)) s
    if x.1 != .ok then (x.1, x.2.1, x.2.2.2)
    else (.ok, 0, ringSend p o t (codeBytes 1 (x.2.2.1.map (collIn o.fmt))) x.2.2.2)

/-- R528, R75, R559: what a rank does with a whole message: a partial sum takes its own element and goes on, or is rounded
once, stored and sent around; a rounded chunk is stored and goes on until it has been everywhere. -/
def msgDone (p : Nat) (i : Item) (o : CollOp) (t : Tensor) (c : Nat) (part : Bool) (bs : List Byte) (s : State) :
    MRes × Nat × State :=
  let ch := (s.parcel p).chan o.channel
  let m := ch.members.length
  let r := msgRange o.op m t.count c
  let w := msgWidth o part
  if part then
    let x := ownElems p i o t r s
    if x.1 != .ok then (x.1, x.2.1, x.2.2.2)
    else
      let sum := List.zipWith add32 (numsOf 4 bs) (x.2.2.1.map (collIn o.fmt))
      if c == ch.rank then
        let out := sum.map (collOut o.outFmt)
        let y := storeElems p i o t (if o.op == 1 then 0 else r.1) out x.2.2.2
        if y.1 != .ok || o.op == 1 then y else (.ok, 0, ringSend p o t (codeBytes o.outFmt out) y.2.2)
      else (.ok, 0, ringSend p o t (codeBytes 1 sum) x.2.2.2)
  else
    let es := numsOf w bs
    let y := storeElems p i o t r.1 (if o.op == 2 || o.op == 3 then es.map (collCopy o) else es) s
    let next := (ch.rank + 1) % m
    if y.1 != .ok || next == (if o.op == 3 then o.root else c) then y else (.ok, 0, ringSend p o t bs y.2.2)

/-- Goes on through an item's tensors and operations as far as no message is awaited, and begins the wait for the next
one (R520). -/
def collAdvance (p seq : Nat) : Nat → State → State
  | 0, s => s
  | n + 1, s =>
    match (s.parcel p).item seq with
    | none => s
    | some i =>
      match i.ops[i.coll.op]? with
      | none => endItem p seq { status := .done } 0 false s
      | some o =>
        let c := (s.parcel p).chan o.channel
        let m := c.members.length
        match (tensorsOf (s.parcel p) o)[i.coll.tensor]? with
        | none => collAdvance p seq n (s.modItem p seq (fun i => { i with coll := { op := i.coll.op + 1 } }))
        | some t =>
          if chanBarred s p c then
            let b := pay [(6, 1), (o.channel, 1), (0, 2)]
            let s := recordP evSecurity p i.tenancy i.seq 4 b b s
            collFail p seq .security 0 (tenTail s p i.tenancy) false s
          else
            let msgs := msgsOf o.op m c.rank o.root
            let st := if i.coll.msg == 0 then tensorStart p i o t s else (.ok, 0, s)
            if st.1 != .ok then collFail p seq st.1.item st.2.1 (tenTail st.2.2 p i.tenancy) true st.2.2
            else
              let s := st.2.2
              let k := max 1 i.coll.msg
              -- messages are counted from 1; empty ones do not travel
              let rest := (msgs.zipIdx.drop (k - 1)).find? (fun x => decide (0 < (msgRange o.op m t.count x.1.1).2))
              match rest with
              | some x =>
                let s := s.modItem p seq (fun i => { i with coll := { i.coll with msg := x.2 + 1 } })
                let prev := nth c.members ((c.rank + m - 1) % m) 0 % 16384
                if s.fed.lostMembers.contains prev then
                  let s := peerLostEvent p i.tenancy seq prev o.channel s
                  collFail p seq .peerLost 0 (tenTail s p i.tenancy) false s
                else beginWait p o.channel 256 prev s
              | none =>
                collAdvance p seq n (s.modItem p seq (fun i => { i with coll := { op := i.coll.op, tensor := i.coll.tensor + 1 } }))

/-- A bound on the tensors and operations of an item. -/
def collFuel (x : Parcel) (i : Item) : Nat := 2 + (i.ops.map (fun o => 2 + (tensorsOf x o).length)).foldl (· + ·) 0

/-- R529: sets SKEW in a group's entry. -/
def setSkew (p g : Nat) (s : State) : State := modGroup p g (gSetFlag 10 true) s

/-- R529: a step mismatch: SKEW here, and a SKEW frame to every member. -/
def skewFound (p ch g : Nat) (s : State) : State := sendAll p ch ftSkew 4096 (leBytes g 2) (setSkew p g s)

/-- R529: whether a DATA payload of a GRADIENT operation names the tensor, and where its elements begin. -/
def gradHead (t : Tensor) (b : List Byte) : Bool := le b 0 2 == t.group && le b 2 1 == t.slot

/-- R527 to R529, R534: one DATA frame of the ring for the item that awaits it: its offset and payload. A mismatch records an
INTERNAL event, whose firmware code the manual does not give (a free value, log entry 77). -/
def collFeed (p seq off : Nat) (b : List Byte) (s : State) : State :=
  match (s.parcel p).item seq with
  | none => s
  | some i =>
    match collNow s p i with
    | none => s
    | some (o, t, msgs) =>
      let c := (s.parcel p).chan o.channel
      let m := c.members.length
      match msgs[i.coll.msg - 1]? with
      | none => s
      | some (ck, part) =>
        let need := msgWidth o part * (msgRange o.op m t.count ck).2
        let grad := o.op == 4
        let body := if grad then b.drop 8 else b
        if off != i.coll.got.length || need < off + body.length || (grad && !gradHead t b) then
          let d := draw s
          collFail p seq .internal 0 0 true (internalEvent (Config.freeNat d.1 % 2 ^ 32) d.2)
        else
          let s := if grad && le b 4 4 != gStep ((s.parcel p).group t.group) then skewFound p o.channel t.group s else s
          let prev := nth c.members ((c.rank + m - 1) % m) 0 % 16384
          let s := endWait p o.channel 256 prev s
          let got := i.coll.got ++ body
          if got.length < need then
            beginWait p o.channel 256 prev (s.modItem p seq (fun i => { i with coll := { i.coll with got := got } }))
          else
            let x := msgDone p i o t ck part got s
            if x.1 != .ok then collFail p seq x.1.item x.2.1 (tenTail x.2.2 p i.tenancy) true x.2.2
            else
              let s := x.2.2.modItem p seq (fun i => { i with coll := { i.coll with got := [], msg := i.coll.msg + 1 } })
              collAdvance p seq (collFuel (s.parcel p) i) s

/-- Takes the DATA frames that have come for a collective item, in order. -/
def collPump (p seq : Nat) : Nat → State → State
  | 0, s => s
  | n + 1, s =>
    let x := s.parcel p
    match x.item seq with
    | none => s
    | some i =>
      match i.ops[i.coll.op]? with
      | none => s
      | some o =>
        let c := x.chan o.channel
        let prev := (c.rank + c.members.length - 1) % c.members.length
        match x.inbox.find? (fun e => e.type == ftData && e.channel == o.channel && e.rank == prev) with
        | none => s
        | some e =>
          let s := s.setParcel p { x with inbox := x.inbox.erase e }
          collPump p seq n (collFeed p seq (le e.body 0 4) (e.body.drop 4) s)

/-- R528: a DATA frame on a COLLECTIVE channel, kept until the operation that takes it. -/
def onCollData (p ch rank off : Nat) (b : List Byte) (s : State) : State :=
  let s := s.modParcel p (fun x => { x with inbox := x.inbox ++ [⟨ftData, ch, rank, leBytes off 4 ++ b⟩] })
  match (s.parcel p).items.find? (fun i => i.kind == .coll && i.begun) with
  | some i => collPump p i.seq ((s.parcel p).inbox.length + 1) s
  | none => s

/-- R530, R531: an ABORT of an operation on a channel: the collective item whose operation of that index uses the channel
fails with FAIL_PEER_LOST, begun or not, with a record that names the member that sent it (R534). -/
def onAbort (p ch idx src : Nat) (s : State) : State :=
  match (s.parcel p).items.find? (fun i => i.kind == .coll && (i.ops[idx]?).any (fun o => o.channel == ch)) with
  | some i =>
    let s := peerLostEvent p i.tenancy i.seq src ch s
    collFail p i.seq .peerLost 0 (tenTail s p i.tenancy) false s
  | none => s

/-- R521: the collective items that wait on a lost member fail. -/
def collPeerLost (p m ev : Nat) (s : State) : State :=
  ((s.parcel p).items.filter (fun i => i.kind == .coll && i.begun)).foldl (fun s i =>
    let waits := (i.ops[i.coll.op]?).any (fun o => s.fed.waits.any (fun w =>
      w.parcel == p && w.channel == o.channel && w.key == 256 && w.member == m))
    if waits then collFail p i.seq .peerLost 0 ev false s else s) s

/-- R526, R335, R348, R351, R354: COLLECTIVE_BEGIN: an item whose gate has completed begins its first operation after every
item of its tenancy admitted before it has completed, not during a hold or a drain. -/
def execCollectiveBegin (parcel seq : Nat) (s : State) : Host.Outcome State Fault Refusal :=
  match (s.parcel parcel).item seq with
  | none => .next s
  | some i =>
    let before := (s.parcel parcel).items.takeWhile (fun j => j.seq != seq)
    let waits := before.any (fun j => j.tenancy == i.tenancy)
    if i.kind != .coll || i.begun || s.power.holdOn || s.power.drainOn || waits || !inService (s.parcel parcel) then .next s
    else match gateState s parcel i.tenancy i.gate with
      | none => .next s
      | some _ =>
        let s := s.modItem parcel seq (fun i => { i with begun := true, coll := {} })
        let s := collAdvance parcel seq (collFuel (s.parcel parcel) i) s
        fin (collPump parcel seq ((s.parcel parcel).inbox.length + 1) s)

/-- The collective item whose operation in progress covers an address of a slot. -/
def collHit (s : State) (p slot a : Nat) : Option Item :=
  let v := slot * 2 ^ 30 + a % 2 ^ 30
  let inR (b n : Nat) : Bool := decide (b ≤ v + 255) && decide (v / 256 * 256 < b + n)
  let hit (i : Item) : Bool := i.kind == .coll && i.begun && (collNow s p i).any (fun x =>
    let n := collBytes ((s.parcel p).chan x.1.channel) x.1 x.2.1
    inR x.2.1.src n.1 || inR x.2.1.dst n.2)
  (s.parcel p).items.find? hit

/-- R530: a memory failure met by a burst of the collective engine at a package-physical address. -/
def collFault (p slot a : Nat) (m : MRes) (s : State) : State :=
  let v := slot * 2 ^ 30 + a % 2 ^ 30
  match collHit s p slot a with
  | some i => collFail p i.seq m.item v (tenTail s p i.tenancy) true s
  | none => s

end Sys2Proof.Machine
end

