-- ==== Sys2Proof/Machine/HbmEvents.lean ====
section
/-! DEFINITION. What HBM and the die stores do by themselves (08 R295 to R329, 06 R242 to R250): the ends of bursts,
dead channels and folds, retraining, and the accesses that granules serve. -/

namespace Sys2Proof.Machine

/-- R313, R319: a channel of a stack is declared dead: the first one of the stack waits for its fold, a later one is
unmapped; of two in one cycle the lower-numbered is folded. Its granules are lost and its cached lines are invalidated. -/
def declareDead (k ch cause : Nat) (s : State) : State :=
  let x := s.stack k
  let now := (s.time.postmark, s.time.stamp)
  if foldCh s k == some ch || chanDead s k ch then s
  else
    let gone (a : Nat) : Bool := (hashOf a).1 / 64 == k && (hashOf a).1 % 64 / 2 == ch ||
      (placeOf s a).1 / 64 == k && (placeOf s a).1 % 64 / 2 == ch
    dropLines gone (s.setStack k (match x.foldDue with
      | some d =>
        if d.at_ == now && ch < d.channel then
          { x with foldDue := some ⟨ch, cause, now⟩, unmapDue := x.unmapDue ++ [(d.channel, now.1)] }
        else { x with unmapDue := x.unmapDue ++ [(ch, now.1)] }
      | none =>
        if (foldCh s k).isSome then { x with unmapDue := x.unmapDue ++ [(ch, now.1)] }
        else { x with foldDue := some ⟨ch, cause, now⟩ }))

/-- R316: what is lost with a dead channel: the granules of both its pseudo-channels, and those that a fold of the stack
had moved into them. -/
def loseChannel (k ch : Nat) (s : State) : State :=
  let pcs := [64 * k + 2 * ch, 64 * k + 2 * ch + 1]
  let h := s.hbm
  { s with hbm := { h with
    lostPcs := h.lostPcs ++ pcs.filter (fun c => !h.lostPcs.contains c),
    cleared := h.cleared.filter (fun g => !pcs.contains (hashOf (256 * g)).1) } }

/-- R312, R313: declares a channel dead with the loss of its granules. -/
def channelDead (k ch cause : Nat) (s : State) : State :=
  let s' := declareDead k ch cause s
  if s' == s then s else loseChannel k ch s'

/-- R325, R326: a MEM_ERROR of a channel that names no granule. -/
def chanErr (kind k ch pc replays detail : Nat) (s : State) : State :=
  let t := min ((s.stack k).temp / 4) 254
  recordM evMemError 32 (memPay kind 0xFF k ch pc replays t 0 0xFFFF 0xFFFF detail s.time.postmark) s

/-- R322: counts the replays of a burst against the data lane that caused them; more than 16 in one frame list the lane. -/
def laneNote (pc lane n : Nat) (s : State) : State :=
  if n == 0 || !Config.isDataLane lane then s
  else
    let key := 72 * pc + lane
    let new := (tblGet s.store.laneReplays key).getD 0 + n
    let c : Repair := ⟨2, pc / 64, pc % 64 / 2, pc % 2, lane, s.time.postmark⟩
    let listed := s.store.repairs.any (fun r => { r with postmark := c.postmark } == c)
    { s with store := { s.store with
      laneReplays := tblPut s.store.laneReplays key new,
      repairs := if 16 < new && !listed then s.store.repairs ++ [c] else s.store.repairs } }

/-- The parcel and lot slot that hold a package-physical address. -/
def ownerOf (s : State) (a : Nat) : Option (Nat × Nat) := (lotAt s (a / 2 ^ 30)).map (fun e => (e.1, e.2.1))

/-- The item and descriptor of the agent of a burst, if that descriptor moves HBM bytes. -/
def agentOf (s : State) (core slot : Nat) : Option (Nat × Item × Plan × Desc) :=
  match runOf s core, ((s.core core).slot slot).active with
  | some (p, i, some v), some d => if d.far == 0 && d.landedAt.isNone then some (p, i, v, d) else none
  | _, _ => none

/-- R298, R300, R322, R326, R328: what a read burst leaves before its item is looked at: its replays and its check; how
it ended. -/
def burstRead (r : HbmRead) (c : MCtx) (s : State) : MRes × State :=
  let pc := (placeOf s r.addr).1
  let k := pc / 64
  let ch := pc % 64 / 2
  let n := min r.replays 4
  let lost := granDead s r.addr || granMarked s (r.addr / 256)
  let s := if r.stored then { s with hbm := { s.hbm with errs := tblPut s.hbm.errs (r.addr / 256) r.err } } else s
  let err := if r.stored then r.err else r.err ++ (tblGet s.hbm.errs (r.addr / 256)).getD []
  let s := laneNote pc r.lane n (if n == 0 || lost then s else hbmCount k 3 n s)
  let s := if 2 ≤ n then memErr 5 r.addr n (burstDetail s r.addr err) c s else s
  let x := granCheck r.addr err r.exhausted n c s
  let s := x.2.2
  if r.exhausted && !granDead s r.addr then
    let y := s.stack k
    let m := (tblGet y.exhausted ch).getD 0 + 1
    let s := s.setStack k { y with exhausted := tblPut y.exhausted ch m }
    (x.1, if m == 16 then channelDead k ch 2 s else s)
  else (x.1, s)

/-- R283: the rank of a memory failure among the failures of one cycle. -/
def failRank : MRes → Nat
  | .lost => 0 | .uncorr => 1 | .badLot => 2 | .detect => 3 | .ok => 4

/-- A burst that has failed: its rank, its agent's item and descriptor slot, how and where. -/
structure FailedBurst where
  rank : Nat
  fault : Option (Nat × CoreFault)
  parcel : Nat
  seq : Nat
  ten : Nat
  seg : Nat
  core : Nat
  slot : Nat
  res : MRes
  vaddr : Nat
  ev : Nat

/-- The tenancy and number of the update or collective item whose work on an address an engine's burst belongs to. -/
def engineCtx (wr : Bool) (s : State) (a : Nat) : MCtx :=
  match ownerOf s a with
  | some (p, slot) =>
    let i := match updHit wr s p slot a with
      | some x => some x.1
      | none => collHit s p slot a
    match i with
    | some i => { ten := i.tenancy, seq := i.seq }
    | none => {}
  | none => {}

/-- R248, R297: whether an outbound descriptor writes only a part of the granule of an address, which is then read first. -/
def partWrite (d : Desc) (v : Nat) : Bool :=
  let g := v / 256 * 256
  d.runs.any (fun r => decide (r.1 < g + 256) && decide (g < r.1 + d.n0) && !(decide (r.1 ≤ g) && decide (g + 256 ≤ r.1 + d.n0)))

/-- One read burst of a command: its effects, and its failure if an item's descriptor met one. A burst of no core
belongs to the update or collective engine, whose work on that address fails (R380, R530). -/
def readOne (a : List FailedBurst × State) (r : HbmRead) : List FailedBurst × State :=
  let s := a.2
  match agentOf ((reviveAt r.core s.time.stamp s).getD s) r.core r.slot with
  | some (p, i, _, d) =>
    match ownerOf s r.addr with
    | some (q, slot) =>
      let v := slot * 2 ^ 30 + r.addr % 2 ^ 30
      if q != p || !d.inbound && !partWrite d v then a
      else
        let tail := tenTail s p i.tenancy
        let x := burstRead r { ten := i.tenancy, seq := i.seq } s
        if x.1 == .ok then (a.1, x.2)
        else
          let ev := if tenTail x.2 p i.tenancy == tail then 0 else tail + 1
          let lc := ((s.parcel p).logical r.core).getD 0xFFFF
          (a.1 ++ [⟨failRank x.1, r.fault.map (fun f => (r.core, f)), p, i.seq, i.tenancy, i.seg, lc, r.slot, x.1, v, ev⟩], x.2)
    | none => a
  | none =>
    if r.core != 0xFFFF then a
    else
      let x := burstRead r (engineCtx false s r.addr) s
      match ownerOf s r.addr with
      | some (p, slot) =>
        if x.1 == .ok then (a.1, x.2) else (a.1, collFault p slot r.addr x.1 (updFault false p slot r.addr x.1 x.2))
      | none => (a.1, x.2)

/-- R301: of the failures of one item in one cycle, the one that counts. -/
def firstOfItem : List FailedBurst → List (Nat × Nat) → List FailedBurst
  | [], _ => []
  | f :: r, seen =>
    if seen.contains (f.parcel, f.seq) then firstOfItem r seen else f :: firstOfItem r ((f.parcel, f.seq) :: seen)

/-- R283 to R285, R298 to R301, R329: HBM_READ_COMPLETE: the read bursts that end in one cycle; of several failures of one
item the first in the order of R283 gives its status, and a core's fault of the same cycle comes before them. -/
def execHbmReadComplete (cycle : Nat) (rs : List HbmRead) (s : State) : Host.Outcome State Fault Refusal :=
  if !s.power.good then .next s
  else
    let x := rs.foldl readOne ([], s.atCycle cycle)
    let fs := sortBy (fun (a b : FailedBurst) => decide (a.rank < b.rank)) x.1
    let s := (x.1.filterMap (·.fault)).foldl (fun s f => coreFault f.1 f.2 s) x.2
    fin ((firstOfItem fs []).foldl (fun s f =>
      failItem f.parcel f.seq ⟨f.res.item, f.res.desc, f.core, f.seg, f.slot, 0xFFFF, f.vaddr / 256 * 256, f.vaddr / 2 ^ 30⟩
        f.ev s) s)

/-- R325: DETAIL of a record about a write burst: of a Class A granule the CRC computed over what it stores. -/
def writeDetail (s : State) (w : HbmWrite) : Nat :=
  if classA s w.addr then crc32c (overlay (granData s w.addr) (w.addr % 256) w.data ++ leBytes (w.addr / 256) 4) else 0xFFFFFFFF

/-- R300, R312, R313, R326: a write burst whose replays are exhausted declares its channel dead; the write meets a lost granule and ends
MEM_LOST. -/
def writeReplays (w : HbmWrite) (c : MCtx) (s : State) : State :=
  let pc := (placeOf s w.addr).1
  let n := min w.replays 4
  let dt := writeDetail s w
  let s := laneNote pc w.lane n (if n == 0 then s else hbmCount (pc / 64) 3 n s)
  let s := if 2 ≤ n then memErr 5 w.addr n dt c s else s
  if w.exhausted then lostAccess w.addr n c (channelDead (pc / 64) (pc % 64 / 2) 1 (memErr 6 w.addr n dt c s)) else s

/-- R248, R297, R312, R316: a write burst of a core's outbound descriptor stores a granule whole or
merged; one of no core belongs to an engine, whose work fails with it. -/
def writeRow (w : HbmWrite) (s : State) : Host.Outcome State Fault Refusal :=
  if !s.power.good then .next s
  else
    let s := s.atCycle w.cycle
    match ownerOf s w.addr with
    | none => .next s
    | some (q, slot) =>
      let v := slot * 2 ^ 30 + w.addr % 2 ^ 30
      match agentOf s w.core w.slot with
      | some (p, i, vp, d) =>
        let lc := ((s.parcel p).logical w.core).getD 0xFFFF
        let covers := d.runs.any (fun r => decide (r.1 ≤ v) && decide (v + w.data.length ≤ r.1 + d.n0))
        let owns := (lotAt s (w.addr / 2 ^ 30)).any (fun e => e.2.2.owner == i.tenancy)
        if q != p || d.inbound || !covers || !owns || 256 < w.addr % 256 + w.data.length || blocked s p w.core lc vp d then .next s
        else
          let tail := tenTail s p i.tenancy
          let c : MCtx := { ten := i.tenancy, seq := i.seq, quiet := true }
          let s := writeReplays w c s
          let x := if w.exhausted then (MRes.lost, s) else wrLine p w.addr w.data (d.policy == 0) (p, i.seq) c s
          if x.1 == .ok then fin x.2
          else
            let ev := if tenTail x.2 p i.tenancy == tail then 0 else tail + 1
            fin (failItem p i.seq ⟨x.1.item, x.1.desc, lc, i.seg, w.slot, 0xFFFF, v / 256 * 256, slot⟩ ev x.2)
      | none =>
        if w.core != 0xFFFF then .next s
        else
          let s := writeReplays w (engineCtx true s w.addr) s
          fin (if w.exhausted then collFault q slot w.addr .lost (updFault true q slot w.addr .lost s) else s)

/-- R248, R297, R312, R316: HBM_WRITE_COMPLETE. -/
def execHbmWriteComplete (w : HbmWrite) (s : State) : Host.Outcome State Fault Refusal :=
  withLate w.core w.cycle (writeRow w) s

/-- R312: STACK_FATAL_ERROR. -/
def execStackFatalError (stack channel : Nat) (s : State) : Host.Outcome State Fault Refusal :=
  if !s.power.good || 12 ≤ stack || 32 ≤ channel then .next s else fin (channelDead stack channel 4 s)

/-- R317: the FOLD event of a stack: to the operator, and to every tenancy in use of each parcel that holds a lot. -/
def foldEvent (k ch cause : Nat) (s : State) : State :=
  recordShared evFold 3 (lotParcels s) (pay [(k, 1), (ch, 1), (cause, 1)]) (fun _ => pay [(0xFF, 1), (0xFF, 1), (cause, 1)]) s

/-- R314, R319, R321: the folds and unmappings of one stack that frames before `now` declared. -/
def foldStack (now k : Nat) (s : State) : State :=
  let x := s.stack k
  let s := match x.foldDue with
    | some d =>
      if d.at_.1 < now then
        let e := 2 ^ 31 + d.cause * 2 ^ 27 + d.channel
        foldEvent k d.channel d.cause ({ s with store := { s.store with folds := tblPut s.store.folds k e } }.setStack k
          { x with foldDue := none })
      else s
    | none => s
  (x.unmapDue.filter (fun d => decide (d.2 < now))).foldl (fun s d =>
    let y := s.stack k
    let e := (tblGet s.store.folds k).getD 0
    let e := if bit e 30 then e else e + 2 ^ 30 + 256 * d.1
    { s with store := { s.store with folds := tblPut s.store.folds k e } }.setStack k
      { y with unmapped := y.unmapped ++ [d.1], unmapDue := y.unmapDue.filter (·.1 != d.1) }) s

/-- R314 to R319, R321: FOLD_APPLY: in a frame head, the folds of the channels declared dead before it. -/
def execFoldApply (s : State) : Host.Outcome State Fault Refusal :=
  if inHead s then fin ((List.range 12).foldl (fun s k => foldStack s.time.postmark k s) s) else .next s

/-- R310 to R312, R329: RETRAIN_WINDOW: the one window of a stack in a frame, from cycle 1,024 on, in which its next channel
retrains; a failure repeats it, the third in a row declares it dead. No window during a drain. DESIGN CHOICE (log entry 16):
after the third failure the turn passes to the next channel, and the window of a channel that is dead by its end retrains
nothing, records nothing and passes the turn on. -/
def execRetrainWindow (stack : Nat) (ok : Bool) (s : State) : Host.Outcome State Fault Refusal :=
  let x := s.stack stack
  if !s.power.good || 12 ≤ stack || x.unreachable || s.power.drainOn || x.window == some s.time.postmark then .next s
  else
    let s := s.atCycle 1024
    let x := { x with window := some s.time.postmark }
    if ok || foldCh s stack == some x.nextCh || chanDead s stack x.nextCh then
      .next (s.setStack stack { x with nextCh := (x.nextCh + 1) % 32, fails := 0 })
    else
      let n := x.fails + 1
      let s := (chanErr 7 stack x.nextCh 0xFFFF 0 n s).setStack stack
        { x with fails := if n == 3 then 0 else n, nextCh := if n == 3 then (x.nextCh + 1) % 32 else x.nextCh }
      fin (if n == 3 then channelDead stack x.nextCh 3 s else s)

/-- R250, R556: counts a corrected die-store word. -/
def dsCorrected (d : Nat) (s : State) : State :=
  let x := s.die d
  let s := s.setDie d { x with dsCorrected := add48 x.dsCorrected 1 }
  let ps := (liveParcels s).filter (fun p => (s.parcel p).granules.any (fun g => g.1 == d))
  if reaches48 x.dsCorrected 1 then satShared ps 6 d (fun _ => 0xFFFF) s else s

/-- The tenancy and number of the item that a core runs, for its events. -/
def ctxOf (s : State) (core : Nat) : MCtx :=
  match runOf s core with
  | some (_, i, _) => { ten := i.tenancy, seq := i.seq }
  | none => {}

/-- R250, R326, R534: the record of an error beyond correction that a granule of the die store meets for a core: of a line's
address, or of no HBM address; no CRC is computed, so DETAIL is 0xFFFFFFFF (DESIGN CHOICE, log entry 36). -/
def granRecord (m : MRes) (g : GranReq) (line : Option Nat) (s : State) : State :=
  let kind := if m == .detect then 4 else 2
  match line with
  | some a => memErr kind a 0 0xFFFFFFFF (ctxOf s g.core) s
  | none =>
    let c := ctxOf s g.core
    match parcelOfCore s g.core with
    | some p =>
      let b := memPay kind 0xFF 0xFF 0xFF 0xFFFF 0 0xFF 0 p 0xFFFF 0xFFFFFFFF s.time.postmark
      recordP evMemError p c.ten c.seq 32 b b s
    | none => s

/-- R250, R386, R530: an item that lost a line it wrote fails, if it still runs; of an update item, the group whose work that
address is. The newest record of its tenancy's log is that of the loss. -/
def writerFail (a : Nat) (m : MRes) (s : State) (w : Nat × Nat) : State :=
  match (s.parcel w.1).item w.2 with
  | none => s
  | some i => match i.kind, ownerOf s a with
    | .plan, _ | .batch _, _ => failItem w.1 w.2 { status := m.item } (tenTail s w.1 i.tenancy) s
    | .coll, _ => collFail w.1 w.2 m.item 0 (tenTail s w.1 i.tenancy) true s
    | .update, some (p, slot) => updFault true p slot a m s
    | .update, none => s

/-- R250, R534: fails the items of an access, `writers` among them; `line` is the address of the line met, none in scratchpad mode.
An access of no core is an engine's, whose work on that address fails. -/
def granFail (g : GranReq) (m : MRes) (line : Option Nat) (writers : List (Nat × Nat)) (s : State) : State :=
  let tail (s : State) := tenTail s ((parcelOfCore s g.core).getD 0xFF) (ctxOf s g.core).ten
  let old := tail s
  let s := granRecord m g line s
  let ev := if tail s == old then 0 else old + 1
  let s := match line with
    | some a => writers.foldl (writerFail a m) s
    | none => s
  if g.core == 0xFFFF then
    match line.bind (fun a => (ownerOf s a).map (fun o => (a, o))) with
    | some (a, p, slot) => collFault p slot a m (updFault false p slot a m s)
    | none => s
  else match (s.core g.core).seq.item with
    | some (p, seq, seg) => failItem p seq ⟨m.item, m.desc, ((s.parcel p).logical g.core).getD 0xFFFF, seg, g.slot, 0xFFFF, 0, 0xFFFF⟩ ev s
    | none => s

/-- R250: an uncorrectable error in a line that a granule holds. -/
def lineError (g : GranReq) (key : Nat) (l : Line) (s : State) : State :=
  let h := (g.die, g.granule)
  let a := lineAddr (key / 16) l.tag
  let x := s.gran h
  let s := s.setGran h { x with lines := tblDel x.lines key }
  if !l.dirty then
    let r := rdGran a {} s
    if r.1 == .ok then
      r.2.2.setGran h { r.2.2.gran h with lines := tblPut (r.2.2.gran h).lines key { l with data := r.2.1 } }
    else r.2.2
  else if classA s a then granFail g .detect (some a) [] s
  else granFail g .uncorr (some a) l.writers s

/-- R242, R243, R250: a granule serves a cache hit or a scratchpad-mode access; a single-bit error is
corrected and counted, an uncorrectable one has the result of R250. -/
def granRow (g : GranReq) (s : State) : Host.Outcome State Fault Refusal :=
  if !s.power.good || 8 ≤ g.die || 16 ≤ g.granule || (s.die g.die).lost then .next s
  else
    let s := s.atCycle g.cycle
    let h := (g.die, g.granule)
    let x := s.gran h
    match x.owner with
    | none => .next s
    | some _ =>
      if x.cache then
        let set := g.addr / 256 % 4096
        match findWay x set (g.addr / 256 / 4096) with
        | none => .next s
        | some w =>
          let key := 16 * set + w
          let s := touch h key s
          let s := if g.corrected then dsCorrected g.die s else s
          if g.uncorrectable then
            match tblGet (s.gran h).lines key with
            | some l => fin (lineError g key l s)
            | none => .next s
          else fin s
      else
        let s := if g.corrected then dsCorrected g.die s else s
        if g.uncorrectable && !g.write then
          fin (granFail g .detect none [] (dsUndef g.die (g.addr / 32 * 32) 32 s))
        else fin s

/-- R242, R243, R250: GRANULE_SERVICE. -/
def execGranuleService (g : GranReq) (s : State) : Host.Outcome State Fault Refusal := withLate g.core g.cycle (granRow g) s

end Sys2Proof.Machine
end

