-- ==== Sys2Proof/Machine/Hold.lean ====
section
/-! DEFINITION. Thermal hold (08 R308, 16 R580) and the HOLD frames of a condition that lasts (14 R519). -/

namespace Sys2Proof.Machine

/-- R308: the items of a parcel that a hold ends: those with segments outstanding that do not issue now, and those that
wait for their re-issue. -/
def heldItems (x : Parcel) : List Item :=
  x.items.filter (fun i => i.isPlan && i.outstanding && !i.segRunning)

/-- R308, R393: what a hold ends in one parcel. -/
def holdParcel (p : Nat) (s : State) : State :=
  let s := (heldItems (s.parcel p)).foldl (fun s i =>
    failItem p i.seq { status := .thermalHold } 0 s) s
  updHold p s

/-- R308, R393, R519, R563, R579: THERMAL_HOLD_ENTER: in a frame head, when a reading of an earlier frame called for it. -/
def execThermalHoldEnter (s : State) : Host.Outcome State Fault Refusal :=
  let w := s.power
  if !inHead s || w.holdOn || w.holdDue == 0 || s.time.postmark ≤ w.holdAt then .next s
  else
    let s := stateEvent 1 1 { s with power := { w with holdOn := true, holdCause := w.holdDue, holdDue := 0 } }
    let s := (liveParcels s).foldl (fun s p => holdParcel p s) s
    fin (sendHold 100 1 (setAlert s))

/-- R580, R563: THERMAL_HOLD_EXIT: at the first frame head after a whole frame within every limit. -/
def execThermalHoldExit (s : State) : Host.Outcome State Fault Refusal :=
  let w := s.power
  if !inHead s || !w.holdOn || !w.coolLast then .next s
  else fin (setAlert (stateEvent 1 0 { s with power := { w with holdOn := false, holdCause := 0 } }))

/-- R519: HOLD_SEND: while a condition lasts, its HOLD frames go out again every 10 ms. -/
def execHoldSend (s : State) : Host.Outcome State Fault Refusal :=
  let s := if s.power.holdOn then sendHold 100 1 s else s
  let s := if s.power.drainOn then sendHold 500 2 s else s
  fin (if s.recovery then sendHold 500 3 s else s)

end Sys2Proof.Machine
end

