-- ==== Sys2Proof/Machine/Ports.lean ====
section
/-! DEFINITION. Courier ports (14 R504 to R510): states, lanes and what a port that goes down leaves. -/

namespace Sys2Proof.Machine

/-- R552: a LINK record of a port: its kind, the port's state and a lane. -/
def linkRecord (port kind lane : Nat) (s : State) : State :=
  recordM evLink 4 (pay [(port, 1), (kind, 1), ((s.port port).st.code, 1), (lane, 1)]) s

/-- R552, R503: a LINK record, and the PF's message that a port or lane changed state. -/
def linkEvent (port kind lane : Nat) (s : State) : State := msix 0 10 (linkRecord port kind lane s)

/-- R512: a frame whose HOPS reaches 0 is discarded with a LINK record. -/
def hopLimit (port : Nat) (s : State) : State := linkRecord port 2 0 s

/-- R532: posts the replies of the LINK_CONFIG commands that wait for the port to reach a state. -/
def portReply (port : Nat) (s : State) : State :=
  let x := s.port port
  x.pendingCfg.foldl (fun s tk => reply tk .ok [] s) (s.setPort port { x with pendingCfg := [] })

/-- R508: a port changes state. -/
def portTo (port : Nat) (st : PortSt) (s : State) : State :=
  linkEvent port 0 0 (s.setPort port { s.port port with st := st })

/-- R508, R509: a port goes DOWN: it leaves every route, and the frames of its replay buffer go out on the ports that
are left; TICK frames are not sent again (R515). -/
def portGoesDown (port : Nat) (s : State) : State :=
  let kept := (s.port port).kept
  let s := s.setPort port { s.port port with kept := [] }
  let s := portTo port .down s
  let s := (kept.filter (fun e => le e.2 0 1 != ftTick)).foldl (fun s e => routeFrame e.2 s) s
  portReply port s

/-- R508, R532: PORT_UP: a port completes its training; the member and port at the far end are known. -/
def execPortUp (port member peerPort : Nat) (s : State) : Host.Outcome State Fault Refusal :=
  let x := s.port port
  if 8 ≤ port || x.st != .training then .next s
  else
    let lost := (List.range 5).filter (fun k => bit x.failed k)
    let failed := if lost.length ≤ 1 then x.failed else 0
    let act := mapOf (((List.range 5).filter (fun k => !bit failed k)).take 4)
    let s := s.setPort port { x with
      active := act, failed := failed, peerMember := member % 65536, peerPort := peerPort % 256, rxNext := 0, txNext := 0, kept := [], rxBuf := [],
      rxReplay := false, replayTo := none }
    fin (portReply port (portTo port .up s))

/-- R508, R509: PORT_DOWN: a second lane lost, no training within 500 ms, or no acknowledgement for 1 ms. -/
def execPortDown (port : Nat) (s : State) : Host.Outcome State Fault Refusal :=
  let st := (s.port port).st
  if 8 ≤ port || (st != .up && st != .training) then .next s else fin (portGoesDown port s)

/-- R508: PORT_RETRAIN: a DOWN port trains again. -/
def execPortRetrain (port : Nat) (s : State) : Host.Outcome State Fault Refusal :=
  if 8 ≤ port || (s.port port).st != .down then .next s else fin (portTo port .training s)

/-- R507, R508, R533: LANE_FAIL: the spare takes the lane's traffic, and what the move interrupted is replayed: every flit not yet
acknowledged goes out again, and the one expected next comes as a replayed one (DESIGN CHOICE, log entry 29). With no spare
left the port goes DOWN. -/
def execLaneFail (port lane : Nat) (s : State) : Host.Outcome State Fault Refusal :=
  let x := s.port port
  if 8 ≤ port || 5 ≤ lane || x.st != .up || bit x.failed lane then .next s
  else
    let failed := x.failed + 2 ^ lane
    let good := (List.range 5).filter (fun k => !bit failed k)
    let s := s.setPort port { x with failed := failed, active := mapOf (good.take 4) }
    if !bit x.active lane then .next (msix 0 10 s)
    else if good.length < 4 then fin (portGoesDown port s)
    else
      let far := if x.mode8023 then none else some (x.replayTo.getD x.rxNext)
      let s := s.setPort port { s.port port with replayTo := far }
      .next (linkEvent port 1 lane (if x.mode8023 then s else ((x.kept.head?).map (·.1)).elim s (fun n => resend port n s)))

end Sys2Proof.Machine
end

