-- ==== Sys2Proof/Machine/Courier.lean ====
section
/-! DEFINITION. Flits and Courier frames as they arrive (14 R504 to R531): checks and protection, streams, collective and update
frames, HOLD and peer loss, the tick datum. -/

namespace Sys2Proof.Machine

/-- The fields of a frame header (R513). -/
def fType (b : List Byte) : Nat := le b 0 1
def fProt (b : List Byte) : Bool := bit (le b 1 1) 0
def fLast (b : List Byte) : Bool := bit (le b 1 1) 1
def fDest (b : List Byte) : Nat := le b 2 2
def fSrc (b : List Byte) : Nat := le b 4 2
def fFed (b : List Byte) : Nat := le b 6 2
def fParcel (b : List Byte) : Nat := le b 8 1
def fChan (b : List Byte) : Nat := le b 9 1
def fTag (b : List Byte) : Nat := le b 10 1
def fHops (b : List Byte) : Nat := le b 11 1
def fLen (b : List Byte) : Nat := le b 12 4
def fOffset (b : List Byte) : Nat := le b 20 4
def fCounter (b : List Byte) : Nat := le b 24 8

/-- R513: whether a frame's length fits its header. -/
def fWhole (b : List Byte) : Bool :=
  decide (fLen b ≤ 4096) && b.length == 32 + fLen b + (if fProt b then 16 else 0)

/-- R510: the Courier frame that an IEEE 802.3 frame carries; none where its FCS, its EtherType or its addresses are not those of
a frame of the federation: such a frame is lost. -/
def unwrap8023 (fed : Nat) (b : List Byte) : List Byte :=
  let body := (b.drop 14).take (b.length - 18)
  let fr := body.take (32 + fLen body + (if fProt body then 16 else 0))
  let head := macOf fed (fDest fr) ++ macOf fed (fSrc fr) ++ [0x88, 0xB5]
  if decide (18 ≤ b.length) && b.drop (b.length - 4) == fcs (b.take (b.length - 4)) && b.take 14 == head then fr else []

/-- R510: the Courier frame that has come, out of the IEEE 802.3 frame on a port in 802.3 mode. -/
def received (s : State) (fr : CFrame) : CFrame :=
  if (s.port fr.port).mode8023 then { fr with bytes := unwrap8023 s.fed.number fr.bytes } else fr

/-- R508, R511: whether a port of the package takes frames of its federation. -/
def portOpen (s : State) (fr : CFrame) : Bool :=
  s.power.ready && decide (fr.port < 8) && (s.port fr.port).st == .up && s.fed.federated
    && fFed fr.bytes == s.fed.number && fWhole fr.bytes

/-- R511, R512, R521: whether a frame of a type is for this package and not from a lost member. -/
def forUs (s : State) (fr : CFrame) (type : Nat) : Bool :=
  portOpen s fr && fType fr.bytes == type && fDest fr.bytes == s.fed.member && !s.fed.lostMembers.contains (fSrc fr.bytes)

/-- The rank of a frame's source on a COLLECTIVE channel: for a DATA frame the rank before this one, where that is the
source (R528); else the first rank of the source other than this package's. -/
def srcRank (c : Channel) (src : Nat) (data : Bool) : Option Nat :=
  let m := c.members.length
  let prev := (c.rank + m - 1) % m
  if data && nth c.members prev 0 % 16384 == src then some prev
  else (List.range m).find? (fun k => k != c.rank && nth c.members k 0 % 16384 == src)

/-- R523, R534: what fails with FAIL_SECURITY when a frame of a channel is refused: the items that use it, the
collective item on it, the groups that wait on it and have not voted, and an update item in its tally exchange. -/
def channelFails (p ch : Nat) (s : State) : State :=
  (s.parcel p).items.foldl (fun s i =>
    let ev := tenTail s p i.tenancy
    match i.kind with
    | .plan | .batch _ =>
      if i.streams.any (fun x => x.1 == ch) then failItem p i.seq { status := .security, seg := i.seg } ev s else s
    | .coll =>
      if i.begun && (i.ops[i.coll.op]?).any (fun o => o.channel == ch) then collFail p i.seq .security 0 ev true s else s
    | .update =>
      let s := i.groups.foldl (fun s q =>
        match runOfGroup s p q.group with
        | none => s
        | some (_, r) =>
          let ge := (s.parcel p).group r.group
          let open_ := r.phase == .pass1 || r.phase == .norm || r.phase == .pass2 || (r.phase == .voted && gShard ge == 0)
          if gSharded ge && gChannel ge == ch && open_ then
            finishGroup p i.seq r.group .security 0 false (modRun p i.seq r.group (fun r => { r with ev := ev }) s)
          else s) s
      match (s.parcel p).item i.seq with
      | some j => if j.tallySent && j.tallyCh == ch then updateSecurity p j ev s else s
      | none => s) s

/-- R523, R552: a frame is discarded for a security cause. -/
def frameRefused (cause p ch src : Nat) (s : State) : State :=
  let c := (s.parcel p).chan ch
  let b := pay [(cause, 1), (ch, 1), (src, 2)]
  channelFails p ch (recordP evSecurity p c.tenancy 0xFFFFFFFF 4 b b s)

/-- R523: opens a channel's frame: its payload, or none with what the refusal leaves. The authenticated header carries
HOPS as the source set it. In the error state no key is used, so a protected channel takes nothing (R431). -/
def openFrame (p ch : Nat) (b : List Byte) (s : State) : Option (List Byte) × State :=
  let c := (s.parcel p).chan ch
  let src := fSrc b
  if c.keySlot == 0xFF then
    if chanBarred s p c then (none, frameRefused 6 p ch src s)
    else if fProt b then (none, s) else (some ((b.drop 32).take (fLen b)), s)
  else if s.sec.error then (none, s)
  else
    let n := fLen b
    let head := b.take 11 ++ [32] ++ (b.drop 12).take 20
    let tag := (b.drop (32 + n)).take 16
    match (if fProt b then (chanKey s p c).bind (fun key =>
      gcmOpen key (frameIv src p ch (fCounter b)) head ((b.drop 32).take n) tag) else none) with
    | none =>
      let old := c.authFailed
      let s := s.modParcel p (fun x => { x with channels := tblPut x.channels ch { c with authFailed := add48 old 1 } })
      let s := if reaches48 old 1 then satEvent p c.tenancy 0xFFFFFFFF 16 ch s else s
      (none, frameRefused 2 p ch src s)
    | some body =>
      if fCounter b ≤ (tblGet c.rxCounter src).getD 0 then (none, frameRefused 3 p ch src s)
      else
        (some body, s.modParcel p (fun x => { x with
          channels := tblPut x.channels ch { c with rxCounter := tblPut c.rxCounter src (fCounter b) } }))

/-- R510, R522 to R524: a frame of a type on a channel of a kind: handed on with its bytes, its parcel, channel, rank (0 on a
POINT channel) and payload. -/
def onChannel (fr : CFrame) (type : Nat) (kinds : List Nat)
    (f : List Byte → Nat → Nat → Nat → List Byte → State → State) (s : State) : Host.Outcome State Fault Refusal :=
  let b := (received s fr).bytes
  if !forUs s (received s fr) type then .next s
  else
    let p := fParcel b
    let ch := fChan b
    let c := (s.parcel p).chan ch
    let rank := if c.kind == 1 then (if c.peerMember == fSrc b then some 0 else none) else srcRank c (fSrc b) (type == ftData)
    match rank with
    | none => .next s
    | some k =>
      if (s.parcel p).state == .free || !kinds.contains c.kind then .next s
      else
        let o := openFrame p ch b s
        match o.1 with
        | none => fin o.2
        | some body => fin (f b p ch k body (countFrame p ch false o.2))

/-- The accepted LINK IN descriptors of a stream that have not landed: core, slot and descriptor. -/
def linkIns (s : State) (p ch tag : Nat) : List (Nat × Nat × Desc) :=
  (s.parcel p).coreMap.flatMap (fun k => (s.core k).slots.flatMap (fun x =>
    ((x.2.active.toList ++ x.2.next.toList).filter (fun d =>
      d.far == 3 && d.inbound && d.partner == ch && d.tag == tag && d.landedAt.isNone)).map (fun d => (k, x.1, d))))

/-- R524: bytes of a stream have come: they wait for the descriptors that take them, and what is still missing is
waited for again (R520). -/
def streamData (p ch tag : Nat) (body : List Byte) (s : State) : State :=
  let c := (s.parcel p).chan ch
  let st := (tblGet c.streams tag).getD {}
  let rx := st.rx ++ body
  let s := s.modParcel p (fun x => { x with channels := tblPut x.channels ch { c with streams := tblPut c.streams tag { st with rx := rx } } })
  let s := endWait p ch tag c.peerMember s
  let need := ((linkIns s p ch tag).map (fun x => x.2.2.bytes)).foldl (· + ·) 0
  if rx.length < need then beginWait p ch tag c.peerMember s else s

/-- R524, R528: DATA: stream bytes of a POINT channel, or a frame of a collective operation. -/
def execData (fr : CFrame) (s : State) : Host.Outcome State Fault Refusal :=
  onChannel fr ftData [1, 2] (fun b p ch k body s =>
    if ((s.parcel p).chan ch).kind == 1 then streamData p ch (fTag b) body s
    else onCollData p ch k (fOffset b) body s) s

/-- R524: CREDIT: credit of 4 KiB each; the bytes that waited for it go out. -/
def execCredit (fr : CFrame) (s : State) : Host.Outcome State Fault Refusal :=
  onChannel fr ftCredit [1] (fun b p ch _ body s =>
    let c := (s.parcel p).chan ch
    let t := fTag b
    let st := (tblGet c.streams t).getD {}
    let st := { st with credit := st.credit + le body 0 4 }
    let s := s.modParcel p (fun x => { x with channels := tblPut x.channels ch { c with streams := tblPut c.streams t st } })
    flushTx p ch t (st.tx.length + 1) s) s

/-- R525: the descriptors that have taken part of the bytes that have come on a stream, in the order in which they were accepted
before one another, with the tenancy and number of their items. -/
def takers (s : State) (p ch tag n : Nat) : List (Nat × Nat × Nat × Nat) :=
  let l := linkIns s p ch tag
  (l.filter (fun x => decide (((l.filter (fun y => y.2.2.order < x.2.2.order)).map (·.2.2.bytes)).foldl (· + ·) 0 < n))).filterMap
    (fun x => (runOf s x.1).map (fun r => (x.1, x.2.1, r.2.1.tenancy, r.2.1.seq)))

/-- R525: a stream is emptied and its credit restored: every descriptor that has taken part of it ends PEER_LOST with its own
event, and what the other accepted IN descriptors ask for is granted anew. -/
def streamReset (p ch tag : Nat) (s : State) : State :=
  let c := (s.parcel p).chan ch
  let n := ((tblGet c.streams tag).getD {}).rx.length
  let l := takers s p ch tag n
  let s := s.modParcel p (fun x => { x with channels := tblPut x.channels ch { c with streams := tblDel c.streams tag } })
  let s := endWaits p ch (512 + tag) (endWaits p ch tag s)
  let s := l.foldl (fun s x =>
    let s := peerLostEvent p x.2.2.1 x.2.2.2 c.peerMember ch s
    failOn x.1 .peerLost 10 x.2.1 (tenTail s p x.2.2.1) s) s
  match linkIns s p ch tag with
  | [] => s
  | l =>
    let asked := (l.map (fun x => x.2.2.bytes)).foldl (· + ·) 0
    let c := (s.parcel p).chan ch
    let s := s.modParcel p (fun x => { x with channels := tblPut x.channels ch { c with streams := tblPut c.streams tag { granted := asked } } })
    let s := beginWait p ch tag c.peerMember s
    if asked < 4096 then s
    else sendChan p ch ftCredit 2 c.peerMember c.peerParcel c.peerChannel tag 0 0 (leBytes (asked / 4096) 4) s

/-- R525: RESET. -/
def execReset (fr : CFrame) (s : State) : Host.Outcome State Fault Refusal :=
  onChannel fr ftReset [1] (fun b p ch _ _ s => streamReset p ch (fTag b) s) s

/-- R530, R531: ABORT. -/
def execAbort (fr : CFrame) (s : State) : Host.Outcome State Fault Refusal :=
  onChannel fr ftAbort [2] (fun b p ch _ body s => onAbort p ch (le body 0 4) (fSrc b) s) s

/-- R529, R533: SKEW. -/
def execSkew (fr : CFrame) (s : State) : Host.Outcome State Fault Refusal :=
  onChannel fr ftSkew [2] (fun _ p _ _ body s => if le body 0 2 < 4096 then setSkew p (le body 0 2) s else s) s

/-- R531: a message of one frame for a group of the parcel. -/
def groupFrame (type : Nat) (fr : CFrame) (s : State) : Host.Outcome State Fault Refusal :=
  onChannel fr type [2] (fun _ p ch k body s =>
    if body.length == 16 && decide (le body 0 2 < 4096) then onGroupMsg p ch type k body s else s) s

/-- R383: VOTE, at the coordinator of the group. -/
def execVote (fr : CFrame) (s : State) : Host.Outcome State Fault Refusal := groupFrame ftVote fr s

/-- R383, R386: DECISION. -/
def execDecision (fr : CFrame) (s : State) : Host.Outcome State Fault Refusal := groupFrame ftDecision fr s

/-- R387: QUERY. -/
def execQuery (fr : CFrame) (s : State) : Host.Outcome State Fault Refusal := groupFrame ftQuery fr s

/-- R386: ANSWER: it resolves a group that is IN_DOUBT. -/
def execAnswer (fr : CFrame) (s : State) : Host.Outcome State Fault Refusal :=
  onChannel fr ftAnswer [2] (fun _ p _ _ body s =>
    match runOfGroup s p (le body 0 2) with
    | some (_, r) => if r.phase == .inDoubt && r.step == le body 4 4 then onDecision p (le body 0 2) (le body 4 4) (le body 8 1 == 1) s else s
    | none => resolveDoubt p (le body 0 2) (le body 4 4) (le body 8 1 == 1) 0 s) s

/-- R513, R531: puts the frames of a message together; the last one hands it on. -/
def gather (type : Nat) (f : Nat → Nat → Nat → List Byte → State → State) (b : List Byte) (p ch k : Nat) (body : List Byte)
    (s : State) : State :=
  let part (e : Early) : Bool := e.type == 256 + type && e.channel == ch && e.rank == k
  let x := s.parcel p
  let old := if fOffset b == 0 then [] else ((x.inbox.find? part).map (·.body)).getD []
  let s := s.modParcel p (fun x => { x with inbox := x.inbox.filter (fun e => !part e) })
  if fOffset b != old.length then s
  else if fLast b then f p ch k (old ++ body) s
  else s.modParcel p (fun x => { x with inbox := x.inbox ++ [⟨256 + type, ch, k, old ++ body⟩] })

/-- R365: NORM: a shard's sums, over as many frames as needed. -/
def execNorm (fr : CFrame) (s : State) : Host.Outcome State Fault Refusal :=
  onChannel fr ftNorm [2] (gather ftNorm (fun p ch k body s =>
    if 24 ≤ body.length && decide (le body 0 2 < 4096) then onGroupMsg p ch ftNorm k body s else s)) s

/-- R392: TALLY. -/
def execTally (fr : CFrame) (s : State) : Host.Outcome State Fault Refusal :=
  onChannel fr ftTally [2] (gather ftTally onTally) s

/-- R519, R520: HOLD: every wait on its sender is extended; the first HOLD of a condition is recorded. -/
def execHold (fr : CFrame) (s : State) : Host.Outcome State Fault Refusal :=
  let b := (received s fr).bytes
  if !forUs s (received s fr) ftHold || fLen b != 8 then .next s
  else
    let m := fSrc b
    let dur := le b 32 2
    let cause := le b 34 1
    let now := nowCycles s
    let seen := s.fed.holdSeen.any (fun e => e.1 == m && e.2.1 == cause && decide (now ≤ e.2.2))
    let s := { s with fed := { s.fed with
      waits := s.fed.waits.map (fun w => if w.member == m then { w with ext := w.ext + dur } else w),
      holdSeen := s.fed.holdSeen.filter (fun e => !(e.1 == m && e.2.1 == cause)) ++ [(m, cause, now + dur * 3300000)] } }
    .next (if seen then s else recordM evHoldReceived 5 (pay [(m, 2), (dur, 2), (cause, 1)]) s)

/-- R512, R521: COURIER_FRAME_FORWARD: a frame for another member of the federation goes on, with one hop less; one from a lost
member is discarded. -/
def execCourierFrameForward (fr : CFrame) (s : State) : Host.Outcome State Fault Refusal :=
  let b := (received s fr).bytes
  if !portOpen s (received s fr) || fDest b == s.fed.member || fType b == ftTick || s.fed.lostMembers.contains (fSrc b) then .next s
  else if fHops b ≤ 1 then .next (hopLimit fr.port s)
  else .next (routeFrame (b.set 11 (BitVec.ofNat 8 (fHops b - 1))) s)

/-- R516: the tick offset in cycles that a TICK frame arriving now shows: the own tick minus the datum's, which lies
CORRECTION picoseconds before the arrival; at most half a period either way. -/
def tickOffset (s : State) (corr : Nat) : Int :=
  let o : Int := (corr * 33 / 10000 : Nat) - (s.time.cycle : Int)
  let per : Int := s.time.period
  if o < -(per / 2) then o + per else if per / 2 < o then o - per else o

/-- R515, R516: TICK: taken on UPSTREAM_PORT alone, and not where it was replayed; the offset is measured, and the frame goes on, on every other port
in Courier mode, with the delay measured on its way added to CORRECTION (a free value). -/
def execTick (fr : CFrame) (s : State) : Host.Outcome State Fault Refusal :=
  let b := fr.bytes
  let f := s.fed
  let known := s.power.ready && (f.federated || f.forming.isSome)
  if !known || fr.replayed || f.member == f.datum || fr.port != f.upstream || (s.port fr.port).st != .up || (s.port fr.port).mode8023
      || fType b != ftTick || fFed b != f.number || !fWhole b || fLen b != 20 || f.lostMembers.contains (fSrc b) then .next s
  else
    let corr := le b 44 8
    let off := tickOffset s corr
    let s := { s with fed := { f with
      tickSeen := true, tickPostmark := le b 32 8, tickPeriod := le b 40 4, offset := off,
      samples := if f.quiet then f.samples ++ [off] else f.samples } }
    if fHops b ≤ 1 then .next (hopLimit fr.port s)
    else
      let d := draw s
      let add := Config.freeNat d.1
      let s := d.2
      let outs := (List.range 8).filter (fun k => k != fr.port && (s.port k).st == .up && !(s.port k).mode8023)
      .next (outs.foldl (fun s k =>
        let h := frameHeader ftTick (le b 1 1) (s.port k).peerMember (fSrc b) (fFed b) (fParcel b) (fChan b) (fTag b)
          (fHops b - 1) 20 (le b 16 4) (le b 20 4) (le b 24 8)
        sendOn k (h ++ pay [(le b 32 8, 8), (le b 40 4, 4), (corr + add, 8)]) s) s)

/-- R518: TICK_LOST: no TICK for 100 frames, or an offset beyond the bound for 8 frames; the offset is the last measured. -/
def execTickLost (offset : Int) (s : State) : Host.Outcome State Fault Refusal :=
  let f := s.fed
  if f.federated && f.aligned && f.member != f.datum && offset == f.offset && (100 ≤ f.noTick || 8 ≤ f.outFrames) then
    fin (recordM evTickLost 8 (pay [((offset % 2 ^ 32).toNat, 4), (f.noTick, 4)])
      { s with fed := { f with aligned := false, inFrames := 0 } })
  else .next s

/-- R518: ALIGNED_RESTORE: 8 consecutive frames within the bound. -/
def execAlignedRestore (s : State) : Host.Outcome State Fault Refusal :=
  let f := s.fed
  if f.federated && !f.aligned && f.member != f.datum && 8 ≤ f.inFrames then
    fin { s with fed := { f with aligned := true, outFrames := 0 } }
  else .next s

/-- R40, R43, R52, R517, R532: FED_JOIN: at the tick that the lengthened frame has led to, within 132 cycles of the datum's, the
package takes the postmark of the datum's frame that begins, which its TICK carries or, before that has come, the last TICK
leads to (DEDUCED, log entry 79), and the datum's period, which no change accepted before then alters; or it is refused and
leaves. -/
def execFedJoin (datumPostmark : Nat) (s : State) : Host.Outcome State Fault Refusal :=
  let f := s.fed
  match f.forming, turnIn s Change.joins with
  | some (tk, _, _), some s =>
    if f.upstream == 0xFF || !f.quiet || !f.lengthened || f.astray
        || datumPostmark != (if f.tickSeen then f.tickPostmark else f.tickPostmark + 1 + f.noTick) then .next s
    else if datumPostmark < s.time.postmark || periodBusy s f.tickPeriod then
      fin (refuse tk .busy { s with fed := {} })
    else
      let s := jumpTo datumPostmark s
      let s := { s with
        time := { s.time with period := f.tickPeriod, nextPeriod := none },
        fed := { f with
          forming := none, quiet := false, lengthened := false, samples := [], federated := true, aligned := true, noTick := 0, outFrames := 0,
          inFrames := 0 } }
      fin (reply tk .ok (leBytes datumPostmark 8) s)
  | _, _ => .next s

/-- R520: TIMEOUT_MS of a channel. -/
def timeoutOf (c : Channel) : Nat := if c.timeout == 0 then 20 else c.timeout

/-- R520, R533: whether a wait has outlasted TIMEOUT_MS and the extension of HOLD frames: a frame or HOLD of the cycle in which it
would expire comes first. -/
def waitOver (s : State) (w : Wait) : Bool :=
  decide (w.since + (timeoutOf ((s.parcel w.parcel).chan w.channel) + min w.ext 500) * 3300000 < nowCycles s)

/-- R521: the items of a parcel whose LINK descriptors name a lost member fail. -/
def linkPeerLost (p m ev : Nat) (s : State) : State :=
  (s.parcel p).coreMap.foldl (fun s k =>
    let named := (s.core k).slots.filter (fun x => (x.2.active.toList ++ x.2.next.toList).any (fun d =>
      d.far == 3 && d.landedAt.isNone && ((s.parcel p).chan d.partner).peerMember == m
        && ((s.parcel p).chan d.partner).kind == 1))
    match named with
    | [] => s
    | x :: _ => failOn k .peerLost 10 x.1 ev s) s

/-- R383, R386, R520, R521: PEER_LOST: a wait on a member, on a channel, has run out: the member is lost. -/
def execPeerLost (member channel : Nat) (s : State) : Host.Outcome State Fault Refusal :=
  match s.fed.waits.find? (fun w => w.member == member && w.channel == channel && waitOver s w) with
  | none => .next s
  | some w =>
    let t := ((s.parcel w.parcel).chan channel).tenancy
    let b := pay [(member, 2), (channel, 1)]
    let s := { s with fed := { s.fed with lostMembers := if s.fed.lostMembers.contains member then s.fed.lostMembers
      else s.fed.lostMembers ++ [member] } }
    let s := recordP evPeerLost w.parcel t 0xFFFFFFFF 3 b b s
    let ev := tenTail s w.parcel t
    let s := (liveParcels s).foldl (fun s p =>
      let e := if p == w.parcel then ev else 0
      updPeerLost p member (collPeerLost p member e (linkPeerLost p member e s))) s
    fin { s with fed := { s.fed with waits := s.fed.waits.filter (fun x => x.member != member) } }

/-- R392, R532: a package that leaves its federation is cut off from every member of a parcel's channels: what waits for one
of them ends as when the member is lost. -/
def leaveParcel (p : Nat) (s : State) : State :=
  let ms := ((s.parcel p).channels.flatMap (fun c => c.2.members.map (· % 16384))).eraseDups
  (ms.filter (· != s.fed.member)).foldl (fun s m => updPeerLost p m (collPeerLost p m 0 (linkPeerLost p m 0 s))) s

/-- R532 FED_LEAVE: every channel is freed; the tick runs on freely. -/
def leaveFed (s : State) : State :=
  let s := (liveParcels s).foldl (fun s p => leaveParcel p s) s
  let s := (List.range 48).foldl (fun s p => if (s.parcel p).channels.isEmpty then s
    else s.modParcel p (fun x => { x with channels := [] })) s
  { s with fed := {} }

/-- R51, R323, R532, R546: applies a change that has no row of its own, whole, and posts its reply. -/
def applyChange (c : Change) (s : State) : State :=
  match c with
  | .period p tk =>
    if s.fed.federated || periodBusy s p then refuse tk .busy s
    else reply tk .ok [] { s with time := { s.time with nextPeriod := some p } }
  | .drainEnd tk => reply tk .ok [] (stateEvent 2 0 { s with power := { s.power with drainOn := false } })
  | .promote f k tk => promoteNow f k tk s
  | .fedLeave tk => reply tk .ok [] (leaveFed s)
  | _ => s

/-- R43, R51, R323, R532, R546: FRAME_BOUNDARY_CHANGE_APPLY: in a frame head, the first of the accepted changes that have no
row of their own is applied when its turn has come. DESIGN CHOICE (log entry 59): a change of period is checked against the
plans loaded since its acceptance, and answered BUSY if one no longer fits. -/
def execFrameBoundaryChangeApply (s : State) : Host.Outcome State Fault Refusal :=
  match turnOf s Change.plain with
  | none => .next s
  | some k => match s.changes[k]? with
    | some (_, c) => fin (applyChange c (takeChange k s))
    | none => .next s

/-- R506: the frames of the replay buffer that an acknowledgement leaves. -/
def afterAck (ack : Nat) (kept : List (Nat × List Byte)) : List (Nat × List Byte) :=
  kept.filter (fun e => decide (2048 ≤ (ack + 4096 - (e.1 + (e.2.length + 239) / 240 - 1) % 4096) % 4096))

/-- R504: the whole frames at the front of the content that has come in order, and what is left of it. A zero byte where a frame
would begin fills the flit (log entry 29). -/
def cutFrames : Nat → List Byte → List (List Byte) × List Byte
  | 0, b => ([], b)
  | n + 1, b =>
    let b := b.dropWhile (· == 0)
    let m := 32 + fLen b + (if fProt b then 16 else 0)
    if b.length < 32 then ([], b)
    else if 4096 < fLen b then ([], [])
    else if b.length < m then ([], b)
    else
      let r := cutFrames n (b.drop m)
      (b.take m :: r.1, r.2)

/-- R512, R531: the meaning of a frame that flits have carried: it goes on to another member, or it has the effect of its type. -/
def frameCame (fr : CFrame) (s : State) : Host.Outcome State Fault Refusal :=
  match fType fr.bytes with
  | 0x11 => execTick fr s
  | ty =>
    if fDest fr.bytes != s.fed.member then execCourierFrameForward fr s
    else match ty with
      | 0x01 => execData fr s
      | 0x02 => execCredit fr s
      | 0x03 => execReset fr s
      | 0x04 => execAbort fr s
      | 0x05 => execSkew fr s
      | 0x10 => execHold fr s
      | 0x20 => execVote fr s
      | 0x21 => execDecision fr s
      | 0x22 => execQuery fr s
      | 0x23 => execAnswer fr s
      | 0x24 => execNorm fr s
      | 0x25 => execTally fr s
      | _ => .next s

/-- R504, R506: the frames that the content of a flit completes, each delivered once and in order. -/
def contentCame (port : Nat) (content : List Byte) (replayed : Bool) (s : State) : Host.Outcome State Fault Refusal :=
  let x := s.port port
  let b := x.rxBuf ++ content
  let r := cutFrames (b.length / 32 + 1) b
  let again := x.rxReplay && !x.rxBuf.isEmpty || replayed
  let s := s.setPort port { x with rxBuf := r.2, rxReplay := !r.2.isEmpty && (if r.1.isEmpty then again else replayed) }
  r.1.zipIdx.foldl (fun o f => match o with
    | .next s => frameCame ⟨port, f.1, if f.2 == 0 then again else replayed⟩ s
    | e => e) (.next s)

/-- R506: a port asks for a replay from a sequence number; what comes up to the highest number seen is replayed. -/
def askReplay (port seq seen : Nat) (s : State) : State :=
  let x := s.port port
  let far := match x.replayTo with
    | none => seen
    | some r => if (r + 4096 - seen) % 4096 < 2048 then r else seen
  let s := s.setPort port { x with replayTo := some far }
  { s with outputs := s.outputs ++ [.flitReplay port seq] }

/-- R504 to R506: FLIT: a flit that fails its CRC is discarded and a replay from its SEQ requested; one in order is
acknowledged, its ACK frees the replay buffer, and its content is taken: frames, or the peer's request for a replay, which
sends the flits kept again (its layout is log entry 29). -/
def execFlit (port : Nat) (flit : List Byte) (s : State) : Host.Outcome State Fault Refusal :=
  let x := s.port port
  if 8 ≤ port || x.st != .up || x.mode8023 || flit.length != 256 then .next s
  else
    let seq := le flit 2 2 % 4096
    if crc64 (flit.take 248) != le flit 248 8 then
      let s := askReplay port seq seq (s.setPort port { x with replays := add48 x.replays 1 })
      .next (if reaches48 x.replays 1 then satEvent 0xFF 0xFF 0xFFFFFFFF 16 port s else s)
    else
      let x := { x with kept := afterAck (le flit 4 2 % 4096) x.kept }
      if seq == x.rxNext then
        let replayed := x.replayTo.any (fun r => decide ((r + 4096 - seq) % 4096 < 2048))
        let s := s.setPort port { x with
          rxNext := (seq + 1) % 4096, replayTo := if replayed && x.replayTo != some seq then x.replayTo else none }
        let s := { s with outputs := s.outputs ++ [.flitAck port seq] }
        match le flit 0 1 with
        | 1 => contentCame port (slice flit 8 240) replayed s
        | 2 => .next (if le flit 8 1 == 1 then resend port (le flit 9 2 % 4096) s else s)
        | _ => .next s
      else if (seq + 4096 - x.rxNext) % 4096 < 2048 then .next (askReplay port x.rxNext seq (s.setPort port x))
      else .next { s.setPort port x with outputs := s.outputs ++ [.flitAck port x.ack] }

end Sys2Proof.Machine
end

