-- ==== Sys2Proof/Machine/Tick.lean ====
section
/-! DEFINITION. The frame tick (01 R38 to R50) and the items of a parcel that is reset or released (11 R410). -/

namespace Sys2Proof.Machine

/-- R410: one item of a parcel that is reset or released. -/
def resetItem (p : Nat) (i : Item) (s : State) : State :=
  match i.kind with
  | .plan | .batch _ => failItem p i.seq { status := .parcelReset } 0 s
  | .update => updReset p i s
  | .coll => collFail p i.seq .parcelReset 0 0 false s

/-- R410, R536: in the frame head after a reset or release was accepted, every item completes with FAIL_PARCEL_RESET, in
order of admission. -/
def resetItems (p : Nat) (s : State) : State :=
  let x := s.parcel p
  if x.state == .resetting || x.state == .releasing then x.items.foldl (fun s i => resetItem p i s) s else s

/-- R38 to R42, R50, R260, R306, R307, R410, R425, R461, R517: FRAME_TICK. -/
def execFrameTick (s : State) : Host.Outcome State Fault Refusal :=
  if !s.power.good then .next s
  else
    let n := joinStretch s
    let per := s.time.period + n.getD 0
    let s := s.atCycle (per - 1)
    let s := overrunAtTick s
    let s := (liveParcels s).foldl (fun s p => frameCounts p (thermOverPlan p s)) s
    let s := (liveParcels s).foldl (fun s p => coarseTotals p s) s
    let s := fedCount s
    let s := { s with
      time := { s.time with
        postmark := (s.time.postmark + 1) % 2 ^ 64, cycle := 0, period := s.time.nextPeriod.getD s.time.period, nextPeriod := none,
        base := s.time.base + per },
      cores := s.cores.map (fun c => (c.1, rebaseCore per c.2)),
      parcels := s.parcels.map (fun x => (x.1, rebaseStreams per x.2)),
      store := { s.store with laneReplays := [] } }
    let s := datumAdopt (stretched n s)
    let s := tickPower ((List.range 12).foldl (fun s k => refreshFall k s) s)
    let s := sendTicks (fedQuiet s)
    fin ((liveParcels s).foldl (fun s p =>
      let s := resetItems p s
      let s := buildBatches p s
      failFenced p ((s.parcel p).items.length + 1) s) s)

end Sys2Proof.Machine
end

