-- ==== Sys2Proof/Machine/Zmi.lean ====
section
/-! DEFINITION. The frame of every ZMI command (13): sessions (R467, R468), the checks of R480 in their order, what a
command's payload must look like (R483, R532), and how an accepted command is held or performed (R418, R476). -/

namespace Sys2Proof.Machine

/-- R482, R532: what the command table says of an opcode: its lowest minimum minor baseline; whether the PF owner may
use it (1 any parcel, 2 one neither sealed nor seal-pending), a tenancy, the board management controller; whether it
names a parcel (1) and a tenancy (2) in its header; whether it is of class S; where its form byte stands. -/
structure ZSpec where
  minor : Nat := 0
  pf : Nat := 1
  ten : Bool := false
  bmc : Bool := false
  names : Nat := 0
  held : Bool := false
  form : Option Nat := none
  deriving DecidableEq, Repr

/-- The command table of R482 and R532. -/
def specOf (op : Nat) : Option ZSpec :=
  match op with
  | 0x01 => some { ten := true, bmc := true }
  | 0x02 => some { ten := true, bmc := true }
  | 0x10 => some { form := some 0 }
  | 0x11 => some { names := 1, form := some 0 }
  | 0x12 => some { pf := 0, ten := true, names := 2 }
  | 0x13 => some { ten := true, names := 1 }
  | 0x14 => some { names := 1, form := some 1 }
  | 0x20 => some { pf := 2, ten := true, names := 2, held := true }
  | 0x21 => some { pf := 2, ten := true, names := 2, held := true }
  | 0x30 => some { pf := 2, ten := true, names := 2, held := true, form := some 24 }
  | 0x31 => some { pf := 2, ten := true, names := 2, held := true }
  | 0x32 => some { pf := 2, ten := true, names := 2, held := true }
  | 0x40 => some { pf := 0, ten := true, names := 2, form := some 1 }
  | 0x41 => some { pf := 0, ten := true, names := 2 }
  | 0x50 => some { pf := 2, ten := true, names := 2, held := true, form := some 0 }
  | 0x51 => some { pf := 2, ten := true, names := 2, held := true, form := some 0 }
  | 0x60 => some { ten := true, bmc := true, form := some 0 }
  | 0x70 => some { pf := 2, ten := true, names := 2 }
  | 0x80 => some { minor := 1, pf := 2, ten := true, names := 2, held := true, form := some 0 }
  | 0x90 => some { bmc := true }
  | 0x91 => some { minor := 1 }
  | 0xA0 => some { form := some 0 }
  | 0xA1 => some { form := some 0 }
  | 0xA2 => some {}
  | 0xB0 => some { bmc := true }
  | 0xB1 => some {}
  | 0xC0 => some { ten := true, bmc := true }
  | 0xD0 => some { bmc := true }
  | 0xD1 => some { form := some 1 }
  | 0xD2 => some {}
  | 0xD3 => some {}
  | 0xD4 => some {}
  | 0xD5 => some {}
  | 0xD6 => some { pf := 2, ten := true, names := 2, held := true, form := some 1 }
  | 0xD7 => some { pf := 2, ten := true, names := 2 }
  | 0xD8 => some { pf := 2, ten := true, names := 2, held := true }
  | 0xF0 => some {}
  | 0xF1 => some {}
  | _ => none

/-- Whether a payload has exactly n bytes and its bytes from each given offset, so many, are zero. -/
def fixedLen (b : List Byte) (n : Nat) (zero : List (Nat × Nat)) : Bool :=
  b.length == n && zero.all (fun z => allZero b z.1 z.2)

/-- R397: whether a tenancy descriptor's fields lie in their ranges and its reserved bytes are zero. -/
def descOk (b : List Byte) (o : Nat) : Bool :=
  le b o 1 == 0xFF || (decide (le b (o + 1) 1 ≤ 1) && decide (1 ≤ le b (o + 2) 2) && allZero b (o + 6) 10)

/-- R483: a payload that lists bytes 0 to 3 only, in a command whose other forms go on at byte 8: bytes 4 to 7, which are
reserved, may be there or not (log entry 46). -/
def shortForm (b : List Byte) : Bool := fixedLen b 4 [(1, 1)] || fixedLen b 8 [(1, 1), (4, 4)]

/-- R479, R480 check 6, R483, R532: length and layout of a request payload of an opcode and form, its reserved fields
zero and its fields of stated range within it, where the command names no status of its own. -/
def layoutOk (op form : Nat) (b : List Byte) : Bool :=
  match op with
  | 0x01 => fixedLen b 36 []
  | 0x02 => fixedLen b 0 []
  | 0x10 =>
    if form == 0 then
      let n := le b 2 2
      1 ≤ n && n ≤ 100 && fixedLen b (160 + 8 * n) [(4, 4), (14, 2)]
        && (List.range 8).all (fun k => descOk b (32 + 16 * k))
        && (List.range n).all (fun r => decide (le b (164 + 8 * r) 1 ≤ 1) && allZero b (166 + 8 * r) 2)
    else if form == 1 then fixedLen b 5640 [(1, 7)]
    else form == 2 && fixedLen b 1 []
  | 0x11 => fixedLen b 1 [] && decide (form ≤ 1)
  | 0x12 => fixedLen b 0 []
  | 0x13 => fixedLen b 0 []
  | 0x14 =>
    fixedLen b 24 [(2, 6)] && decide (le b 0 1 ≤ 7) && (form == 1 || (form == 0 && descOk b 8))
  | 0x20 => fixedLen b 24 [(18, 2)] && le b 20 4 % 4096 == 0 && decide (le b 20 4 < 2 ^ 30)
  | 0x21 => fixedLen b 8 []
  | 0x30 => fixedLen b 25 [] && decide (form ≤ 1) && decide (le b 16 8 < 2 ^ 40)
  | 0x31 => fixedLen b 24 [] && le b 8 8 % 32 == 0 && decide (le b 8 8 ≤ 2 ^ 36) && le b 16 8 % 32 == 0 && decide (le b 16 8 < 2 ^ 40)
  | 0x32 => fixedLen b 24 [] && le b 8 8 % 32 == 0 && decide (le b 8 8 ≤ 2 ^ 36) && le b 16 8 % 32 == 0 && decide (le b 16 8 < 2 ^ 40)
  | 0x40 => fixedLen b 2 [] && decide (le b 0 1 < 4) && decide (form ≤ 1)
  | 0x41 => fixedLen b 4 []
  | 0x50 =>
    if form == 0 then fixedLen b 168 [(1, 1), (4, 4)] && decide (le b 2 2 < 4096)
    else if form == 2 then fixedLen b 72 [(1, 1), (4, 4)] && decide (le b 2 2 < 16)
    else (form == 1 || form == 3) && shortForm b && decide (le b 2 2 < (if form == 1 then 4096 else 16))
  | 0x51 => decide (form ≤ 2) && fixedLen b (32 + 16 * le b 2 2) [(1, 1), (12, 20)]
      && (if form == 2 then le b 2 2 == 0 else decide (1 ≤ le b 2 2) && decide (le b 2 2 ≤ 256))
      && (form != 0 || (decide (1 ≤ le b 6 2) && decide (le b 6 2 ≤ 16384)))
      && (List.range (le b 2 2)).all (fun r =>
        let f := le b (32 + 16 * r) 2
        let c := le b (34 + 16 * r) 2
        decide (f < 4096) && decide (1 ≤ c) && decide (f + c ≤ 4096) && allZero b (40 + 16 * r) 8)
  | 0x60 => (form == 1 || form == 2) && fixedLen b 40 [(2, 6)]
  | 0x70 => fixedLen b 2 [] && decide (1 ≤ le b 0 2)
  | 0x80 =>
    if form == 0 then fixedLen b 40 [(1, 1), (4, 4), (8 + 4, 1), (8 + 12, 12)]
    else if form == 5 then
      fixedLen b 22 [(1, 1), (4, 4)] && decide (1 ≤ le b 18 1) && decide (le b 18 1 ≤ 4) && decide (1 ≤ le b 19 1)
        && decide (le b 19 1 ≤ 64) && decide (1 ≤ le b 20 2)
    else decide (form ≤ 6) && shortForm b
  | 0x90 => fixedLen b 2 []
  | 0x91 => fixedLen b 4 []
  | 0xA0 => fixedLen b 1 [] && decide (form ≤ 1)
  | 0xA1 => fixedLen b 8 [] && decide (form ≤ 2) &&
    (form == 0 || (decide (le b 1 1 < 12) && decide (le b 2 1 < 32) && decide (le b 3 1 < 2)))
  | 0xA2 =>
    fixedLen b 6 [(0, 1), (3, 1)] && decide (le b 1 1 < 12) && decide (le b 2 1 < 32) && 1 ≤ le b 4 1 && le b 4 1 ≤ 32
      && 1 ≤ le b 5 1 && le b 5 1 ≤ 32
  | 0xB0 => fixedLen b 2 [] && (decide (le b 0 2 < 224) || decide (0xC000 ≤ le b 0 2))
  | 0xB1 => fixedLen b 4 []
  | 0xC0 => fixedLen b 2 [] && decide (1 ≤ le b 0 2)
  | 0xD0 => fixedLen b 0 []
  | 0xD1 => fixedLen b 2 [] && decide (form ≤ 2)
  | 0xD2 => fixedLen b 24 [(7, 1), (12, 4)]
  | 0xD3 => fixedLen b 0 []
  | 0xD4 => fixedLen b (8 + le b 2 2) [(4, 4)]
  | 0xD5 => fixedLen b 2 []
  | 0xD6 =>
    if form == 0 then
      decide (72 ≤ b.length) && allZero b 2 6 && allZero b 15 1 && allZero b 22 50
        && b.length == 72 + (if le b 8 1 == 2 then 3 * le b 18 2 else 0)
    else form == 1 && (fixedLen b 2 [] || fixedLen b 8 [(2, 6)])
  | 0xD7 => fixedLen b 1 []
  | 0xD8 => decide (16 ≤ b.length) && decide (1 ≤ le b 0 1) && decide (le b 0 1 ≤ 32) && b.length == 16 + 32 * le b 0 1 && allZero b 1 3 && allZero b 8 8
  | 0xF0 => fixedLen b 16 []
  | 0xF1 => fixedLen b 0 []
  | _ => false

/-- R472: the bytes of a reply that must fit: all of one of fixed layout, the fixed part of a list. -/
def replySize (op form : Nat) (b : List Byte) : Nat :=
  match op with
  | 0x01 => 44
  | 0x02 => 20
  | 0x10 => 2
  | 0x13 => 5632
  | 0x20 => 48
  | 0x30 => 40
  | 0x31 => 8
  | 0x32 => 8
  | 0x40 => 8
  | 0x41 => 8
  | 0x50 => if form == 1 then 160 else if form == 3 then 64 else 0
  | 0x51 => 4
  | 0x60 => if form == 1 then 512 else 1664
  | 0x70 => 16
  | 0x80 => if form == 0 || form == 5 then 2 else if form == 4 then 32 else 0
  | 0x90 => if le b 0 2 == 0xFFFF then 40 else 368
  | 0xA1 => if form == 0 then 8 else 0
  | 0xA2 => 128
  | 0xB0 => if le b 0 2 == 0xFFFF then 468 else 48
  | 0xB1 => 2
  | 0xC0 => 8
  | 0xD0 => 128
  | 0xD2 => 8
  | 0xD7 => 82
  | 0xD8 => 4
  | _ => 0

/-- R471, R472: the ticket of a request. -/
def ticketOf (r : ZReq) (s : State) : Ticket :=
  let b := r.env
  let ses := sessionOf s r.block
  let ind := bit (le b 3 1) 1
  { block := r.block, slot := r.slot, op := le b 4 2, seq := le b 8 4, parcel := le b 16 2, tenancy := le b 18 2,
    session := if le b 4 2 == 1 then 0 else (ses.map (·.number)).getD 0, baseline := (ses.map (·.baseline)).getD 0,
    indirect := if ind then some (le b 80 8, le b 88 4) else none }

/-- R472: the bytes available for a reply. -/
def Ticket.space (tk : Ticket) : Nat :=
  match tk.indirect with
  | some (_, n) => n
  | none => 960

/-- What the checks of R480 make of a request: the status of the first that fails, or the command with its form,
parcel, tenancy and payload. -/
inductive Checked where
  | refused (st : RStatus)
  | ok (z : ZSpec) (form p t : Nat) (payload : List Byte)
  deriving DecidableEq, Repr

/-- R480 checks 7 to 9: recovery, the parcel and tenancy named, and the sealing rules. -/
def checkTarget (z : ZSpec) (tk : Ticket) (form : Nat) (b : List Byte) (s : State) : Checked :=
  let op := tk.op
  let bound := boundTo s tk.block
  let names := if op == 0x60 && form == 1 then 2 else z.names
  let parcelNamed := tk.parcel != 0xFFFF || (op == 0x90 && le b 0 2 != 0xFFFF)
  let restore := op == 0x10 && (form == 1 || form == 2)
  -- R483: DEED_GET from the PF owner gives its tenancy in the payload
  let t := if op == 0x60 && form == 1 && bound.isNone then le b 1 1 else tk.tenancy
  if op == 0x60 && form == 2 && bound.isSome then .refused .notPrivileged
  else if op == 0x60 && form == 1 && tk.block == 64 then
    .refused (if tk.parcel < 48 && sealedOrPending s tk.parcel then .sealedRefused else .notPrivileged)
  else if s.recovery && (parcelNamed || names != 0) && !restore && op != 1 then .refused .cadastreRecovery
  -- R29: a unit ID of level 6 or 7
  else if op == 0xB0 && 0xC000 ≤ le b 0 2 && le b 0 2 != 0xFFFF then .refused .badParcel
  else match bound with
    | some (p, k) =>
      if tk.parcel == p && tk.tenancy == k then .ok z form p k b else .refused .badParcel
    | none =>
      if tk.block != 0 && tk.block != 64 then .ok z form tk.parcel tk.tenancy b
      else if names != 2 && tk.tenancy != 0xFFFF then .refused .badParcel
      else if tk.parcel == 0xFFFF then
        if names != 0 then .refused .badParcel
        else if (op == 0xA2 || op == 0xF1) && (List.range 48).any (sealedOrPending s) then .refused .sealedRefused
        else .ok z form 0xFFFF 0xFFFF b
      else
        let x := s.parcel tk.parcel
        if names == 0 || 48 ≤ tk.parcel || x.state == .free then .refused .badParcel
        else if names == 2 && !x.inUse.contains t then .refused .badParcel
        else if t != 0xFFFF && !x.inUse.contains t then .refused .badParcel
        else if (z.pf == 2 || op == 0x14 || (op == 0x60 && form == 1)) && sealedOrPending s tk.parcel then
          .refused .sealedRefused
        else if (op == 0xA2 || op == 0xF1) && (List.range 48).any (sealedOrPending s) then .refused .sealedRefused
        else .ok z form tk.parcel t b

/-- R480 check 6: the payload, read from host memory where it is indirect; its form's baseline; its layout, the reserved bytes
of an indirect descriptor among it. A REQ_LEN out of its range is no length that can be read (R472). -/
def checkPayload (z : ZSpec) (tk : Ticket) (r : ZReq) (s : State) : Checked :=
  let n := le r.env 12 4
  let d := slice r.env 64 n
  let got : Option (List Byte) :=
    if tk.indirect.isNone then some d else hostRead s tk.block (le d 0 8) (le d 8 4)
  let dOk := tk.indirect.isNone ||
    (decide (le d 24 4 ≤ 65536) && allZero d 12 4 && allZero d 28 4)
  if tk.indirect.isSome && 65536 < le d 8 4 then .refused .badLength
  else match got with
    | none => .refused .hostDmaFailed
    | some b =>
      let form := (z.form.map (fun o => le b o 1)).getD 0
      let short := z.form.any (fun o => decide (b.length ≤ o))
      let minor := ((sessionOf s r.block).map (·.baseline)).getD 0 % 65536
      if short then .refused .badLength
      else if tk.op == 0x10 && (form == 1 || form == 2) && minor < 2 then .refused .badBaseline
      else if !dOk || !layoutOk tk.op form b || (tk.op == 0x70 && decide ((if tk.indirect.isNone then 11 else 819) < le b 0 2)) then
        .refused .badLength
      else if tk.space < replySize tk.op form b then .refused .badLength
      else checkTarget z tk form b s

/-- R480 check 5, R442, R465: whether a partner's privilege covers a command. -/
def privileged (z : ZSpec) (tk : Ticket) (s : State) : Bool :=
  if tk.block == 0 then z.pf != 0
  else if tk.block == 64 then z.bmc
  else match boundTo s tk.block with
    | some (p, t) => z.ten && !((s.parcel p).ten t).barred
    | none => tk.op == 1 || tk.op == 2

/-- R480: the checks of a request, in order. -/
def zCheck (r : ZReq) (s : State) : Checked :=
  let b := r.env
  let tk := ticketOf r s
  let n := le b 12 4
  let fl := le b 3 1
  let head := decide (64 + n ≤ b.length) && le b 0 2 == 0x5A45 && le b 2 1 == 1 && (fl == 0 || fl == 2) && le b 6 2 == 0
    && allZero b 24 40 && decide (n ≤ 960) && (fl == 0 || n == 32)
  let ses := sessionOf s r.block
  if !head then .refused .badLength
  else if tk.op == 1 && le b 20 4 != 0 then .refused .badBaseline
  else if tk.op != 1 && !(ses.any (fun x => x.baseline == le b 20 4)) then .refused .badBaseline
  else match specOf tk.op with
    | none => .refused .badOpcode
    | some z =>
      if tk.op != 1 && (ses.map (·.baseline)).getD 0 % 65536 < z.minor then .refused .badBaseline
      else if !privileged z tk s then .refused .notPrivileged
      else checkPayload z tk r s

/-- R453, R468: every pending PARCEL_SEAL of a parcel is answered with a status, and the parcel is ACTIVE again. -/
def sealAnswer (p : Nat) (st : RStatus) (s : State) : State :=
  let tks := (s.parcel p).inUse.flatMap (fun t => ((s.parcel p).ten t).seals)
  let s := s.modParcel p (fun x => { x with
    sealPending := false, tenancies := x.tenancies.map (fun e => (e.1, { e.2 with seals := [] })) })
  tks.foldl (fun s tk => reply tk st [] s) { s with changes := s.changes.filter (fun c => !(c.2.seals p)) }

/-- Ends the SPDM session of an endpoint. -/
def endSpdm (e : Nat) (s : State) : State := { s with pcie := { s.pcie with spdm := tblDel s.pcie.spdm e } }

/-- R418, R468: drops the held commands of a block's session, unperformed; one that is in progress and suspended (R419)
runs to its end. -/
def dropHeld (n : Nat) (s : State) : State :=
  (liveParcels s).foldl (fun s p => (List.range 8).foldl (fun s t =>
    let h := ((s.parcel p).ten t).held
    let mine := h.filter (fun c => c.tk.block == n && c.susp.isNone)
    if mine.isEmpty then s
    else
      let s := s.modTen p t (fun x => { x with held := h.filter (fun c => c.tk.block != n || c.susp.isSome) })
      mine.foldl (fun s c => dropReply c.tk s) s) s) s

/-- R468, R490: the session of a mailbox block ends. -/
def endSession (n : Nat) (s : State) : State :=
  let b := s.block n
  match b.session with
  | none => s
  | some _ =>
    let s := s.setBlock n { b with session := none, itemRings := false, readStopped := false, open_ := 0 }
    let s := dropHeld n s
    let s := match boundTo s n with
      | some (p, t) =>
        let tks := ((s.parcel p).ten t).seals
        if tks.isEmpty then s
        else
          let was := (s.parcel p).sealPending
          let s := tks.foldl (fun s tk => dropReply tk s) (s.modTen p t (fun x => { x with seals := [] }))
          if was then sealAnswer p .notPrivileged s else s
      | none => s
    setIrq n irqSessionEnd s

/-- R467: the session of the board management controller ends. -/
def endBmcSession (s : State) : State := { s with bmcSession := none, bmcOpen := 0 }

/-- R465, R469, R474, R475: whether a request can be taken where it comes from: the ZMP runs, the block is served, the
inline area is free, or the slot is the next one of an enabled envelope ring with room. -/
def served (r : ZReq) (s : State) : Bool :=
  let b := s.block r.block
  s.power.ready && (r.block == 64 || (decide (r.block < 64) && b.enable && (match r.slot with
    | none => !b.inlineBusy
    | some k => b.envRing && k == b.envNext && (k != b.env.tail || !b.env.full))))

/-- R474 to R476, R478: a request is accepted: it is in progress until its reply, and counts for its session. -/
def taken (r : ZReq) (s : State) : State :=
  let one := b2n (ofSession s (ticketOf r s))
  if r.block == 64 then { s with bmcOpen := s.bmcOpen + one }
  else
    s.modBlock r.block (fun b => match r.slot with
      | none => { b with inlineBusy := true, open_ := b.open_ + one, inlineReq := overlay b.inlineReq 0 r.env }
      | some k => { b with
        open_ := b.open_ + one, envNext := wrap32 (k + 1),
        env := { b.env with tail := if k == b.env.tail then wrap32 (k + 1) else b.env.tail } })

/-- What performs a command: its ticket, parcel, tenancy and payload. -/
abbrev ZDo := Ticket → Nat → Nat → List Byte → State → State

/-- R412, R418: whether a tenancy's held commands may be performed now. -/
def mayPerform (s : State) (p t : Nat) : Bool := inService (s.parcel p) && (s.parcel p).running == t

/-- R477, R483: the payload of a HELLO reply: BASELINE, the firmware's MINOR_MAX table, FW_BUILD and SESSION_NUMBER. -/
def helloBody (base number : Nat) : List Byte :=
  pay [(base, 4)] ++ (List.range 16).flatMap (fun k => leBytes (if k == 1 then 2 else 0xFFFF) 2)
    ++ leBytes Config.fwBuild 4 ++ leBytes number 4

/-- R477, R480: the reply to a request that a check refuses; a HELLO refused with BAD_BASELINE carries its payload. -/
def zRefuse (tk : Ticket) (st : RStatus) (s : State) : State :=
  if tk.op == 1 && st == .badBaseline then replyWith tk st true (helloBody 0 0) s else refuse tk st s

/-- R476, R480, R481, R418, R484: an accepted request: refused at a check, held until its tenancy's slice, or performed
by the command that its opcode and form name. -/
def zRun (f : Nat → Nat → ZDo) (r : ZReq) (s : State) : State :=
  let tk := ticketOf r s
  match zCheck r s with
  | .refused st => zRefuse tk st (taken r s)
  | .ok z form p t b =>
    let s := taken r s
    if z.held && !(mayPerform s p t && ((s.parcel p).ten t).held.isEmpty) then
      s.modTen p t (fun x => { x with held := x.held ++ [{ tk := tk, form := form, payload := b }] })
    else f tk.op form tk p t b s

/-- The form that a request names, if it can be told. -/
def formOf (r : ZReq) (s : State) : Option Nat :=
  let d := slice r.env 64 (le r.env 12 4)
  let b := if bit (le r.env 3 1) 1 then (hostRead s r.block (le d 0 8) (le d 8 4)).getD [] else d
  (specOf (le r.env 4 2)).bind (fun z => z.form.bind (fun o => if b.length ≤ o then none else some (le b o 1)))

/-- A row of the table: the request of its opcode and form arrives and is dealt with; another request has no effect
under this row's name. -/
def zRow (op : Nat) (form : Option Nat) (f : ZDo) (r : ZReq) (s : State) : Host.Outcome State Fault Refusal :=
  let fm := formOf r s
  let match_ := le r.env 4 2 == op && (form.isNone || fm.isNone || fm == form)
  if match_ && served r s then fin (zRun (fun _ _ => f) r s) else .next s

/-- R43: notes a change that waits for its frame head, with the frame of its acceptance. -/
def pushChange (c : Change) (s : State) : State := { s with changes := s.changes ++ [(s.time.postmark, c)] }

/-- R477, R478: HELLO: it ends the older session and begins one, unless a command is in progress or no major is
common. -/
def cmdHello : ZDo := fun tk _ _ b s =>
  let n := tk.block
  let openNow := if n == 64 then s.bmcOpen else (s.block n).open_
  if 0 < openNow then refuse tk .busy s
  else if le b 2 2 == 0xFFFF then replyWith tk .badBaseline true (helloBody 0 0) s
  else
    let base := 65536 + min (le b 2 2) 2
    let k := s.sessions + 1
    let s := if n == 64 then endBmcSession s else endSession n s
    let s := { s with sessions := k }
    let s := if n == 64 then { s with bmcSession := some ⟨k, base⟩ }
      else s.modBlock n (fun x => { x with session := some ⟨k, base⟩ })
    reply { tk with baseline := base } .ok (helloBody base k) s

/-- HELLO. -/
def execHello (r : ZReq) (s : State) : Host.Outcome State Fault Refusal := zRow 0x01 none cmdHello r s

end Sys2Proof.Machine
end

