-- ==== Sys2Proof/Machine/ZmiParcel.lean ====
section
/-! DEFINITION. Commands on parcels and tenancies (11 R394 to R421, 12 R448 to R464, 13 R483), the events that end
them, and the delivery of a sealed parcel's entries and replies (12 R460). -/

namespace Sys2Proof.Machine

/-- R483: CAPS_GET. -/
def cmdCapsGet : ZDo := fun tk _ _ _ s =>
  let st (k : Nat) : CState := (s.cmeta k).state
  let act := (List.range 224).filter (fun k => st k == .active || st k == .promoted)
  let res := (List.range 224).filter (fun k => st k == .reserve)
  let free := (List.range 48).filter (fun p => (s.parcel p).state == .free && (s.parcel p).work == .none)
  let fn := if tk.block == 64 then 0 else blockFn s tk.block
  reply tk .ok (pay [(act.length, 2), (res.length, 2), ((freeLots s).length, 2), (free.length, 1),
    (if tk.block == 64 then 0xFF else tk.block, 1), (fn, 1),
    (1 + 2 * b2n s.store.production + 4 * b2n s.fed.federated, 1), (0, 2), (s.time.period, 4), (s.store.svn, 4)]) s

/-- CAPS_GET. -/
def execCapsGet (r : ZReq) (s : State) : Host.Outcome State Fault Refusal := zRow 0x02 none cmdCapsGet r s

/-- R397: the tenancy descriptors of a request that are in use: position and descriptor. -/
def descsOf (b : List Byte) (o : Nat) : List (Nat × Tenancy) :=
  (List.range 8).filterMap (fun k =>
    let d := slice b (o + 16 * k) 16
    if le d 0 1 == 0xFF then none
    else some (k, { mailbox := le d 0 1, sliceEnd := le d 1 1, slice := le d 2 2, maxExtend := le d 4 2 }))

/-- Whether a list holds an element twice. -/
def hasDup (l : List Nat) : Bool := l.zipIdx.any (fun x => (l.take x.2).contains x.1)

/-- R319, R549: whether a second dead channel, a lost die or a lost hub link keeps every new parcel away. -/
def partLost (s : State) : Bool :=
  (List.range 8).any (fun (d : Nat) => (s.die d).lost) || (List.range 12).any (fun k =>
    let x := s.stack k
    x.unreachable || !x.unmapDue.isEmpty || !x.unmapped.isEmpty || bit ((tblGet s.store.folds k).getD 0) 30)

/-- R239, R407: the granules that a die gives a parcel: n in scratchpad mode from the lowest free upward, m in cache mode
from the highest free downward. -/
def pickGrans (s : State) (d n m : Nat) : List (Nat × Nat × Bool) :=
  let used := usedGrans s
  let free := (List.range 16).filter (fun g => !used.contains (d, g))
  let low := free.take n
  let high := (free.drop n).reverse.take m
  (List.range 16).filterMap (fun g => if low.contains g then some (d, g, false) else if high.contains g then some (d, g, true) else none)

/-- What a request for a parcel asks for. -/
structure Asked where
  quads : List Nat
  grans : List (Nat × Nat × Nat)
  tens : List (Nat × Tenancy)
  count : Nat
  slots : List (Nat × Bool × Nat)
  deriving DecidableEq, Repr

/-- R483: PARCEL_CREATE of form NEW as a request. -/
def askedNew (b : List Byte) : Asked :=
  { quads := bitsSet (le b 8 8) 48,
    grans := (List.range 8).map (fun d => (d, le b (16 + 2 * d) 1, le b (17 + 2 * d) 1)),
    tens := descsOf b 32, count := le b 1 1,
    slots := (List.range (le b 2 2)).flatMap (fun r =>
      let o := 160 + 8 * r
      (List.range (le b (o + 2) 2)).map (fun k => (le b o 2 + k, le b (o + 4) 1 == 1, le b (o + 5) 1))) }

/-- R406: NO_RESOURCE, as far as quads, cores and granules are concerned. -/
def noRoom (s : State) (a : Asked) : Bool :=
  let used := usedQuads s
  let ug := usedGrans s
  partLost s || a.quads.any (fun q => used.contains q || (quadCores s q).any (fun k => !coreUp s k))
    || a.grans.any (fun g => decide (((List.range 16).filter (fun k => !ug.contains (g.1, k))).length < g.2.1 + g.2.2))

/-- R406, R409: BAD_PARCEL. -/
def badAsk (s : State) (a : Asked) : Bool :=
  let bl := a.tens.map (fun t => t.2.mailbox)
  let used := usedBlocks s
  a.quads.isEmpty || a.grans.any (fun g => decide (0 < g.2.1 + g.2.2) && !a.quads.any (fun q => q / 6 == g.1))
    || bl.any (fun n => n == 0 || decide (63 < n) || used.contains n) || hasDup bl
    || decide (8 < a.count) || a.count != a.tens.length
    || a.slots.any (fun x => !(a.tens.map (·.1)).contains x.2.2 || decide (1024 ≤ x.1)) || hasDup (a.slots.map (·.1))

/-- R406 to R409: PARCEL_CREATE of form NEW: everything is held for the parcel; its entry stays FREE until every lot has
been written. -/
def cmdParcelCreateNew : ZDo := fun tk _ _ b s =>
  let a := askedNew b
  let id := (List.range 48).find? (fun p => (s.parcel p).state == .free && (s.parcel p).work == .none)
  let lots := (freeLots s).take a.slots.length
  if s.recovery then refuse tk .cadastreRecovery s
  else match id with
    | none => refuse tk .noResource s
    | some p =>
      if noRoom s a || lots.length < a.slots.length then refuse tk .noResource s
      else if badAsk s a then refuse tk .badParcel s
      else if s.power.drainOn then refuse tk .maintenance s
      else if s.power.holdOn then refuse tk .thermalHold s
      else
        let slots := sortBy (fun x y => decide (x.1 < y.1)) a.slots
        s.setParcel p {
          work := .creating tk, quads := a.quads,
          granules := a.grans.flatMap (fun g => pickGrans s g.1 g.2.1 g.2.2),
          tenancies := a.tens,
          lots := (slots.zip lots).map (fun x => (x.1.1, { lot := x.2, classA := x.1.2.1, owner := x.1.2.2 })) }

/-- PARCEL_CREATE of form NEW. -/
def execParcelCreateNew (r : ZReq) (s : State) : Host.Outcome State Fault Refusal := zRow 0x10 (some 0) cmdParcelCreateNew r s

/-- R238, R241: powers up the granules of a parcel: scratchpad-mode ones zero, cache-mode ones empty. -/
def powerGrans (p : Nat) (s : State) : State :=
  (s.parcel p).granules.foldl (fun s g =>
    let s := s.setGran (g.1, g.2.1) { owner := some p, cache := g.2.2 }
    if g.2.2 then s else zeroGran (g.1, g.2.1) s) s

/-- R238, R464: powers off the granules of a parcel. -/
def dropGrans (p : Nat) (s : State) : State :=
  (s.parcel p).granules.foldl (fun s g => zeroGran (g.1, g.2.1) (s.setGran (g.1, g.2.1) {})) s

/-- R404, R417, R420: the positions of the item rings of a tenancy's block become zero with its saved state. -/
def zeroRings (n : Nat) (s : State) : State :=
  s.modBlock n (fun b => { b with
    req := { b.req with head := 0, tail := 0 }, cpl := { b.cpl with head := 0, tail := 0 },
    dlr := { b.dlr with head := 0, tail := 0 } })

/-- R417: the 256 bytes of a tenancy's saved state; its ring positions live in its mailbox block. -/
def savedState (s : State) (p t : Nat) : List Byte :=
  let x := (s.parcel p).ten t
  let b := s.block x.mailbox
  pay [(b.req.head, 4), (b.req.tail, 4), (b.cpl.tail, 4), (b.cpl.head, 4), (b.dlr.tail, 4), (b.dlr.head, 4),
    (wrap32 x.nextSeq, 4), (x.surveyNext, 4), (b2n x.divHold, 2), (0, 6), (x.framesRun, 8), (x.overrun, 6),
    (x.switchesIn, 6)] ++ zeros 196

/-- R30, R32, R231, R238, R399, R404, R412, R467: a parcel becomes ACTIVE: cores, granules and scratchpads prepared, its
blocks bound, the lowest position in use running. -/
def parcelStarts (p created : Nat) (s : State) : State :=
  let x := s.parcel p
  let s := (x.inUse.map (fun t => (x.ten t).mailbox)).foldl (fun s n => zeroRings n (endSession n s)) s
  let cores := x.quads.flatMap (quadCores s)
  let s := s.modParcel p (fun x => { x with state := .active, work := .none, created := created, coreMap := cores })
  let s := cores.foldl (fun s k => zeroScratch k (clearHalves k s)) (powerGrans p s)
  beginSlice p ((x.inUse.head?).getD 0) s

/-- R231, R291, R408: PARCEL_CREATE_DONE: every lot of the new parcel is written. -/
def execParcelCreateDone (parcel : Nat) (s : State) : Host.Outcome State Fault Refusal :=
  match (s.parcel parcel).work with
  | .creating tk =>
    let s := ((s.parcel parcel).lots.map (fun e => e.2.lot)).foldl (fun s l => zeroLot l s) s
    fin (reply tk .ok (leBytes parcel 2) (cad (parcelStarts parcel s.time.postmark s)))
  | _ => .next s

/-- R403: a parcel entry (R396) as a request. -/
def askedEntry (e : List Byte) : Asked :=
  let gm := le e 32 16
  let gs := bitsSet (le e 16 16) 128
  { quads := bitsSet (le e 8 8) 48,
    grans := (List.range 8).map (fun d =>
      let own := gs.filter (fun g => g / 16 == d)
      (d, (own.filter (fun g => !bit gm g)).length, (own.filter (fun g => bit gm g)).length)),
    tens := descsOf e 64, count := (descsOf e 64).length,
    slots := (List.range 1024).filterMap (fun j =>
      let w := le e (512 + 4 * j) 4
      if bit w 31 then some (j, bit w 30, le e (4608 + j) 1) else none) }

/-- R384: exchanges the lots of state slots with those of their staging slots in a lot table. -/
def swapLots (slots : List (Nat × Nat × Nat × Nat)) (lots : Tbl LotEnt) : Tbl LotEnt :=
  slots.foldl (fun l k =>
    match tblGet l k.1, tblGet l k.2.2.1 with
    | some a, some b =>
      tblPut (tblPut l k.1 { a with lot := b.lot, classA := b.classA }) k.2.2.1 { b with lot := a.lot, classA := a.classA }
    | _, _ => l) lots

/-- R385, R403, R404: applies the journalled commits of a restored parcel whose slots hold the lots of the journal; the
others are discarded with a SEAL_ABORT event. -/
def restoreJournal (p : Nat) (old : List Journal) (s : State) : State :=
  (old.filter (fun j => j.decision == some true && !j.applied)).foldl (fun s j =>
    let x := s.parcel p
    let same := !j.slots.isEmpty && j.slots.all (fun k =>
      (tblGet x.lots k.1).any (fun e => e.lot == k.2.1) && (tblGet x.lots k.2.2.1).any (fun e => e.lot == k.2.2.2))
    if same then s.modParcel p (fun x => { x with lots := swapLots j.slots x.lots })
    else sealAbort p 0xFF 0xFFFFFFFF j.group j.t 5 s) s

/-- R403, R404: PARCEL_CREATE of form RESTORE. -/
def cmdParcelCreateRestore : ZDo := fun tk _ _ b s =>
  let e := b.drop 8
  let p := le e 0 2
  let a := askedEntry e
  let lots := (List.range 1024).filterMap (fun j =>
    let w := le e (512 + 4 * j) 4
    if bit w 31 then some (j, ({ lot := w % 1024, classA := bit w 30, owner := le e (4608 + j) 1 } : LotEnt)) else none)
  let gs := (bitsSet (le e 16 16) 128).map (fun g => (g / 16, g % 16, bit (le e 32 16) g))
  let ug := usedGrans s
  let ul := usedLots s
  if !s.recovery then refuse tk .busy s
  else if 48 ≤ p || le e 2 1 != 1 || le e 3 1 != 0 then refuse tk .badParcel s
  else if (s.parcel p).state != .free || noRoom s a || gs.any (fun g => ug.contains (g.1, g.2.1))
      || lots.any (fun l => ul.contains l.2.lot) || a.tens.any (fun t => (usedBlocks s).contains t.2.mailbox) then
    refuse tk .noResource s
  else if badAsk s a || lots.any (fun l => decide (744 ≤ l.2.lot)) then refuse tk .badParcel s
  else if s.power.drainOn then refuse tk .maintenance s
  else if s.power.holdOn then refuse tk .thermalHold s
  else
    let old := (s.parcel p).journal
    let s := s.setParcel p { quads := a.quads, granules := gs, tenancies := a.tens, lots := lots }
    let s := restoreJournal p old (parcelStarts p (le e 56 8) s)
    reply tk .ok (leBytes p 2) (cad s)

/-- PARCEL_CREATE of form RESTORE. -/
def execParcelCreateRestore (r : ZReq) (s : State) : Host.Outcome State Fault Refusal := zRow 0x10 (some 1) cmdParcelCreateRestore r s

/-- R402 to R404: PARCEL_CREATE of form RESTORE_DONE: recovery ends, every lot that no restored parcel names is zero, the
journals of parcels that were not restored are discarded. -/
def cmdParcelCreateRestoreDone : ZDo := fun tk _ _ _ s =>
  if !s.recovery then refuse tk .busy s
  else
    let s := (freeLots s).foldl (fun s l => zeroLot l s) s
    let s := ((List.range 48).filter (fun p => (s.parcel p).state == .free)).foldl (fun s p =>
      let old := (s.parcel p).journal
      let s := if (s.parcel p).work == .none then s.setParcel p {} else s
      (old.filter (fun j => j.decision == some true && !j.applied)).foldl (fun s j =>
        sealAbort p 0xFF 0xFFFFFFFF j.group j.t 5 s) s) s
    let s := recordM evCadastre 2 (pay [(2, 1), (0, 1)]) (stateEvent 3 0 { s with recovery := false })
    reply tk .ok (leBytes 0xFFFF 2) (cad s)

/-- PARCEL_CREATE of form RESTORE_DONE. -/
def execParcelCreateRestoreDone (r : ZReq) (s : State) : Host.Outcome State Fault Refusal :=
  zRow 0x10 (some 2) cmdParcelCreateRestoreDone r s

/-- R386, R571: whether a group of a parcel is VOTED or IN_DOUBT. -/
def sealOpen (s : State) (p : Nat) : Bool :=
  (s.parcel p).journal.any (fun j => j.decision.isNone) ||
    (s.parcel p).items.any (fun i => i.groups.any (fun r => r.phase == .voted || r.phase == .inDoubt))

/-- R449: a parcel in service whose every position in use has a PARCEL_SEAL pending becomes seal-pending. -/
def askSeal (p : Nat) (s : State) : State :=
  let x := s.parcel p
  if !x.sealPending && x.state == .active && !x.inUse.isEmpty && x.inUse.all (fun k => !(x.ten k).seals.isEmpty) then
    pushChange (.sealed p) (s.modParcel p (fun x => { x with sealPending := true }))
  else s

/-- R393, R453, R483: what PARCEL_DESTROY of either form checks, and what its acceptance does. -/
def destroyBegin (st : PState) (w : PWork) (tk : Ticket) (p : Nat) (s : State) : State :=
  let x := s.parcel p
  if x.state == .free || x.state == .releasing then refuse tk .badParcel s
  else if x.state == .resetting || sealOpen s p then refuse tk .busy s
  else
    let s := if x.sealPending then sealAnswer p .notPrivileged s else s
    let s := { s with changes := s.changes.filter (fun c => !(c.2.ofParcel p)) }
    cad (pushChange (if st == .releasing then .release p else .reset p) (s.modParcel p (fun x => { x with state := st, work := w })))

/-- R410, R421: PARCEL_DESTROY of form RESET; a switch in progress is abandoned, its incoming tenancy is kept. -/
def cmdParcelDestroyReset : ZDo := fun tk p _ _ s =>
  let x := s.parcel p
  let inc := match x.work with
    | .switching n _ => some n
    | _ => none
  destroyBegin .resetting (.resetting tk x.state inc) tk p s

/-- PARCEL_DESTROY of form RESET. -/
def execParcelDestroyReset (r : ZReq) (s : State) : Host.Outcome State Fault Refusal := zRow 0x11 (some 0) cmdParcelDestroyReset r s

/-- R411: PARCEL_DESTROY of form RELEASE. -/
def cmdParcelDestroyRelease : ZDo := fun tk p _ _ s => destroyBegin .releasing (.releasing tk) tk p s

/-- PARCEL_DESTROY of form RELEASE. -/
def execParcelDestroyRelease (r : ZReq) (s : State) : Host.Outcome State Fault Refusal :=
  zRow 0x11 (some 1) cmdParcelDestroyRelease r s

/-- R168, R410: the clearing work, and the manifest and registrations. -/
def resetClears (p : Nat) (s : State) : State :=
  (clearParcel p s).modParcel p (fun x => { x with manifest := [], regs := [], live := [], thermEvent := 0 })

/-- R410, R413, R416: PARCEL_RESET_DONE: once the items have ended, the parcel is cleared and returns to its prior state;
the tenancy that ran, or the incoming one of an abandoned switch, begins a slice. -/
def execParcelResetDone (parcel : Nat) (s : State) : Host.Outcome State Fault Refusal :=
  let x := s.parcel parcel
  match x.work with
  | .resetting tk prior inc =>
    match turnIn s (Change.resets parcel) with
    | none => .next s
    | some s =>
      if !x.items.isEmpty then .next s
      else
        let s := resetClears parcel s
        let s := askSeal parcel (s.modParcel parcel (fun x => { x with state := prior, work := .none }))
        let pick (n : Nat) : Nat := if x.inUse.contains n then n else ((x.inUse.head?).getD 0)
        let s := match inc with
          | some n => restoreTen parcel (pick n) s
          | none => cad (startSlice parcel (pick x.running) s)
        fin (reply tk .ok [] s)
  | _ => .next s

/-- R539: the entries in the overflow queues of a position that is unbound are discarded, with one event if there are
any. -/
def ringDiscard (p t : Nat) (s : State) : State :=
  let x := (s.parcel p).ten t
  if x.cplQ.isEmpty && x.dlrQ.isEmpty then s
  else
    let b := pay [(x.cplQ.length, 4), (x.dlrQ.length, 4)]
    recordP evRingDiscard p t 0xFFFFFFFF 8 b b (s.modTen p t (fun x => { x with cplQ := [], dlrQ := [] }))

/-- R460: writes one delayed delivery of a sealed parcel. -/
def deliverOne (p : Nat) (d : Delayed) (s : State) : State :=
  match d with
  | .reply tk st body => if staleTicket s tk then dropReply tk s else replyNow tk st (!body.isEmpty) body s
  | .irq n m => setIrqNow n m s
  | .msg n k => blockMsix n k s
  | .entry t cpl bs failed =>
    let s := s.modTen p t (fun x => if cpl then { x with cplQ := x.cplQ ++ [(bs, failed)] } else { x with dlrQ := x.dlrQ ++ [bs] })
    eventsReadable p t (le bs 0 4) (drainRings p t s)

/-- R460: delivers what has waited; the interrupts that its ring entries raise go out with them. -/
def deliverAll (p : Nat) (l : List Delayed) (s : State) : State :=
  let n := s.delayed.length
  let s := l.foldl (fun s d => deliverOne p d s) s
  let raised := s.delayed.drop n
  raised.foldl (fun s d => deliverOne p d.2.2 s) { s with delayed := s.delayed.take n }

/-- R460: SEALED_DELIVERY: in a frame head, what occurred before it is delivered. -/
def execSealedDelivery (parcel : Nat) (s : State) : Host.Outcome State Fault Refusal :=
  if !inHead s then .next s
  else
    let due (d : Nat × Nat × Delayed) : Bool := d.1 == parcel && decide (d.2.1 < s.time.postmark)
    let l := (s.delayed.filter due).map (·.2.2)
    fin (deliverAll parcel l { s with delayed := s.delayed.filter (fun d => !due d) })

/-- Delivers everything of a parcel that still waits. -/
def flushDelayed (p : Nat) (s : State) : State :=
  let l := (s.delayed.filter (fun d => d.1 == p)).map (·.2.2)
  deliverAll p l { s with delayed := s.delayed.filter (fun d => d.1 != p) }

/-- R501: the BAR2 windows that name a released parcel stay as they are, but reach a later parcel of its ID only once VALID is
set again (log entry 54). -/
def lapseWindows (p : Nat) (s : State) : State :=
  let ws := (s.pcie.windows.filter (fun e => bit e.2 63 && bits e.2 5 0 == p)).map (·.1)
  { s with pcie := { s.pcie with lapsed := ws ++ s.pcie.lapsed.filter (fun w => !ws.contains w) } }

/-- R411, R441, R464, R501, R539: PARCEL_RELEASE_DONE: the last lot is written; everything of the parcel is gone, and it is
FREE. -/
def execParcelReleaseDone (parcel : Nat) (s : State) : Host.Outcome State Fault Refusal :=
  let x := s.parcel parcel
  match x.work with
  | .releasing tk =>
    match turnIn s (Change.releases parcel) with
    | none => .next s
    | some s => if !x.items.isEmpty then .next s
    else
      let s := flushDelayed parcel s
      let s := dropGrans parcel (resetClears parcel s)
      let lots := (s.parcel parcel).lots.map (fun e => e.2.lot)
      let s := lots.foldl (fun s l => zeroLot l s) s
      let s := (x.inUse.map (fun t => (x.ten t).mailbox)).foldl (fun s n =>
        if blockFn s n == 0 then endSession n s else endSpdm n (endSession n s)) s
      let s := lapseWindows parcel s
      let left := x.inUse.flatMap (fun t => ((s.parcel parcel).ten t).held)
      let s := left.foldl (fun s h => refuse h.tk .badParcel s) s
      let s := flushDelayed parcel s
      let s := x.inUse.foldl (fun s t => ringDiscard parcel t s) s
      let s := { s with fed := { s.fed with waits := s.fed.waits.filter (fun w => w.parcel != parcel) } }
      let b := leBytes lots.length 4
      let s := recordP evScrub parcel 0xFF 0xFFFFFFFF 4 b b (s.setParcel parcel {})
      fin (reply tk .ok [] (cad s))
  | _ => .next s

/-- R437, R438, R442, R448, R493: whether a block's VF is in RUN with an IDE stream and a session bound to it. -/
def mayAskSeal (s : State) (n : Nat) : Bool :=
  let f := blockFn s n
  f != 0 && (tblGet s.pcie.tdisp f) == some .run && s.pcie.ide.any (fun e => e.1 == f)
    && (tblGet s.pcie.spdm f).any (·.finished) && !s.sec.dbgEver

/-- R448, R449: PARCEL_SEAL: pending until every position in use has asked; then the parcel is seal-pending. -/
def cmdParcelSeal : ZDo := fun tk p t _ s =>
  if !mayAskSeal s tk.block then refuse tk .notPrivileged s
  else if s.sec.error then refuse tk .internal s
  else if (s.parcel p).state == .isSealed then reply tk .ok [] s
  else
    askSeal p (s.modTen p t (fun x => { x with seals := x.seals ++ [tk] }))

/-- PARCEL_SEAL. -/
def execParcelSeal (r : ZReq) (s : State) : Host.Outcome State Fault Refusal := zRow 0x12 none cmdParcelSeal r s

/-- R449, R453: PARCEL_SEAL_APPLY: in a frame head at which no operator command that names the parcel is unanswered. -/
def execParcelSealApply (parcel : Nat) (s : State) : Host.Outcome State Fault Refusal :=
  let x := s.parcel parcel
  if !x.sealPending || x.state != .active || operatorHeld x then .next s
  else match turnIn s (Change.seals parcel) with
  | none => .next s
  | some s =>
    let tks := x.inUse.flatMap (fun t => (x.ten t).seals)
    let s := cad (s.modParcel parcel (fun x => { x with
      state := .isSealed, sealPending := false, sealedAt := s.time.postmark, coarse := parcelTotals x,
      tenancies := x.tenancies.map (fun e => (e.1, { e.2 with seals := [] })) }))
    fin (tks.foldl (fun s tk => deliverOne parcel (.reply tk .ok []) s) s)

/-- R398, R451, R483: PARCEL_QUERY. -/
def cmdParcelQuery : ZDo := fun tk p t _ s =>
  let e := parcelEntry s p (lotLost s)
  let x := s.parcel p
  let own (j : Nat) : Bool := (tblGet x.lots j).any (fun l => l.owner == t)
  let operator := tk.block == 0 || tk.block == 64
  let hide (j : Nat) : Bool := if operator then sealedOrPending s p else !own j
  let lot (j : Nat) : List Byte := if hide j then zeros 4 else slice e (512 + 4 * j) 4
  let owner (j : Nat) : List Byte :=
    if hide j then (if operator then [0] else [0xFF]) else slice e (4608 + j) 1
  reply tk .ok (e.take 512 ++ (List.range 1024).flatMap lot ++ (List.range 1024).flatMap owner) s

/-- PARCEL_QUERY. -/
def execParcelQuery (r : ZReq) (s : State) : Host.Outcome State Fault Refusal := zRow 0x13 none cmdParcelQuery r s

/-- R420: whether a position has plans, items, a registration or ACTIVE entries. -/
def posBusy (s : State) (p t : Nat) : Bool :=
  let x := s.parcel p
  x.plans.any (fun v => v.tenancy == t) || x.items.any (fun i => i.tenancy == t) || x.regs.any (fun r => r.2.tenancy == t)
    || x.manifest.any (fun e => e.2.tenancy == t && e.2.state == 1)

/-- The lots that a position owns. -/
def ownedLots (x : Parcel) (t : Nat) : List Nat := (x.lots.filter (fun e => e.2.owner == t)).map (fun e => e.2.lot)

/-- R420, R467, R550: TENANCY_SET of action write. -/
def cmdTenancySetWrite : ZDo := fun tk p _ b s =>
  let k := le b 0 1
  let x := s.parcel p
  let old := x.ten k
  let n := le b 8 1
  if posBusy s p k then refuse tk .busy s
  else if n == 0 || 63 < n || (n != old.mailbox && (usedBlocks s).contains n) then refuse tk .badParcel s
  else
    let d : Tenancy := { mailbox := n, sliceEnd := le b 9 1, slice := le b 10 2, maxExtend := le b 12 2 }
    let s := if n == old.mailbox then s else endSession n (if old.mailbox == 0xFF then s else endSession old.mailbox s)
    let s := if old.mailbox == 0xFF then
        (ownedLots x k).foldl (fun s l => zeroLot l s) (zeroRings n (s.modTen p k (fun _ => { d with signer := old.signer })))
      else s.modTen p k (fun y => { y with mailbox := n, sliceEnd := d.sliceEnd, slice := d.slice, maxExtend := d.maxExtend })
    reply tk .ok [] (cad s)

/-- TENANCY_SET of action write. -/
def execTenancySetWrite (r : ZReq) (s : State) : Host.Outcome State Fault Refusal := zRow 0x14 (some 0) cmdTenancySetWrite r s

/-- R420, R441, R446, R467, R539: TENANCY_SET of action deactivate. -/
def cmdTenancySetDeactivate : ZDo := fun tk p _ b s =>
  let k := le b 0 1
  let x := s.parcel p
  if posBusy s p k || x.inUse == [k] then refuse tk .busy s
  else if !x.inUse.contains k then refuse tk .badParcel s
  else
    let s := endSession (x.ten k).mailbox s
    let s := ((s.parcel p).ten k).held.foldl (fun s h => refuse h.tk .badParcel s) s
    let s := (ownedLots x k).foldl (fun s l => zeroLot l s) (ringDiscard p k s)
    let s := s.modTen p k (fun y => { signer := y.signer })
    let s := if (s.parcel p).running == k then
        pushChange (.deactivate p) (s.modParcel p (fun x => { x with slice := { x.slice with deactivated := true } })) else s
    reply tk .ok [] (askSeal p (cad s))

/-- TENANCY_SET of action deactivate. -/
def execTenancySetDeactivate (r : ZReq) (s : State) : Host.Outcome State Fault Refusal :=
  zRow 0x14 (some 1) cmdTenancySetDeactivate r s

end Sys2Proof.Machine
end

