-- ==== Sys2Proof/Machine/ZmiTen.lean ====
section
/-! DEFINITION. Commands of a tenancy (13 R483): rings and submission (R474, R485 to R490), the group table and update
programs (10 R357 to R361, R372), update requests (R350 to R354, R388, R392), the survey (R389), the manifest and
registrations (11 R422 to R428), and event logs (15 R551 to R554). -/

namespace Sys2Proof.Machine

/-- R474: the new tail of a ring, or none when it would hold more than its entries or move backwards. -/
def Ring.moveTail (r : Ring) (v : Nat) : Option Ring :=
  let d := dist32 r.head v
  if 2 ^ r.log2 < d || d < r.count then none else some { r with tail := wrap32 v }

/-- R474: the new head of a ring, or none when it would pass the tail or move backwards. -/
def Ring.moveHead (r : Ring) (v : Nat) : Option Ring :=
  if r.count < dist32 r.head v then none else some { r with head := wrap32 v }

/-- R474, R590: a write of MBX_REQ_TAIL that is not refused; it also ends the wait after a failed read. -/
def setReqTail (n v : Nat) (s : State) : Option State :=
  ((s.block n).req.moveTail v).map (fun r => s.setBlock n { s.block n with req := r, readStopped := false })

/-- MBX_REQ_HEAD and NEXT_SEQ of a tenancy (R483). -/
def reqReply (n p t : Nat) (s : State) : List Byte :=
  pay [((s.block n).req.head, 4), (wrap32 ((s.parcel p).ten t).nextSeq, 4)]

/-- R483: whether a ring's base and size can be enabled. -/
def ringOk (r : Ring) (lo hi : Nat) : Bool := r.base != 0 && decide (lo ≤ r.log2) && decide (r.log2 ≤ hi)

/-- R490: RING_SETUP of action enable: index registers are 0, queued entries are written first. -/
def cmdRingSetupEnable : ZDo := fun tk p t d s =>
  let n := tk.block
  let b := s.block n
  let item := bit (le d 0 1) 0
  let env := bit (le d 0 1) 1
  if (item && !(ringOk b.req 4 16 && ringOk b.cpl 4 16 && ringOk b.dlr 4 16)) || (env && !ringOk b.env 2 8) then
    refuse tk .badLength s
  else if env && tk.slot.isSome then refuse tk .busy s
  else
    let zero (r : Ring) : Ring := { r with head := 0, tail := 0 }
    let s := if item then
        drainRings p t (s.setBlock n { b with
          itemRings := true, readStopped := false, cplStopped := false, dlrStopped := false, req := zero b.req, cpl := zero b.cpl, dlr := zero b.dlr })
      else s
    let s := if env then s.modBlock n (fun b => { b with envRing := true, env := zero b.env, envNext := 0, envAnswered := [] }) else s
    reply tk .ok (reqReply n p t s) s

/-- RING_SETUP of action enable. -/
def execRingSetupEnable (r : ZReq) (s : State) : Host.Outcome State Fault Refusal := zRow 0x40 (some 0) cmdRingSetupEnable r s

/-- R483, R490: RING_SETUP of action disable. -/
def cmdRingSetupDisable : ZDo := fun tk p t d s =>
  let n := tk.block
  let item := bit (le d 0 1) 0
  let env := bit (le d 0 1) 1
  if (item && !(tenItems s p t).isEmpty) || (env && tk.slot.isSome) then refuse tk .busy s
  else
    let s := s.modBlock n (fun b => { b with itemRings := b.itemRings && !item, envRing := b.envRing && !env })
    reply tk .ok (reqReply n p t s) s

/-- RING_SETUP of action disable. -/
def execRingSetupDisable (r : ZReq) (s : State) : Host.Outcome State Fault Refusal :=
  zRow 0x40 (some 1) cmdRingSetupDisable r s

/-- R483: ITEM_SUBMIT: the effect of a write of MBX_REQ_TAIL. -/
def cmdItemSubmit : ZDo := fun tk p t d s =>
  if !(s.block tk.block).itemRings then refuse tk .busy s
  else match setReqTail tk.block (le d 0 4) s with
    | none => refuse tk .badLength s
    | some s => reply tk .ok (reqReply tk.block p t s) s

/-- ITEM_SUBMIT. -/
def execItemSubmit (r : ZReq) (s : State) : Host.Outcome State Fault Refusal := zRow 0x41 none cmdItemSubmit r s

/-- R361, R398: whether every lot slot of a region is a Class W lot of the tenancy with PLAN clear. -/
def plainRegion (x : Parcel) (t a n : Nat) : Bool :=
  n == 0 || (decide (a + n ≤ 2 ^ 40) && (List.range ((a + n - 1) / 2 ^ 30 + 1 - a / 2 ^ 30)).all (fun k =>
    (tblGet x.lots (a / 2 ^ 30 + k)).any (fun e => !e.classA && !e.plan && e.owner == t)))

/-- R359, R373: every region of a group: state, gradient slots, sparse region. -/
def allRegions (g : List Byte) : List (Nat × Nat) :=
  gRegions g ++ (List.range (min (gNslots g) 8)).map (fun k => (gSlotAddr g k, 2 * gN g)) ++
    (if gSparse g then [(gSparseAddr g, (bitmapLen g + 255) / 256 * 256 + 2 * gRows g)] else [])

/-- The lot slots that a region touches. -/
def regionSlots (r : Nat × Nat) : List Nat :=
  if r.2 == 0 then [] else (List.range ((r.1 + r.2 - 1) / 2 ^ 30 + 1 - r.1 / 2 ^ 30)).map (r.1 / 2 ^ 30 + ·)

/-- R382: the staging slots of a SHARDED group as regions of whole lots. -/
def stageRegions (g : List Byte) : List (Nat × Nat) :=
  if gSharded g then (gStagePairs g).map (fun k => (k.2 * 2 ^ 30, 2 ^ 30)) else []

/-- R382: whether the state regions fill whole slots that hold nothing else, mirrored by the staging slots. -/
def stagingOk (x : Parcel) (idx : Nat) (g : List Byte) : Bool :=
  let own := (gStagePairs g).flatMap (fun k => [k.1, k.2])
  let data := ((allRegions g).drop (gRegions g).length).flatMap regionSlots
  let others := (x.groups.filter (fun e => e.1 != idx && gValid e.2)).flatMap (fun e =>
    (allRegions e.2 ++ stageRegions e.2).flatMap regionSlots)
  let serving := x.regs.flatMap (fun r => [r.2.tableSlot, r.2.padSlot] ++ (List.range (r.2.batch * r.2.kvl)).map (r.2.winBase + ·))
  let kv := x.manifest.flatMap (fun e => e.2.kv)
  gStage g % 2 ^ 30 == 0 && (gRegions g).all (fun r => r.1 % 2 ^ 30 == 0) && !hasDup own
    && own.all (fun k => !data.contains k && !others.contains k && !serving.contains k && !kv.contains k)

/-- R357: whether an FP32 code is in [0, 1). -/
def unitBeta (c : Nat) : Bool := c == 2 ^ 31 || decide (c < 0x3F800000)

/-- R357: whether the reserved bits [63:40] of every address field are zero. -/
def addrsOk (g : List Byte) : Bool :=
  ([gWAddr g, gM1Addr g, gM2Addr g, gStage g, gSparseAddr g] ++ (List.range 8).map (gSlotAddr g)).all (fun a => decide (a < 2 ^ 40))

/-- R357, R358: the reserved fields of a group entry. -/
def groupReserved (g : List Byte) : Bool :=
  bits (gFlags g) 15 12 == 0 && le g 158 2 == 0 && addrsOk g

/-- R360: the moment regions that a rule requires. -/
def momentsOk (g : List Byte) : Bool :=
  match gRule g with
  | 0 => gM1 g && !gM2 g
  | 1 => gM1 g && gM2 g
  | 2 => gM1 g && !gM2 g
  | 3 => (gM1 g == !(f32 (gBeta1 g)).isZero) && gM2 g && decide (gRows g + gCols g ≤ 65536)
  | _ => true

/-- R357 to R361, R382, R522: whether an entry with VALID set is as they require. -/
def groupOk (x : Parcel) (idx : Nat) (g : List Byte) : Bool :=
  decide (gRule g ≤ 4) && (if gRule g == 4 then decide (gProgram g < 16) else gProgram g == 0)
    && unitBeta (gBeta1 g) && unitBeta (gBeta2 g) && (gEps g == 2 ^ 31 || decide (gEps g ≤ 0x7F800000))
    && decide (gPolicy g ≤ 3) && (gPolicy g == 0 || (decide (0 < gClip g) && decide (gClip g ≤ 0x7F800000)))
    && decide (1 ≤ gNslots g) && decide (gNslots g ≤ 8) && decide (1 ≤ gRows g) && decide (1 ≤ gCols g)
    && decide (gN g < 2 ^ 32) && momentsOk g && decide (gChannel g < 256)
    && !(gSparse g && (gSharded g || gTrust g || gRule g == 3 || gRule g == 4)) && !(gNesterov g && gRule g != 0)
    && (!gSharded g || (decide (1 ≤ gShards g) && decide (gShards g ≤ 16384) && decide (gShard g < gShards g) && stagingOk x idx g))

/-- R357, R361, R483: GROUP_SET of action write group: where a region lies is a matter of bits [39:0]; LOCKED, SKEW and FROZEN_SKIP keep their values. -/
def cmdGroupSetWriteGroup : ZDo := fun tk p t b s =>
  let idx := le b 2 2
  let x := s.parcel p
  let old := x.group idx
  let g := overlay (slice b 8 160) 34 (slice old 34 6)
  let g := gSetFlag 10 (gSkew old) (gSetFlag 11 (gLocked old) g)
  let at_ (a : Nat) : Nat := if addrsOk g then a else a % 2 ^ 40
  if gValid g && !(allRegions g ++ stageRegions g).all (fun r => plainRegion x t (at_ r.1) r.2) then refuse tk .badParcel s
  else if !groupReserved g || (gValid g && !groupOk x idx g) then refuse tk .verifyFailed s
  else if gLocked old then refuse tk .busy s
  else reply tk .ok [] (modGroup p idx (fun _ => g) s)

/-- GROUP_SET of action write group. -/
def execGroupSetWriteGroup (r : ZReq) (s : State) : Host.Outcome State Fault Refusal :=
  zRow 0x50 (some 0) cmdGroupSetWriteGroup r s

/-- R357: GROUP_SET of action read group. -/
def cmdGroupSetReadGroup : ZDo := fun tk p _ b s => reply tk .ok ((s.parcel p).group (le b 2 2)) s

/-- GROUP_SET of action read group. -/
def execGroupSetReadGroup (r : ZReq) (s : State) : Host.Outcome State Fault Refusal :=
  zRow 0x50 (some 1) cmdGroupSetReadGroup r s

/-- R372: the words of a program that can run. -/
def runWords : List Nat → List Nat
  | [] => []
  | w :: r => if upOp w == 0x3F then [w] else w :: runWords r

/-- R371, R372: whether an instruction word is assigned. -/
def upWordOk (w : Nat) : Bool :=
  ((decide (1 ≤ upOp w) && decide (upOp w ≤ 15)) || upOp w == 0x3F) && decide ((upF w).a < 23) && decide ((upF w).b < 23)
    && decide ((upF w).c < 23) && bits w 7 0 == 0

/-- R372: GROUP_SET of action write program. -/
def cmdGroupSetWriteProgram : ZDo := fun tk p _ b s =>
  let idx := le b 2 2
  let prog := slice b 8 64
  let x := s.parcel p
  if !(runWords (progWords prog)).all upWordOk then refuse tk .verifyFailed s
  else if x.groups.any (fun e => gValid e.2 && gLocked e.2 && gRule e.2 == 4 && gProgram e.2 == idx) then refuse tk .busy s
  else reply tk .ok [] (s.modParcel p (fun x => { x with programs := tblPut x.programs idx prog }))

/-- GROUP_SET of action write program. -/
def execGroupSetWriteProgram (r : ZReq) (s : State) : Host.Outcome State Fault Refusal :=
  zRow 0x50 (some 2) cmdGroupSetWriteProgram r s

/-- R371: GROUP_SET of action read program. -/
def cmdGroupSetReadProgram : ZDo := fun tk p _ b s =>
  reply tk .ok ((tblGet (s.parcel p).programs (le b 2 2)).getD (zeros 64)) s

/-- GROUP_SET of action read program. -/
def execGroupSetReadProgram (r : ZReq) (s : State) : Host.Outcome State Fault Refusal :=
  zRow 0x50 (some 3) cmdGroupSetReadProgram r s

/-- R350, R351: the groups that a request names with their gates, in order. -/
def namedGroups (b : List Byte) : List (Nat × Nat) :=
  (List.range (le b 2 2)).flatMap (fun r =>
    let o := 32 + 16 * r
    (List.range (le b (o + 2) 2)).map (fun k => (le b o 2 + k, le b (o + 4) 4)))

/-- R350, R354, R392: admits an update item over the VALID groups that a request names: they are LOCKED; under a
divergence hold it completes at admission. -/
def admitUpdate (tk : Ticket) (p t : Nat) (b : List Byte) (s : State) : State :=
  let q := takeSeq p t s
  let s := q.2
  let x := s.parcel p
  let gs := (namedGroups b).filter (fun g => gValid (x.group g.1))
  let i : Item := {
    seq := q.1, tenancy := t, kind := .update,
    groups := gs.map (fun g => { group := g.1, gate := g.2 }), tallyCh := le b 4 2, replicas := le b 6 2,
    sealWait := if le b 8 4 == 0 then 100 else le b 8 4 }
  let held := (x.ten t).divHold
  let s := s.modParcel p (fun x => { x with
    items := x.items ++ [if held then { i with groups := [] } else i], slice := { x.slice with idleFrames := 0 } })
  let s := reply tk .ok (leBytes q.1 4) s
  if held then endItem p q.1 { status := .divergenceHold } 0 true s
  else tryEndUpdate p q.1 (gs.foldl (fun s g => modGroup p g.1 (gSetFlag 11 true) s) s)

/-- R350 to R354, R392, R431, R486: STEP_COMMIT of form UPDATE. That it is refused INTERNAL for a sealed parcel in the error
state, where no item may be admitted, is this model's choice (log entry 74). -/
def cmdStepCommitUpdate : ZDo := fun tk p t b s =>
  let x := s.parcel p
  let gs := (namedGroups b).map (·.1)
  let ch := le b 4 2
  let c := x.chan ch
  let locked := gs.any (fun g => gValid (x.group g) && gLocked (x.group g))
  if hasDup gs then refuse tk .verifyFailed s
  else if ch != 0xFFFF && (255 < ch || c.kind != 2 || c.tenancy != t) then refuse tk .verifyFailed s
  else if isSealed s p && s.sec.error then refuse tk .internal s
  else if (tenItems s p t).any (fun i => i.kind == .update) || locked || !roomFor s p t then refuse tk .busy s
  else admitUpdate tk p t b s

/-- STEP_COMMIT of form UPDATE. -/
def execStepCommitUpdate (r : ZReq) (s : State) : Host.Outcome State Fault Refusal :=
  zRow 0x51 (some 0) cmdStepCommitUpdate r s

/-- R386, R571: whether a group is IN_DOUBT, in an open update item or, after a reset, in the journal alone. -/
def inDoubt (s : State) (p g : Nat) : Bool :=
  match runOfGroup s p g with
  | some (_, r) => r.phase == .inDoubt
  | none => (journalOf (s.parcel p) g).any (fun j => j.decision.isNone)

/-- R388: an IN_DOUBT group ends ABORTED at the word of host software. -/
def resolveAbort (p g : Nat) (s : State) : State :=
  match runOfGroup s p g with
  | some (i, _) => finishGroup p i.seq g .stepAborted 4 true s
  | none => resolveDoubt p g (((journalOf (s.parcel p) g).map (·.t)).getD 0) false 4 s

/-- R388: STEP_COMMIT of form RESOLVE_ABORT. -/
def cmdStepCommitResolveAbort : ZDo := fun tk p _ b s =>
  let gs := (namedGroups b).map (·.1)
  if hasDup gs then refuse tk .verifyFailed s
  else if !gs.all (inDoubt s p) then refuse tk .busy s
  else gs.foldl (fun s g => resolveAbort p g s) (reply tk .ok (zeros 4) s)

/-- STEP_COMMIT of form RESOLVE_ABORT. -/
def execStepCommitResolveAbort (r : ZReq) (s : State) : Host.Outcome State Fault Refusal :=
  zRow 0x51 (some 1) cmdStepCommitResolveAbort r s

/-- R392, R558: STEP_COMMIT of form CLEAR_HOLD. -/
def cmdStepCommitClearHold : ZDo := fun tk p t _ s =>
  reply tk .ok (zeros 4) (s.modTen p t (fun x => { x with divHold := false }))

/-- STEP_COMMIT of form CLEAR_HOLD. -/
def execStepCommitClearHold (r : ZReq) (s : State) : Host.Outcome State Fault Refusal :=
  zRow 0x51 (some 2) cmdStepCommitClearHold r s

/-- R389, R417, R472: SURVEY_READ: a tenancy's own records, as many as fit, which are consumed. -/
def cmdSurveyRead : ZDo := fun tk p t b s =>
  let x := s.parcel p
  let n := min (le b 0 2) ((tk.space - 16) / 80)
  let mine := (x.survey.zipIdx.filter (fun r => le r.1 68 1 == t)).take n
  let gone := mine.map (·.2)
  let s := s.setParcel p { x with survey := (x.survey.zipIdx.filter (fun r => !gone.contains r.2)).map (·.1) }
  let s := s.modTen p t (fun y => { y with surveyLost := false, surveyNext := wrap32 (y.surveyNext + mine.length) })
  reply tk .ok (pay [(mine.length, 2), (b2n (x.ten t).surveyLost, 1), (0, 5), (x.surveyDropped, 6), (0, 2)]
    ++ mine.flatMap (·.1)) s

/-- SURVEY_READ. -/
def execSurveyRead (r : ZReq) (s : State) : Host.Outcome State Fault Refusal := zRow 0x70 none cmdSurveyRead r s

/-- R422: a manifest entry as bytes. -/
def manifestBytes (m : MEntry) : List Byte :=
  pay [(m.seqTag, 4), (m.state, 1), (m.tenancy, 1), (m.reg, 2), (m.position, 4), (m.classMax, 4), (m.lastServed, 8)]
    ++ m.kv.flatMap (fun k => leBytes k 2)

/-- R423: whether a slot is a Class W lot of a tenancy with PLAN clear. -/
def plainSlot (x : Parcel) (t k : Nat) : Bool := (tblGet x.lots k).any (fun e => !e.classA && !e.plan && e.owner == t)

/-- R423: the window slots of a registration. -/
def Reg.window (r : Reg) : List Nat := (List.range (r.batch * r.kvl)).map (r.winBase + ·)

/-- R422: MANIFEST_OP ADD: the lowest free entry. -/
def cmdManifestOpAdd : ZDo := fun tk p t b s =>
  let x := s.parcel p
  let kv := (List.range 4).map (fun k => le b (32 + 2 * k) 2)
  let r := le b 14 2
  let used := kv.filter (· != 0xFFFF)
  let windows := x.regs.flatMap (fun e => e.2.window)
  let taken := x.manifest.filter (fun e => e.2.state != 0)
  if 4096 ≤ taken.length then refuse tk .noResource s
  else if le b 13 1 != t || used.any (fun k => !plainSlot x t k) then refuse tk .badParcel s
  else match tblGet x.regs r with
    | none => refuse tk .verifyFailed s
    | some reg =>
      if reg.tenancy != t || (kv.drop reg.kvl).any (· != 0xFFFF) || used.any (fun k => windows.contains k) then
        refuse tk .verifyFailed s
      else
        let idx := ((List.range 4096).find? (fun k => !taken.any (fun e => e.1 == k))).getD 0
        let m : MEntry := {
          seqTag := le b 8 4, state := 1, tenancy := t, reg := r, position := le b 16 4, lastServed := s.time.postmark,
          kv := kv }
        reply tk .ok (leBytes idx 2) (s.modParcel p (fun x => { x with manifest := tblPut x.manifest idx m }))

/-- MANIFEST_OP ADD. -/
def execManifestOpAdd (r : ZReq) (s : State) : Host.Outcome State Fault Refusal := zRow 0x80 (some 0) cmdManifestOpAdd r s

/-- R422, R428: MANIFEST_OP PAUSE, RESUME and REMOVE: a new state for an entry of the tenancy that the operation accepts;
an entry in an uncompleted batch changes when that batch is done, and one that is to be removed then takes no further change. -/
def manifestChange (st : Nat) (accepts : MEntry → Bool) : ZDo := fun tk p t b s =>
  let x := s.parcel p
  let k := le b 2 2
  match tblGet x.manifest k with
  | none => refuse tk .badParcel s
  | some m =>
    if m.state == 0 || m.tenancy != t || m.pendingOp == some 0 || !accepts m then refuse tk .badParcel s
    else
      let m := { m with pendingOp := some st }
      let inBatch := x.items.any (fun i => (match i.kind with
        | .batch _ => true
        | _ => false) && i.batch.contains k)
      let m := if inBatch then m else applyPending m
      reply tk .ok [] (s.modParcel p (fun x => { x with
        manifest := if m.state == 0 then tblDel x.manifest k else tblPut x.manifest k m }))

/-- R422: MANIFEST_OP PAUSE. -/
def cmdManifestOpPause : ZDo := manifestChange 2 (fun _ => true)

/-- MANIFEST_OP PAUSE. -/
def execManifestOpPause (r : ZReq) (s : State) : Host.Outcome State Fault Refusal := zRow 0x80 (some 1) cmdManifestOpPause r s

/-- R422, R483: MANIFEST_OP RESUME accepts PAUSED and STOPPED entries. -/
def cmdManifestOpResume : ZDo := manifestChange 1 (fun m => m.state == 2 || m.state == 3 || m.pendingOp == some 2)

/-- MANIFEST_OP RESUME. -/
def execManifestOpResume (r : ZReq) (s : State) : Host.Outcome State Fault Refusal := zRow 0x80 (some 2) cmdManifestOpResume r s

/-- R422: MANIFEST_OP REMOVE. -/
def cmdManifestOpRemove : ZDo := manifestChange 0 (fun _ => true)

/-- MANIFEST_OP REMOVE. -/
def execManifestOpRemove (r : ZReq) (s : State) : Host.Outcome State Fault Refusal := zRow 0x80 (some 3) cmdManifestOpRemove r s

/-- R422: MANIFEST_OP READ. -/
def cmdManifestOpRead : ZDo := fun tk p t b s =>
  match tblGet (s.parcel p).manifest (le b 2 2) with
  | some m => if m.state != 0 && m.tenancy == t then reply tk .ok (manifestBytes m) s else refuse tk .badParcel s
  | none => refuse tk .badParcel s

/-- MANIFEST_OP READ. -/
def execManifestOpRead (r : ZReq) (s : State) : Host.Outcome State Fault Refusal := zRow 0x80 (some 4) cmdManifestOpRead r s

/-- R423: what else the parcel keeps in lot slots: group regions, staging, KV slots, and the slots of registrations. -/
def dataSlots (x : Parcel) : List Nat :=
  (x.groups.filter (fun e => gValid e.2)).flatMap (fun e => (allRegions e.2 ++ stageRegions e.2).flatMap regionSlots)
    ++ (x.manifest.filter (fun e => e.2.state != 0)).flatMap (fun e => e.2.kv)
    ++ x.regs.flatMap (fun r => [r.2.tableSlot, r.2.padSlot] ++ r.2.window)

/-- R423, R424: MANIFEST_OP REGISTER: the lowest free registration; its window slots name the pad lot. -/
def cmdManifestOpRegister : ZDo := fun tk p t b s =>
  let x := s.parcel p
  let reg : Reg := {
    tenancy := t, itemId := le b 8 4, tableSlot := le b 12 2, padSlot := le b 14 2, winBase := le b 16 2, kvl := le b 18 1,
    batch := le b 19 1, advance := le b 20 2 }
  let w := reg.window
  match (List.range 16).find? (fun k => (tblGet x.regs k).isNone) with
  | none => refuse tk .noResource s
  | some idx =>
    if (reg.tableSlot :: reg.padSlot :: w).any (fun k => !plainSlot x t k)
        || w.any (fun k => k == reg.tableSlot || k == reg.padSlot || (dataSlots x).contains k) then refuse tk .badParcel s
    else
      let s := s.modParcel p (fun x => restorePad reg { x with regs := tblPut x.regs idx reg })
      reply tk .ok (leBytes idx 2) (cad s)

/-- MANIFEST_OP REGISTER. -/
def execManifestOpRegister (r : ZReq) (s : State) : Host.Outcome State Fault Refusal :=
  zRow 0x80 (some 5) cmdManifestOpRegister r s

/-- R423, R483: MANIFEST_OP UNREGISTER. -/
def cmdManifestOpUnregister : ZDo := fun tk p t b s =>
  let x := s.parcel p
  let k := le b 2 2
  match tblGet x.regs k with
  | none => refuse tk .badParcel s
  | some reg =>
    if reg.tenancy != t then refuse tk .badParcel s
    else if x.manifest.any (fun e => e.2.state != 0 && e.2.reg == k) || x.items.any (fun i => i.kind == .batch k) then
      refuse tk .busy s
    else reply tk .ok [] (cad (s.modParcel p (fun x => { x with
      regs := tblDel x.regs k, live := x.live.filter (fun e => !reg.window.contains e.1) })))

/-- MANIFEST_OP UNREGISTER. -/
def execManifestOpUnregister (r : ZReq) (s : State) : Host.Outcome State Fault Refusal :=
  zRow 0x80 (some 6) cmdManifestOpUnregister r s

/-- R551: an event record as bytes. -/
def eventBytes (n : Nat) (e : Event) : List Byte :=
  pay [(n, 8), (e.postmark, 8), (e.cycle, 4), (e.kind, 2), (e.parcel, 1), (e.tenancy, 1), (e.len, 1), (e.flags, 1),
    (e.seq, 4), (0, 2)] ++ slice e.payload 0 32

/-- R554: reads the records of a log that a reader has not consumed and can see, and consumes them: the bytes of the
reply, and the log after it. -/
def logRead (n : Nat) (sees : Event → Bool) (l : EvLog) : List Byte × EvLog :=
  let got := (l.recs.filter (fun r => decide (l.head < r.1) && sees r.2)).take n
  let nums := got.map (·.1)
  let left := l.recs.filter (fun r => decide (l.head < r.1) && !nums.contains r.1)
  let head := match left with
    | r :: _ => r.1 - 1
    | [] => l.tail
  let b := pay [(got.length, 2), (b2n l.lostFlag, 1), (0, 5)] ++ got.flatMap (fun r => eventBytes r.1 r.2)
  (b, { l with recs := l.recs.filter (fun r => decide (r.1 ≤ head) || !nums.contains r.1), head := head, lostFlag := false })

/-- R472, R483, R550, R554: EVENT_READ: from the log of the partner. -/
def cmdEventRead : ZDo := fun tk p t b s =>
  let n := min (le b 0 2) ((tk.space - 8) / 64)
  if tk.block == 0 then
    let r := logRead n (fun _ => true) s.pfLog
    reply tk .ok r.1 { s with pfLog := r.2 }
  else if tk.block == 64 then
    let r := logRead n (fun _ => true) s.bmcLog
    reply tk .ok r.1 { s with bmcLog := r.2 }
  else
    let r := logRead n (fun e => !itemOpen s p e.tenancy e.seq) ((s.parcel p).ten t).log
    reply tk .ok r.1 (s.modTen p t (fun x => { x with log := r.2 }))

/-- EVENT_READ. -/
def execEventRead (r : ZReq) (s : State) : Host.Outcome State Fault Refusal := zRow 0xC0 none cmdEventRead r s

end Sys2Proof.Machine
end

