-- ==== Sys2Proof/Machine/Verify.lean ====
section
/-! DEFINITION. The first steps of the plan verifier (04 R177 to R189): header and layout, digest and signature, unit,
length class, resources and lots; and the verify detail record. -/

namespace Sys2Proof.Machine

/-- R178: a verify detail record. -/
structure VFail where
  detail : Nat
  core : Nat := 0xFFFF
  seg : Nat := 0xFFFF
  bundle : Nat := 0xFFFFFFFF
  cycle : Nat := 0xFFFFFFFF
  deriving DecidableEq, Repr

/-- R178: the bytes of a verify detail record. -/
def VFail.bytes (v : VFail) : List Byte := pay [(v.detail, 2), (v.core, 2), (v.seg, 2), (0, 2), (v.bundle, 4), (v.cycle, 4)]

/-- R179: the DETAIL values. -/
def vfFormat : Nat := 0x0001
def vfUnit : Nat := 0x0002
def vfClass : Nat := 0x0003
def vfResource : Nat := 0x0010
def vfLot : Nat := 0x0011
def vfEncoding : Nat := 0x0020
def vfSequence : Nat := 0x0021
def vfAddress : Nat := 0x0022
def vfNumber : Nat := 0x0030
def vfColumn : Nat := 0x0031
def vfAccumulator : Nat := 0x0032
def vfShadow : Nat := 0x0033
def vfMode : Nat := 0x0034
def vfPower : Nat := 0x0035
def vfPort : Nat := 0x0040
def vfBuffer : Nat := 0x0041
def vfDeadline : Nat := 0x0042
def vfArm : Nat := 0x0043
def vfStreamWait : Nat := 0x0044
def vfGate : Nat := 0x0045
def vfStash : Nat := 0x0046
def vfFrame : Nat := 0x0050
def vfBounds : Nat := 0x0051
def vfEnd : Nat := 0x0052
def vfStore : Nat := 0x0060

/-- The first check of a list that fails. -/
def firstFail : List (Bool × VFail) → Option VFail
  | [] => none
  | (true, _) :: r => firstFail r
  | (false, f) :: _ => some f

/-- Whether no two of a list of ranges (offset, length) share a byte; empty ranges share none. -/
def apart : List (Nat × Nat) → Bool
  | [] => true
  | x :: r => r.all (fun y => x.2 == 0 || y.2 == 0 || decide (x.1 + x.2 ≤ y.1) || decide (y.1 + y.2 ≤ x.1)) && apart r

/-- R183: the header fields that the checks use. -/
def imgLen (im : List Byte) : Nat := le im 8 8
def imgItem (im : List Byte) : Nat := le im 16 4
def imgUnit (im : List Byte) : Nat := le im 20 2
def imgCores (im : List Byte) : Nat := le im 22 2
def imgClassMin (im : List Byte) : Nat := le im 24 4
def imgClassMax (im : List Byte) : Nat := le im 28 4
def imgSegments (im : List Byte) : Nat := le im 32 2
def imgFlags (im : List Byte) : Nat := le im 34 2
def imgSeed (im : List Byte) : Nat := le im 36 4
def imgSig (im : List Byte) : Nat := le im 64 8

/-- R184: the core index entries: logical core and section offset. -/
def imgIndexList (im : List Byte) : List (Nat × Nat) :=
  (List.range (imgCores im)).map (fun k => (le im (imgIndex im + 16 * k) 2, le im (imgIndex im + 16 * k + 8) 8))

/-- R182, R183: the checks of the header. -/
def headerOk (im : List Byte) : Bool :=
  let n := im.length
  decide (384 ≤ n) && le im 0 4 == 0x4E414C50 && le im 4 2 == 2 && le im 6 2 == 256 && imgLen im == n && n % 64 == 0
    && decide (n ≤ 2 ^ 28) && imgSig im == n - 128 && allZero im 72 184 && decide (imgFlags im < 4)
    && decide (1 ≤ imgCores im) && decide (imgCores im ≤ 192) && decide (1 ≤ imgSegments im)

/-- R184, R185: the checks of one core section. The range of BUNDLES belongs to SEQUENCE (R146, R147, R179). DESIGN CHOICE
(log entry 66): a DESCRIPTORS field above 1,024, for which R179 names no detail, is IMAGE_FORMAT. -/
def sectionFail (im : List Byte) (k lc off : Nat) : Option VFail :=
  let e := imgIndex im + 16 * k
  let segs := imgSegments im
  let len := le im (off + 8) 8
  let f : VFail := { detail := vfFormat, core := lc }
  let dir (g : Nat) : Nat := imgDir off g
  let parts := (0, 16 + 160 * segs) :: (List.range segs).flatMap (fun g =>
    [(le im (dir g) 4, 32 * le im (dir g + 4) 2), (le im (dir g + 8) 4, 64 * le im (dir g + 6) 2)])
  firstFail ([(allZero im (e + 2) 6 && off % 64 == 0 && decide (256 ≤ off) && decide (off + 16 ≤ imgSig im), f),
    (le im off 2 == lc && le im (off + 2) 2 == segs && allZero im (off + 4) 4 && decide (16 + 160 * segs ≤ len)
      && decide (off + len ≤ imgSig im), f)]
    ++ (List.range segs).map (fun g =>
      let d := dir g
      (le im d 4 % 32 == 0 && le im (d + 8) 4 % 64 == 0 && decide (le im (d + 6) 2 ≤ 1024) && allZero im (d + 12) 4 && allZero im (d + 144) 16
        && decide (le im d 4 + 32 * le im (d + 4) 2 ≤ len) && decide (le im (d + 8) 4 + 64 * le im (d + 6) 2 ≤ len),
        { f with seg := g }))
    ++ [(apart parts, f)])

/-- The first of a list of checks that fails. -/
def firstSome {α : Type} (f : α → Option VFail) : List α → Option VFail
  | [] => none
  | x :: r => match f x with
    | some v => some v
    | none => firstSome f r

/-- R177 step 1, R179 IMAGE_FORMAT: header and layout. -/
def layoutFail (im : List Byte) : Option VFail :=
  let bad : VFail := { detail := vfFormat }
  if !headerOk im then some bad
  else
    let fixed := [(imgIndex im, 16 * imgCores im), (imgBounds im, 64 * imgSegments im), (imgResource im, 320)]
    if !fixed.all (fun r => r.1 % 64 == 0 && decide (256 ≤ r.1) && decide (r.1 + r.2 ≤ imgSig im)) then some bad
    else match firstSome (fun k => sectionFail im k.2 k.1.1 k.1.2) (imgIndexList im).zipIdx with
      | some v => some v
      | none =>
        let secs := (imgIndexList im).map (fun e => (e.2, le im (e.2 + 8) 8))
        if !apart (fixed ++ secs) then some bad
        else match (List.range (imgSegments im)).find? (fun g => !allZero im (imgBounds im + 64 * g + 40) 24) with
          | some g => some { bad with seg := g }
          | none => if allZero im (imgResource im + 16) 48 then none else some bad

/-- R188, R483: the digest of an image. -/
def imgDigest (im : List Byte) : List Byte := sha256 (im.take (imgSig im))

/-- R177 step 2, R188, R189: whether the digest and the signature hold, for a tenancy's registered key (none: no
bytes). -/
def signatureOk (im signer : List Byte) : Bool :=
  let g := imgSig im
  let key := slice im (g + 32) 32
  let r := le im (g + 64) 32
  let w := le im (g + 96) 32
  slice im g 32 == imgDigest im &&
    (if signer.isEmpty then allZero im (g + 32) 96
     else key == sha256 signer && ecdsaVerify signer (slice im g 32) r w)

/-- R239: the granules of a mode that a parcel has on its logical die with the fewest. -/
def leastGrans (x : Parcel) (cache : Bool) : Nat :=
  ((logicalDies x).map (fun d => (x.granules.filter (fun g => g.1 == d && g.2.2 == cache)).length)).foldl min 16

/-- R177 step 3, R179 UNIT: the unit, and the cores that the index lists. -/
def unitFail (x : Parcel) (im : List Byte) : Bool :=
  let lcs := (imgIndexList im).map (·.1)
  match unitCores x (imgUnit im) with
  | none => true
  | some cs => decide (4 < bits (imgUnit im) 15 13) || hasDup lcs || cs.length != lcs.length || !cs.all (fun c => lcs.contains c)

/-- R179 CLASS, R330. -/
def classFail (x : Parcel) (t : Nat) (im : List Byte) : Bool :=
  decide (imgClassMax im < imgClassMin im) || (x.variants t (imgItem im)).any (fun v =>
    decide (v.classMin ≤ imgClassMax im) && decide (imgClassMin im ≤ v.classMax))

/-- R179 RESOURCE, R187, R229, R239, R240. -/
def resourceFail (x : Parcel) (im : List Byte) : Bool :=
  imgStashSp im % 8192 != 0 || decide (8388608 < imgStashSp im) || imgStashDs im % 2 ^ 24 != 0
    || decide (imgGranScratch im < imgStashDs im / 2 ^ 24) || decide (leastGrans x false < imgGranScratch im)
    || decide (leastGrans x true < imgGranCache im) || decide (64 < le im (imgResource im + 12) 1)
    || decide (1 < imgGrade im) || decide (x.quads.length < imgMinQuads im)

/-- R179 LOT, R22, R187, R398: the slots that an image declares. -/
def lotsFail (x : Parcel) (t : Nat) (im : List Byte) : Bool :=
  (List.range 1024).any (fun j =>
    let w := bit (imgLotW im) j
    let a := bit (imgLotA im) j
    (w && a) || ((w || a) && !(tblGet x.lots j).any (fun e => e.owner == t && e.classA == a)))

/-- R177 step 3: its four checks, numbered from 0. -/
def partFail (x : Parcel) (t : Nat) (im : List Byte) (k : Nat) : Option VFail :=
  firstFail ([(!unitFail x im, { detail := vfUnit }), (!classFail x t im, { detail := vfClass }),
    (!resourceFail x im, { detail := vfResource }), (!lotsFail x t im, { detail := vfLot })].drop k |>.take 1)

end Sys2Proof.Machine
end

