-- ==== Sys2Proof/Machine/VerifyDecode.lean ====
section
/-! DEFINITION. The plan verifier's decoding of bundles and descriptors (04 R140 to R161, R177 step 4, 05 R200 to R211,
07 R253 to R258) and the expansion of deltas, repeats and blocks (R142 to R147). -/

namespace Sys2Proof.Machine

/-- The bits of a list of fields [hi:lo]. -/
def fieldMask (l : List (Nat × Nat)) : Nat := (l.map (fun f => (2 ^ (f.1 + 1 - f.2) - 1) * 2 ^ f.2)).foldl (· + ·) 0

/-- R140: whether a slot word has bits only in its opcode and the given fields. -/
def onlyFields (w : Nat) (l : List (Nat × Nat)) : Bool := (w ||| fieldMask ((63, 58) :: l)) == fieldMask ((63, 58) :: l)

/-- The result of a decoding if its checks hold, else a detail (R179). -/
def guardV {α : Type} (ok : Bool) (detail : Nat) (x : α) : Except Nat α := if ok then .ok x else .error detail

/-- R156: the fields of `mm.pass` and `mm.lds`. -/
def matFields (w : Nat) : MatF := {
  array := bits w 57 54, qset := bits w 53 50, fmt := bits w 49 47, scaled := bit w 46, swap := bit w 45, add := bit w 44,
  bank := bits w 43 43, row := bits w 42 38, nvec := bits w 37 32, vreg := bits w 31 27, sreg := bits w 26 22,
  qreg := bits w 21 17, rmode := bits w 16 15 }

/-- R156, R159: whether the fields of a pass or load are in range and pair. -/
def matOk (isPass : Bool) (f : MatF) : Bool :=
  decide (f.array ≤ 11) && decide (f.fmt ≤ 5) && f.rmode != 3 && (f.fmt != 2 || f.scaled) && (f.fmt < 3 || !f.scaled)
    && (f.rmode != 2 || (!isPass && decide (4 ≤ f.fmt) && f.qset == 0))

/-- R140, R156, R157: the matrix slot; none is `mm.nop`. -/
def decodeMat (w : Nat) : Except Nat (Option SlotOp) :=
  let op := bits w 63 58
  let f := matFields w
  if op == 0 then guardV (w == 0) vfEncoding none
  else if op == 1 then guardV (onlyFields w [(57, 15)] && matOk true f) vfEncoding (some (.pass f))
  else if op == 2 then guardV (onlyFields w [(57, 46), (31, 15)] && matOk false f) vfEncoding (some (.lds f))
  else if op == 3 then
    guardV (onlyFields w [(57, 53)] && decide (f.array ≤ 11)) vfEncoding (some (.mode f.array (bit w 53)))
  else if op == 4 then guardV (onlyFields w [(57, 46)]) vfEncoding (some (.wake (bits w 57 46)))
  else if op == 5 then guardV (onlyFields w [(57, 46)]) vfEncoding (some (.rest (bits w 57 46)))
  else .error vfEncoding

/-- R140, R161: the stream and scratchpad slot. -/
def decodeSt (w : Nat) : Except Nat (Option SlotOp) :=
  let op := bits w 63 58
  if op == 0 then guardV (w == 0) vfEncoding none
  else if op ≤ 3 then
    guardV (onlyFields w [(57, 37)]) vfEncoding (some (.arm (op - 1) ⟨bits w 57 52, bits w 51 42, bits w 41 37⟩))
  else if op == 0x10 then
    guardV (onlyFields w [(57, 46)] && bits w 52 51 != 3) vfEncoding (some (.mov (bits w 57 53) (bits w 52 51) (bits w 50 46)))
  else if op == 0x11 then
    guardV (onlyFields w [(57, 21)]) vfEncoding (some (.fill (bits w 57 53) (BitVec.ofNat 32 (bits w 52 21))))
  else if op == 0x12 then guardV (onlyFields w [(57, 42)]) vfEncoding (some (.gate (bits w 57 42)))
  else if op == 0x13 then guardV (onlyFields w [(57, 42)]) vfEncoding (some (.ungate (bits w 57 42)))
  else .error vfEncoding

/-- R148: the control slot. -/
def decodeCtl (w : Nat) : Except Nat CtlOp :=
  let op := bits w 63 58
  let d := bits w 57 42
  if op == 0 then
    guardV (onlyFields w [(57, 6)]) vfEncoding
      (.step ⟨d, bits w 41 26, bits w 25 21, bits w 20 16, bits w 15 11, bits w 10 6⟩)
  else if op == 1 then guardV (onlyFields w [(57, 18)]) vfEncoding (.blk d (bits w 41 34 + 1) (bits w 33 18))
  else if op == 2 then guardV (onlyFields w [(57, 5)]) vfEncoding (.seta d (bits w 41 37) (BitVec.ofNat 32 (bits w 36 5)))
  else if op == 3 then .ok (.adda d (bits w 41 37) (bits w 36 32) (BitVec.ofNat 32 (bits w 31 0)))
  else if op == 0x3F then guardV (onlyFields w [(57, 42)]) vfEncoding .end_
  else .error vfEncoding

/-- R201: what the table says of a vector operation: BF16 width, mask and ACC allowed, and its own fields. -/
structure VxRow where
  op : VOp
  wide : Bool
  mask : Bool
  acc : Bool
  fields : List (Nat × Nat)
  deriving DecidableEq, Repr

/-- R200: operand fields VD, VA, VB, VC. -/
def fVd : Nat × Nat := (51, 46)
def fVa : Nat × Nat := (45, 40)
def fVb : Nat × Nat := (39, 34)
def fVc : Nat × Nat := (33, 28)

/-- R200, R201: the row of an opcode; `vx.nop`, `vx.movi`, `vx.ld` and `vx.st` stand apart. -/
def vxRow (op : Nat) : Option VxRow :=
  match op with
  | 0x01 => some ⟨.add, true, true, true, [fVd, fVa, fVb]⟩
  | 0x02 => some ⟨.sub, true, true, true, [fVd, fVa, fVb]⟩
  | 0x03 => some ⟨.mul, true, true, true, [fVd, fVa, fVb]⟩
  | 0x04 => some ⟨.fma, true, true, true, [fVd, fVa, fVb, fVc, (18, 17)]⟩
  | 0x05 => some ⟨.min, true, true, true, [fVd, fVa, fVb]⟩
  | 0x06 => some ⟨.max, true, true, true, [fVd, fVa, fVb]⟩
  | 0x08 => some ⟨.mov, true, true, true, [fVd, fVa]⟩
  | 0x09 => some ⟨.abs, true, true, true, [fVd, fVa]⟩
  | 0x0A => some ⟨.neg, true, true, true, [fVd, fVa]⟩
  | 0x10 => some ⟨.cmp, true, true, true, [(48, 46), fVa, fVb, (18, 16)]⟩
  | 0x14 => some ⟨.gsum, false, true, true, [fVd, fVa, (18, 18)]⟩
  | 0x15 => some ⟨.gmax, false, true, true, [fVd, fVa, (18, 18)]⟩
  | 0x16 => some ⟨.gmin, false, true, true, [fVd, fVa, (18, 18)]⟩
  | 0x18 => some ⟨.exp2, true, true, true, [fVd, fVa]⟩
  | 0x19 => some ⟨.log2, true, true, true, [fVd, fVa]⟩
  | 0x1A => some ⟨.rcp, true, true, true, [fVd, fVa]⟩
  | 0x1B => some ⟨.rsqrt, true, true, true, [fVd, fVa]⟩
  | 0x1C => some ⟨.sqrt, true, true, true, [fVd, fVa]⟩
  | 0x1D => some ⟨.tanh, true, true, true, [fVd, fVa]⟩
  | 0x1E => some ⟨.sigm, true, true, true, [fVd, fVa]⟩
  | 0x20 => some ⟨.cvt, true, true, true, [fVd, fVa, (18, 5)]⟩
  | 0x21 => some ⟨.qmx, false, false, true, [fVd, fVa, fVb, (14, 0)]⟩
  | 0x22 => some ⟨.dqmx, false, true, false, [fVd, fVa, fVb, (14, 0)]⟩
  | 0x28 => some ⟨.mand, false, false, false, [(48, 46), (42, 40), (36, 34)]⟩
  | 0x29 => some ⟨.mor, false, false, false, [(48, 46), (42, 40), (36, 34)]⟩
  | 0x2A => some ⟨.mxor, false, false, false, [(48, 46), (42, 40), (36, 34)]⟩
  | 0x2B => some ⟨.mnot, false, false, false, [(48, 46), (42, 40)]⟩
  | 0x2C => some ⟨.mfirst, true, false, false, [(48, 46), (18, 10)]⟩
  | _ => none

/-- R200, R201: the fields of a vector instruction. -/
def vecFields (op : VOp) (w : Nat) : VecF := {
  width := bits w 57 57, men := bit w 56, mreg := bits w 55 53, zero := bit w 52, vd := bits w 51 46, va := bits w 45 40,
  vb := bits w 39 34, vc := bits w 33 28, acc := bit w 27, array := bits w 26 23, bank := bits w 22 22, rq := bits w 21 19,
  negp := bit w 18, negc := bit w 17, cond := bits w 18 16, gs := bits w 18 18,
  sf := (if op == .dqmx then bits w 14 11 else bits w 18 15), tf := bits w 14 11, part := bits w 10 7, sr := bit w 6,
  nsat := bit w 5, spos := bits w 6 0, n := bits w 18 10 }

/-- R208: whether the part of a block-quantized type lies in the register, and for `vx.qmx` apart from its scale bytes. -/
def partOk (q : Bool) (f : VecF) (ty : Nat) : Bool :=
  match partBytes ty with
  | none => true
  | some n =>
    decide (n * (f.part + 1) ≤ 512) &&
      (!q || f.vd != f.vb || decide (n * (f.part + 1) ≤ 4 * f.spos) || decide (4 * f.spos + 4 ≤ n * f.part))

/-- R195, R197, R199, R201, R208: whether the fields of a vector instruction are in range. -/
def vecOk (r : VxRow) (f : VecF) : Bool :=
  (r.wide || f.width == 0) && (!f.acc || (f.width == 0 && decide (f.array ≤ 11)))
    && (!f.men || f.width == 0 || f.mreg % 2 == 0)
    && (match r.op with
      | .cmp => decide (f.cond ≤ 5) && (f.width == 0 || f.vd % 2 == 0)
      | .mfirst => decide (f.n ≤ lanes f.width) && (f.width == 0 || f.vd % 2 == 0)
      | .cvt => !f.acc || f.sf == 7
      | .qmx => partOk true f f.tf
      | .dqmx => partOk false f f.sf
      | _ => true)

/-- R210: the fields of a load or store. -/
def ldFields (w : Nat) : LdF := ⟨bits w 51 46, bits w 45 41, bits w 40 39, bits w 38 37, bits w 36 33⟩

/-- R210, R211: the allowed combinations of RMODE, SIZE and PART. -/
def ldOk (store : Bool) (f : LdF) : Bool :=
  f.rmode != 3 && (!store || f.rmode == 0) && (f.size < 2 || f.rmode == 0) && decide (ldBytes f.size * (f.part + 1) ≤ 512)

/-- R140, R200 to R202, R210: the vector slot. -/
def decodeVec (w : Nat) : Except Nat (Option SlotOp) :=
  let op := bits w 63 58
  let mask : List (Nat × Nat) := [(56, 52)]
  if op == 0 then guardV (w == 0) vfEncoding none
  else if op == 0x0B then
    let f := vecFields .mov w
    guardV (onlyFields w ((57, 57) :: (31, 0) :: fVd :: mask) && (!f.men || f.width == 0 || f.mreg % 2 == 0)) vfEncoding
      (some (.movi { width := f.width, men := f.men, mreg := f.mreg, zero := f.zero, vd := f.vd } (BitVec.ofNat 32 (bits w 31 0))))
  else if op == 0x38 then guardV (onlyFields w [(51, 33)] && ldOk false (ldFields w)) vfEncoding (some (.ld (ldFields w)))
  else if op == 0x39 then guardV (onlyFields w [(51, 33)] && ldOk true (ldFields w)) vfEncoding (some (.st (ldFields w)))
  else match vxRow op with
    | none => .error vfEncoding
    | some r =>
      let used := (57, 57) :: ((if r.mask then mask else []) ++ (if r.acc then [(27, 19)] else []) ++ r.fields)
      let f := vecFields r.op w
      guardV (onlyFields w used && vecOk r f) vfEncoding (some (.vec r.op f))

/-- R141: a bundle of 32 bytes. -/
def decodeBundle (b : List Byte) : Except Nat Bundle :=
  match decodeCtl (le b 0 8), decodeSt (le b 8 8), decodeVec (le b 16 8), decodeMat (le b 24 8) with
  | .ok c, .ok s, .ok v, .ok m => .ok ⟨m.toList ++ v.toList ++ s.toList, c, 0⟩
  | .error e, _, _, _ => .error e
  | _, .error e, _, _ => .error e
  | _, _, .error e, _ => .error e
  | _, _, _, .error e => .error e

/-- The DELTA field of a bundle's control slot. -/
def deltaField (b : List Byte) : Nat := bits (le b 0 8) 57 42

/-- R142, R146 to R148: whether a bundle fits where it stands: ends of the blocks that contain it, the bundles of the
segment. -/
def seqOk (n i delta : Nat) (open_ : List Nat) (c : CtlOp) : Bool :=
  delta != 0 && (match c with
    | .step f => f.incaDst != f.incbDst || f.incaDst == 0
    | .blk _ body _ => decide (i + body ≤ n) && decide (open_.length < 2) && open_.all (fun e => decide (i + body ≤ e))
    | .end_ => i + 1 == n && open_.isEmpty && delta == 1
    | _ => true) && (i + 1 != n || c == .end_)

/-- The table entries that a bundle's arms name, each with its arming opcode. -/
def armsIn (b : Bundle) : List (Nat × Nat) := b.ops.filterMap (fun o => match o with
  | .arm k f => some (f.entry, k)
  | _ => none)

/-- R146, R147, R177, R179: decodes the bundles of a segment in sequencer-memory order, from bundle i of n, with the ends of the
blocks that are open: the first failure, with its bundle, is that of the first bundle that has one: its slots, its place, the
entries that it arms. -/
def decodeAll (n descs : Nat) : Nat → List (List Byte) → List Nat → Except (Nat × Nat) (List (Nat × Bundle))
  | _, [], _ => .ok []
  | i, b :: r, open_ =>
    let open_ := open_.filter (fun e => decide (i < e))
    if 16384 ≤ i then .error (vfSequence, i)
    else match decodeBundle b with
    | .error e => .error (e, i)
    | .ok x =>
      if !seqOk n i (deltaField b) open_ x.ctl then .error (vfSequence, i)
      else if (armsIn x).any (fun a => decide (descs ≤ a.1)) then .error (vfEncoding, i)
      else
        let open_ := match x.ctl with
          | .blk _ body _ => (i + body) :: open_
          | _ => open_
        match decodeAll n descs (i + 1) r open_ with
        | .ok l => .ok ((i, { x with idx := i }) :: l)
        | .error e => .error e

/-- R143: a bundle and its repeats. -/
def repeatsOf (x : Nat × Bundle) : List (Nat × Bundle) :=
  match x.2.ctl with
  | .step f => List.replicate (f.repeat_ + 1) x
  | _ => [x]

/-- R143: the issues of bundles that open no block. -/
def flatIssues (l : List (Nat × Bundle)) : List (Nat × Bundle) := l.flatMap repeatsOf

/-- R145: the issues of bundles with blocks, `inner` giving those of a block's body after its first bundle; the number
bounds the bundles. -/
def blockIssues (inner : List (Nat × Bundle) → List (Nat × Bundle)) : Nat → List (Nat × Bundle) → List (Nat × Bundle)
  | 0, _ => []
  | _ + 1, [] => []
  | n + 1, x :: r =>
    match x.2.ctl with
    | .blk _ body count =>
      (List.replicate (count + 1) (x :: inner (r.take (body - 1)))).flatten ++ blockIssues inner n (r.drop (body - 1))
    | _ => repeatsOf x ++ blockIssues inner n r

/-- R145, R146: the issues of a segment in order, blocks nested to a depth of two. -/
def allIssues (l : List (Nat × Bundle)) : List (Nat × Bundle) :=
  blockIssues (fun b => blockIssues flatIssues b.length b) l.length l

/-- R142, R143: the plan cycles of a bundle and its repeats. -/
def spanOne (x : Nat × Bundle) : Nat :=
  match x.2.ctl with
  | .step f => (f.repeat_ + 1) * f.delta
  | c => ctlDelta c

/-- R145: the plan cycles of bundles with blocks. -/
def blockSpan (inner : List (Nat × Bundle) → Nat) : Nat → List (Nat × Bundle) → Nat
  | 0, _ => 0
  | _ + 1, [] => 0
  | n + 1, x :: r =>
    match x.2.ctl with
    | .blk d body count => (count + 1) * (d + inner (r.take (body - 1))) + blockSpan inner n (r.drop (body - 1))
    | _ => spanOne x + blockSpan inner n r

/-- R146: the expanded length of a segment on a core. -/
def segSpan (l : List (Nat × Bundle)) : Nat :=
  blockSpan (fun b => blockSpan (fun c => (c.map spanOne).foldl (· + ·) 0) b.length b) l.length l

/-- R253 to R257: whether the fields of a descriptor-table entry of a logical core are in range. -/
def descFieldsOk (peer : Bool) (lc : Nat) (b : List Byte) : Bool :=
  let c := le b 0 8
  let d := descOf b 0 0
  let fa := d.farAddr
  bits c 7 6 == 0 && decide (d.far ≤ 4) && allZero b 30 2 && allZero b 60 4 && decide (le b 16 4 < 2 ^ 21)
    && le b 16 4 % 4 == 0 && d.deadline != 0 && d.n0 % 32 == 0 && decide (32 ≤ d.n0) && decide (d.n0 ≤ 12582912)
    && decide (d.bytes ≤ 2 ^ 30) && [d.fs1, d.fs2, d.fs3, d.ss1, d.ss2, d.ss3].all (fun x => x % 32 == 0)
    && (decide (2 ≤ d.kind) == (d.far == 4)) && (d.policy == 0 || d.far == 0)
    && ((d.tag == 0 && d.partner == 0) || d.far == 2 || d.far == 3) && (d.far != 2 || d.partner != lc)
    && (d.far != 3 || (decide (d.partner < 256) && peer))
    && (if d.far == 0 then decide (fa < 2 ^ 40)
        else if d.far == 1 then bits fa 31 28 == 0 && decide (fa < 2 ^ 35) else fa == 0)
    && (decide (d.far < 2) || (d.fs1 == 0 && d.fs2 == 0 && d.fs3 == 0))

/-- R257: the least and the greatest offset that three strides reach. -/
def strideSpan (d : Desc) (s1 s2 s3 : Int) : Int × Int :=
  let f (a : Int × Int) (s : Int) (n : Nat) : Int × Int := (a.1 + min 0 (((n : Int) - 1) * s), a.2 + max 0 (((n : Int) - 1) * s))
  f (f (f (0, 0) s1 d.n1) s2 d.n2) s3 d.n3

/-- R257: the far bytes of an HBM or die-store descriptor, from the first to one past the last. -/
def farSpan (d : Desc) : Int × Int :=
  let r := strideSpan d d.fs1 d.fs2 d.fs3
  ((d.farAddr : Int) + r.1, (d.farAddr : Int) + r.2 + d.n0)

/-- R258: whether every far byte lies in its space: 2^40 bytes, the granule that FAR_ADDR names, or the stash area. -/
def farSpaceOk (area : Nat) (d : Desc) : Bool :=
  let r := farSpan d
  let g : Nat := d.farAddr / 16777216 * 16777216
  if d.far == 0 then decide (0 ≤ r.1) && decide (r.2 ≤ 2 ^ 40)
  else if d.far == 1 then decide ((g : Int) ≤ r.1) && decide (r.2 ≤ (g : Int) + 2 ^ 24)
  else d.far != 4 || decide (d.bytes ≤ area)

/-- R258: whether an entry's KIND matches the opcode that arms it. -/
def kindOk (op kind : Nat) : Bool := if op == 0 then decide (kind < 2) else kind == op + 1

/-- R177 step 4, R258: what is wrong with a descriptor-table entry that bundles arm: the bundles and opcodes, the first named
bundle first. -/
def entryFail (peer : Bool) (lc area : Nat) (b : List Byte) (arms : List (Nat × Nat)) : Option (Nat × Nat) :=
  let d := descOf b 0 0
  match arms.head? with
  | none => if d.far == 3 && !peer then some (vfEncoding, 0xFFFFFFFF) else none
  | some x =>
    if !descFieldsOk peer lc b then some (vfEncoding, x.1)
    else if !farSpaceOk area d then some (vfAddress, x.1)
    else (arms.find? (fun y => !kindOk y.2 d.kind)).map (fun y => (vfArm, y.1))

/-- The bundles, and their opcodes, that arm a table entry. -/
def armersOf (l : List (Nat × Bundle)) (entry : Nat) : List (Nat × Nat) :=
  l.flatMap (fun x => ((armsIn x.2).filter (fun a => a.1 == entry)).map (fun a => (x.1, a.2)))

/-- R177 step 4, R258, R273: the entries of a descriptor table in order; R273 also refuses a LINK entry that nothing arms. -/
def tableFail (peer : Bool) (lc area : Nat) (descs : List (List Byte)) (l : List (Nat × Bundle)) : Option (Nat × Nat) :=
  descs.zipIdx.findSome? (fun x => entryFail peer lc area x.1 (armersOf l x.2))

/-- R177 step 4: one core's share of a segment, decoded: bundles, descriptor table, initial registers. -/
structure SegCode where
  code : List (Nat × Bundle)
  descs : List (List Byte)
  aregs : List Word
  deriving DecidableEq, Repr

/-- R177 step 4: decodes the bundles and then the descriptors of a core's segment. -/
def decodeSegment (im : List Byte) (lc seg area : Nat) : Except VFail SegCode :=
  let sec := (imgSection im lc).getD 0
  let d := imgDir sec seg
  let nb := le im (d + 4) 2
  let bs := (List.range nb).map (fun k => slice im (sec + le im d 4 + 32 * k) 32)
  let descs := (List.range (le im (d + 6) 2)).map (fun k => slice im (sec + le im (d + 8) 4 + 64 * k) 64)
  let f (detail : Nat) : VFail := { detail := detail, core := lc, seg := seg }
  if nb == 0 then .error (f vfSequence)
  else match decodeAll nb descs.length 0 bs [] with
  | .error e => .error { f e.1 with bundle := e.2 }
  | .ok code =>
    if 2 ^ 32 ≤ segSpan code then .error { f vfSequence with bundle := nb - 1 }
    else if le im (d + 16) 4 != 0 then .error (f vfSequence)
    else match tableFail (bit (imgFlags im) 1) lc area descs code with
      | some e => .error { f e.1 with bundle := e.2 }
      | none => .ok ⟨code, descs, (List.range 32).map (fun k => BitVec.ofNat 32 (le im (d + 16 + 4 * k) 4))⟩

end Sys2Proof.Machine
end

