-- ==== Sys2Proof/Machine/VerifyTime.lean ====
section
/-! DEFINITION. The plan verifier's timing of one core: scratchpad accesses, ports, buffers, gates (04 R152 to R155, 06
R219 to R221, R225 to R236), vector registers (05 R213) and descriptors (07 R247, R258, R271, R281). -/

namespace Sys2Proof.Machine

/-- R142 to R145: one issue of a bundle: its place in issue order, its plan cycle, its index in sequencer memory, and the
address registers before it. -/
structure Issue where
  n : Nat
  t : Nat
  i : Nat
  b : Bundle
  regs : List Word
  deriving DecidableEq, Repr

/-- R142, R144: issues in order, each with its plan cycle and registers. -/
def issueList : List (Nat × Bundle) → Nat → Nat → List Word → List Issue
  | [], _, _, _ => []
  | x :: r, n, t, regs =>
    ⟨n, t, x.1, x.2, regs⟩ ::
      issueList r (n + 1) (t + ctlDelta x.2.ctl) (ctlRegs x.2.ctl { aregs := regs }).aregs

/-- R144: a core that holds the address registers of an issue. -/
def Issue.core (x : Issue) : Core := { aregs := x.regs, seq := { plan := x.t } }

/-- A failure at a bundle and a cycle (R178). -/
def vfAt (detail i cycle : Nat) : VFail := { detail := detail, bundle := i, cycle := cycle }

/-- One scratchpad access of a plan (R152): its issue, bundle and cycle, the row, column, strip or group it names, its
words, and whether its address is allowed. -/
structure Acc where
  n : Nat
  i : Nat
  t : Nat
  key : Nat × Nat
  ws : List Nat
  write : Bool
  ok : Bool
  deriving DecidableEq, Repr

/-- R21: whether words lie in tiles below 1,536. -/
def inTiles (ws : List Nat) : Bool := ws.all (fun w => decide (w < 1536 * 1024))

/-- R219, R222: consecutive words of one tile row. -/
def rowAcc (x : Issue) (t a count : Nat) (write : Bool) : Acc :=
  let a := a % 2 ^ 21
  let ws := (List.range count).map (a + ·)
  ⟨x.n, x.i, t, (0, a / 32), ws, write, decide (a % 32 + count ≤ 32) && inTiles ws⟩

/-- R219, R221: a tile column (kind 1) or a transposed strip (kind 2). -/
def colAcc (x : Issue) (t a kind : Nat) (ok : Bool) : Acc :=
  let a := a % 2 ^ 21
  let ws := (List.range 32).map (fun r => a + 32 * r)
  ⟨x.n, x.i, t, (kind, a), ws, false, ok && bits a 9 5 == 0 && inTiles ws⟩

/-- R217: the bank of a word. -/
def bankOf (w : Nat) : Nat := (w / 32 + w) % 32

/-- R219, R220: a strided group; no two groups count as one access. -/
def groupAcc (x : Issue) (t a stride k : Nat) : Acc :=
  let ws := (List.range 32).map (fun k => (a + k * stride) % 2 ^ 21)
  ⟨x.n, x.i, t, (3 + k, x.n), ws, false, !hasDup (ws.map bankOf) && inTiles ws⟩

/-- A matrix instruction at an issue, with its address registers (R144). -/
def matAt (x : Issue) (isPass : Bool) (f : MatF) : MatOp :=
  let c := x.core
  ⟨isPass, x.t, f, c.addr f.vreg, c.stride f.vreg, c.addr f.sreg, c.addr f.qreg, [], []⟩

/-- R154, R155, R160, R221: the read accesses of a pass or load. -/
def matAccs (x : Issue) (o : MatOp) : List Acc :=
  (unitsOf o.f.qset).flatMap (fun u =>
    let vb := u.w * fmtBits o.f.fmt / 8
    let n := countOf o u
    let base := o.addr + u.k * o.qoff
    let data :=
      if o.f.rmode == 1 then
        (List.range n).map (fun i => rowAcc x (readAt o u i) (base + i * o.stride) (vb / 8) false)
      else if o.f.rmode == 2 then
        (List.range 8).map (fun m => colAcc x (x.t + 4 * m) (o.addr + m) 2 (decide (o.addr % 32 + 7 ≤ 31)))
      else (List.range (ceilDiv (n * vb) 256)).map (fun m =>
        let a := rowAcc x (readAt o u (m * 256 / vb)) (base + 32 * m) (min 32 (ceilDiv (n * vb - 256 * m) 8)) false
        { a with ok := a.ok && base % 32 == 0 })
    data ++ (if o.f.scaled then [rowAcc x x.t (o.saddr + 8 * u.k) (ceilDiv n 8) false] else []))

/-- R211, R212, R219: the accesses of `vx.ld` and `vx.st`. -/
def ldAccs (x : Issue) (store : Bool) (f : LdF) : List Acc :=
  let a := x.core.addr f.areg
  let st := x.core.stride f.areg
  let t := if store then x.t + 1 else x.t
  if 2 ≤ f.size then
    let n := ldBytes f.size / 8
    let r := rowAcc x t a n store
    [{ r with ok := r.ok && a % n == 0 }]
  else (List.range (if f.size == 0 then 2 else 1)).map (fun k =>
    if f.rmode == 1 then groupAcc x t (a + 32 * st * k) st k
    else if f.rmode == 2 then colAcc x t (a + k) 1 true
    else rowAcc x t (a + 32 * k) 32 store)

/-- R161: the accesses of `sp.mov`. -/
def movAccs (x : Issue) (sreg rmode dreg : Nat) : List Acc :=
  let a := x.core.addr sreg
  [if rmode == 1 then groupAcc x x.t a (x.core.stride sreg) 2
    else if rmode == 2 then colAcc x x.t a 1 true else rowAcc x x.t a 32 false,
   rowAcc x (x.t + 8) (x.core.addr dreg) 32 true]

/-- R152: the scratchpad accesses of an operation. -/
def opAccs (x : Issue) : SlotOp → List Acc
  | .pass f => matAccs x (matAt x true f)
  | .lds f => matAccs x (matAt x false f)
  | .ld f => ldAccs x false f
  | .st f => ldAccs x true f
  | .mov s r d => movAccs x s r d
  | .fill d _ => [rowAcc x (x.t + 1) (x.core.addr d) 32 true]
  | _ => []

/-- An arm as the verifier sees it: its issue, bundle and plan cycle, slot, descriptor, plan deadline, and where a stash
descriptor lies relative to the item's start (R281). -/
structure VArm where
  n : Nat
  i : Nat
  t : Nat
  slot : Nat
  d : Desc
  pdl : Nat
  at_ : Int
  deriving DecidableEq, Repr

/-- R162, R163: the arms of an issue. -/
def armsOf (descs : List (List Byte)) (x : Issue) : List VArm :=
  x.b.ops.filterMap (fun o => match o with
    | .arm _ f =>
      let d := descOf (nth descs f.entry []) f.entry (x.core.addr f.breg)
      some ⟨x.n, x.i, x.t, f.slot, d, x.t + d.deadline, 0⟩
    | _ => none)

/-- R281: places the stash descriptors of an item's core one after another, from a running sum. -/
def placeStash : List VArm → Int → List VArm × Int
  | [], c => ([], c)
  | a :: r, c =>
    if a.d.far == 4 then
      let c2 : Int := if a.d.kind == 2 then c + a.d.bytes else c - a.d.bytes
      let q := placeStash r c2
      ({ a with at_ := min c c2 } :: q.1, q.2)
    else
      let q := placeStash r c
      (a :: q.1, q.2)

/-- Whether a descriptor's near side covers a scratchpad word. -/
def VArm.covers (a : VArm) (w : Nat) : Bool :=
  a.d.runs.any (fun r => decide (r.2.1 ≤ 8 * w) && decide (8 * w < r.2.1 + a.d.n0))

/-- R268: whether a cycle lies between a descriptor's acceptance and its plan deadline. -/
def VArm.inWindow (a : VArm) (t : Nat) : Bool := decide (a.t < t) && decide (t < a.pdl)

/-- The far bytes of a descriptor, run by run, as half-open intervals; CORE and LINK descriptors have none of their own. -/
def VArm.farRuns (a : VArm) : List (Int × Int) :=
  if a.d.far < 2 then a.d.runs.map (fun r => ((r.1 : Int), (r.1 : Int) + a.d.n0))
  else if a.d.far == 4 then [(a.at_, a.at_ + a.d.bytes)] else []

/-- Whether two descriptors touch one far byte and at least one of them writes it (R247, R266). -/
def VArm.clash (a b : VArm) : Bool :=
  a.d.far == b.d.far && !(a.d.inbound && b.d.inbound)
    && a.farRuns.any (fun x => b.farRuns.any (fun y => decide (x.1 < y.2) && decide (y.1 < x.2)))

/-- R234 to R236: a quarter gated at an issue, and the issue and cycle of the ungate that follows. -/
structure VGate where
  n : Nat
  i : Nat
  t : Nat
  q : Nat
  end_ : Option (Nat × Nat)
  deriving DecidableEq, Repr

/-- Whether an issue ungates a quarter. -/
def ungates (q : Nat) (x : Issue) : Bool := x.b.ops.any (fun o => match o with
  | .ungate m => bit m q
  | _ => false)

/-- R236: the gates of a segment. -/
def gatesOf (xs : List Issue) : List VGate :=
  xs.flatMap (fun x => x.b.ops.flatMap (fun o => match o with
    | .gate m => (bitsSet m 16).map (fun q =>
        ⟨x.n, x.i, x.t, q, (xs.find? (fun y => decide (x.n < y.n) && ungates q y)).map (fun y => (y.n, y.t))⟩)
    | _ => []))

/-- R236: whether a cycle lies between a gate and the end of its power-up. -/
def VGate.shut (g : VGate) (t : Nat) : Bool := decide (g.t < t) && !g.end_.any (fun e => decide (e.2 + 32 ≤ t))

/-- The timeline of a core's segment: its issues, accesses, arms, gates, the tiles of the stash region and the last
cycle. -/
structure Timeline where
  issues : List Issue
  accs : List Acc
  arms : List VArm
  gates : List VGate
  stash : Nat
  last : Nat
  deriving DecidableEq, Repr

/-- R21, R155, R211, R219 to R221: accesses with a wrong address. -/
def addressFails (l : Timeline) : List VFail := (l.accs.filter (fun a => !a.ok)).map (fun a => vfAt vfAddress a.i a.t)

/-- R152: cycles with more than 4 reads or 2 writes. -/
def portFails (l : Timeline) : List VFail :=
  (l.accs.filter (fun a =>
    let same := l.accs.filter (fun b => b.t == a.t && b.write == a.write && decide (b.n ≤ a.n))
    if a.write then decide (2 < same.length) else decide (4 < (same.map (·.key)).eraseDups.length))).map
      (fun a => vfAt vfPort a.i a.t)

/-- R235: the cycle of the last power-up that made a quarter's words unwritten, up to a cycle. -/
def clearedBefore (l : Timeline) (q t : Nat) : Option Nat :=
  ((l.gates.filterMap (fun g => if g.q == q then g.end_.map (·.2) else none)).filter (· ≤ t)).max?

/-- R225, R230, R235, R268: whether a write has landed on a word before a read in cycle t: a plan write in an earlier cycle, or an
inbound descriptor whose plan deadline has come. -/
def landedBefore (l : Timeline) (w t : Nat) : Bool :=
  let from_ := clearedBefore l (quarterOf (8 * w)) t
  let fresh (k : Nat) : Bool := !from_.any (fun c => decide (k ≤ c))
  l.accs.any (fun a => a.write && decide (a.t < t) && fresh a.t && a.ws.contains w)
    || l.arms.any (fun a => a.d.inbound && decide (a.pdl ≤ t) && fresh a.pdl && a.covers w)

/-- R179, R225, R230, R268: what is wrong with a plan read of a word: it lies in an inbound descriptor's window, or nothing has
been written there yet. DEDUCED (log entry 23): a write to the word that is still in flight does not count, so a read that any
earlier write has reached is not refused. -/
def readFail (l : Timeline) (a : Acc) (w : Nat) : Option Nat :=
  if l.arms.any (fun x => x.d.inbound && x.inWindow a.t && x.covers w) then some vfDeadline
  else if (1536 - l.stash) * 1024 ≤ w || landedBefore l w a.t then none else some vfBuffer

/-- R179, R225, R228: what is wrong with a plan write of a word; the number is its place among the accesses. -/
def writeFail (l : Timeline) (a : Acc) (k w : Nat) : Option Nat :=
  if l.arms.any (fun x => x.inWindow a.t && x.covers w) then some vfDeadline
  else if l.accs.any (fun r => !r.write && decide (r.n ≤ a.n) && decide (a.t < r.t) && r.ws.contains w) then some vfBuffer
  else if (l.accs.take k).any (fun r => r.write && r.t == a.t && r.ws.contains w) then some vfBuffer else none

/-- R179 BUFFER and DEADLINE: plan accesses to words that are not ready or not free. -/
def wordFails (l : Timeline) : List VFail :=
  l.accs.zipIdx.filterMap (fun x =>
    (x.1.ws.findSome? (fun w => if x.1.write then writeFail l x.1 x.2 w else readFail l x.1 w)).map
      (fun d => vfAt d x.1.i x.1.t))

/-- R236: accesses and descriptors that meet a gate, and quarters that are not usable again at `ct.end`. -/
def gateFails (l : Timeline) : List VFail :=
  (if l.issues.any (fun x => decide (l.last < x.t + 32) && (List.range 16).any (fun q => ungates q x)) then
    [vfAt vfGate ((l.issues.getLast?.map (·.i)).getD 0) l.last] else [])
  ++ l.gates.flatMap (fun g =>
    (l.accs.filter (fun a => g.shut a.t && a.ws.any (fun w => quarterOf (8 * w) == g.q))).map (fun a => vfAt vfGate a.i a.t)
    ++ (l.arms.filter (fun a => a.d.quarters.contains g.q)).filterMap (fun a =>
        if a.t < g.t then (if g.t ≤ max (a.t + 1) (a.pdl - 1) then some (vfAt vfGate g.i g.t) else none)
        else if g.shut (a.t + 1) then some (vfAt vfGate a.i (a.t + 1)) else none)
    ++ (if 1536 - l.stash < 96 * (g.q + 1) && l.stash != 0 then [vfAt vfGate g.i g.t] else [])
    ++ (if g.end_.any (fun e => decide (e.2 + 32 ≤ l.last)) then []
      else [vfAt vfGate ((l.issues.getLast?.map (·.i)).getD 0) l.last]))

/-- R258: the near addresses of a descriptor, exactly. -/
def nearOk (d : Desc) : Bool :=
  let r := strideSpan d d.ss1 d.ss2 d.ss3
  d.spByte % 32 == 0 && decide (0 ≤ (d.spByte : Int) + r.1) && decide ((d.spByte : Int) + r.2 + d.n0 ≤ 1536 * 8192)

/-- R258, R179 LOT: whether every HBM byte lies in a declared slot that holds no plan storage. DESIGN CHOICE (log entry 67): a
slot holds plan storage when a loaded plan is stored in it; the slots that the PLAN_LOAD itself names do not yet. -/
def farLotsOk (x : Parcel) (im : List Byte) (d : Desc) : Bool :=
  d.far != 0 || (List.range 1024).all (fun j =>
    !d.runs.any (fun r => decide (r.1 < (j + 1) * 2 ^ 30) && decide (j * 2 ^ 30 < r.1 + d.n0))
      || ((bit (imgLotW im) j || bit (imgLotA im) j) && !(tblGet x.lots j).any (·.plan)))

/-- R239, R258: whether a die-store descriptor names a logical die and granule that the plan has. -/
def farGranuleOk (x : Parcel) (im : List Byte) (d : Desc) : Bool :=
  d.far != 1 || (decide (bits d.farAddr 34 32 < (logicalDies x).length) && decide (bits d.farAddr 27 24 < imgGranScratch im))

/-- R247, R258, R271, R281: what is wrong with an arm, given the arms before it and the stash area; an arm is pending until its
own plan deadline and those of the slot's earlier arms have come, so a third one must wait for all but the last. -/
def armFail (x : Parcel) (im : List Byte) (area : Nat) (before : List VArm) (a : VArm) : List VFail :=
  let f (ok : Bool) (detail : Nat) : List VFail := if ok then [] else [vfAt detail a.i a.t]
  f (nearOk a.d) vfAddress ++ f (farLotsOk x im a.d) vfLot ++ f (farGranuleOk x im a.d) vfAddress
    ++ f (a.d.kind != 2 || decide (a.at_ + a.d.bytes ≤ area)) vfStash
    ++ f ((before.filter (fun b => b.slot == a.slot)).dropLast.all (fun b => decide (b.pdl ≤ a.t))) vfArm
    ++ f (!before.any (fun b => decide (a.t < b.pdl) && a.clash b)) vfDeadline

/-- The failures of the arms of a segment. -/
def armFails (x : Parcel) (im : List Byte) (area : Nat) (l : Timeline) : List VFail :=
  l.arms.zipIdx.flatMap (fun a => armFail x im area (l.arms.take a.2) a.1)

/-- The register reads of an issue. -/
def Issue.regReads (x : Issue) : List RegBytes := x.b.ops.flatMap (fun o => (regUse o).1)

/-- The register writes of an issue, with the cycle from which each is available. -/
def Issue.regWrites (x : Issue) : List (RegBytes × Nat) :=
  x.b.ops.flatMap (fun o => let u := regUse o; u.2.1.map (fun r => (r, x.t + u.2.2)))

/-- R213: the register hazards of a segment. -/
def regFails (xs : List Issue) : List VFail :=
  xs.filterMap (fun x =>
    let before := (xs.filter (fun y => decide (y.n < x.n))).flatMap Issue.regWrites
    let late := x.regReads.any (fun r => before.any (fun (w : RegBytes × Nat) =>
      w.1.1 == r.1 && decide (w.1.2.1 < r.2.2) && decide (r.2.1 < w.1.2.2) && decide (x.t < w.2)))
    let order := x.regWrites.any (fun (r : RegBytes × Nat) => before.any (fun (w : RegBytes × Nat) =>
      w.1.1 == r.1.1 && decide (r.2 ≤ w.2)))
    if late || order then some (vfAt vfBuffer x.i x.t) else none)

/-- R206: the largest PART, and whether SR and NSAT are allowed, of a conversion; none for a combination that is not
one. -/
def cvtRule (width sf tf : Nat) (acc : Bool) : Option (Nat × Bool × Bool) :=
  let small (x : Nat) : Bool := x == 3 || x == 4 || x == 5 || x == 6
  if width == 0 then
    if sf == 0 && (tf == 1 || tf == 2) then some (1, true, true)
    else if sf == 0 && (tf == 3 || tf == 5) then some (3, true, false)
    else if sf == 0 && tf == 4 then some (3, true, true)
    else if sf == 0 && tf == 6 then some (3, false, false)
    else if (sf == 1 || sf == 2) && tf == 0 then some (1, false, false)
    else if small sf && tf == 0 then some (3, false, false)
    else if sf == 7 && tf == 0 && acc then some (0, false, false) else none
  else if sf == 1 && (tf == 3 || tf == 5) then some (1, true, false)
  else if sf == 1 && tf == 4 then some (1, true, true)
  else if sf == 1 && tf == 6 then some (1, false, false)
  else if small sf && tf == 1 then some (1, false, false) else none

/-- R206, R208, R209: whether the formats of a vector operation are allowed. -/
def formatsOk (op : VOp) (f : VecF) : Bool :=
  match op with
  | .cvt => (cvtRule f.width f.sf f.tf f.acc).any (fun r => decide (f.part ≤ r.1) && (r.2.1 || !f.sr) && (r.2.2 || !f.nsat))
  | .qmx => (partBytes f.tf).isSome
  | .dqmx => (partBytes f.sf).isSome
  | _ => true

/-- R179 FORMAT of a vector operation by itself. -/
def formatFails (xs : List Issue) : List VFail :=
  (xs.filter (fun x => x.b.ops.any (fun o => match o with
    | .vec op f => !formatsOk op f
    | _ => false))).map (fun x => vfAt vfNumber x.i x.t)

end Sys2Proof.Machine
end

