-- ==== Sys2Proof/Machine/VerifyMat.lean ====
section
/-! DEFINITION. The plan verifier's view of the matrix arrays (03 R106 to R111, R117, R121, R122, R125, R130, R132, 05
R195, R196). -/

namespace Sys2Proof.Machine

/-- A pass or load at an issue. -/
abbrev MatEv := Issue × MatOp

/-- The passes and loads of a segment. -/
def matsOf (xs : List Issue) : List MatEv :=
  xs.flatMap (fun x => x.b.ops.filterMap (fun o => match o with
    | .pass f => some (x, matAt x true f)
    | .lds f => some (x, matAt x false f)
    | _ => none))

/-- R121: the last local row or column of an operation. -/
def lastLocal (o : MatOp) : Nat := if o.f.qset == 0 then 31 else 15

/-- R158: the cycle in which a pass or load reaches its array. -/
def reachAt (o : MatOp) : Nat := if o.isPass then o.issue + 8 else o.issue + 9

/-- R103: the cycle after the last in which a pass occupies column 0. -/
def columnEnd (o : MatOp) : Nat :=
  entryAt o o.f.nvec + (if o.f.fmt == 4 || o.f.fmt == 5 then 2 else 1)

/-- R105, R112, R121: the last cycle in which an operation writes an accumulator word or a shadow register. -/
def lastWrite (o : MatOp) : Nat :=
  if o.isPass then entryAt o o.f.nvec + lastLocal o + mulDelay o.f.fmt else o.issue + 9 + 2 * lastLocal o

/-- R120: the quadrants that an operation works on. -/
def lanesOf (o : MatOp) : List Nat := if o.f.qset == 0 then [0, 1, 2, 3] else bitsSet o.f.qset 4

/-- Whether two operations work on a common part of one array. -/
def shareLane (a b : MatOp) : Bool := a.f.array == b.f.array && (lanesOf a).any (fun q => (lanesOf b).contains q)

/-- R106, R121: passes that occupy an entry column together. -/
def columnFails (ms : List MatEv) : List VFail :=
  let ps := ms.filter (·.2.isPass)
  (ps.filter (fun b => ps.any (fun a =>
    decide (a.1.n < b.1.n) && shareLane a.2 b.2 && decide (b.2.issue + 8 < columnEnd a.2)
      && decide (a.2.issue + 8 < columnEnd b.2)))).map
    (fun b => vfAt vfColumn b.1.i (b.2.issue + 8))

/-- R105 to R109, R121, R122: the write of one accumulator row, or of half of one by a quadrant: its array, bank and row,
the halves, the cycle of its first word and that in which it is ready, and whether it holds INT32 and adds. -/
structure RowW where
  n : Nat
  i : Nat
  place : Nat × Nat × Nat
  halves : List Nat
  start : Nat
  ready : Nat
  int : Bool
  add : Bool
  deriving DecidableEq, Repr

/-- R108: whether the rows of a pass lie where they may. -/
def rowsOk (f : MatF) : Bool := decide (f.row + f.nvec < 32) || (decide (32 ≤ f.nvec) && f.row == 0)

/-- R105, R108, R122: the row writes of a pass. -/
def rowWrites (m : MatEv) : List RowW :=
  let o := m.2
  if !o.isPass || !rowsOk o.f then []
  else (unitsOf o.f.qset).flatMap (fun u => (List.range (o.f.nvec + 1)).map (fun i =>
    let s := entryAt o i + mulDelay o.f.fmt
    ⟨m.1.n, m.1.i, (o.f.array, if i < 32 then o.f.bank else 1 - o.f.bank, if i < 32 then o.f.row + i else i - 32),
      if u.w == 32 then [0, 1] else [u.cb / 16], s, s + u.w - 1, o.f.fmt == 3, o.f.add⟩))

/-- Whether two row writes share a word. -/
def RowW.meets (a b : RowW) : Bool := a.place == b.place && a.halves.any (fun h => b.halves.contains h)

/-- R109: the last writer, in time, of half a row before a cycle. -/
def lastRow (ws : List RowW) (place : Nat × Nat × Nat) (h t : Nat) : Option RowW :=
  ((ws.filter (fun w => w.place == place && w.halves.contains h && decide (w.start < t))).foldl
    (fun (a : Option RowW) w => match a with
      | some b => if b.start ≤ w.start then some w else some b
      | none => some w) none)

/-- R108: passes whose rows run past the bank. -/
def rowFails (ms : List MatEv) : List VFail :=
  (ms.filter (fun m => m.2.isPass && !rowsOk m.2.f)).map (fun m => vfAt vfAccumulator m.1.i m.1.t)

/-- R109, R122: row writes that add to words of the other class, or meet another write in one cycle. -/
def writeRowFails (ws : List RowW) : List VFail :=
  ws.zipIdx.flatMap (fun x =>
    let w := x.1
    (if w.add && w.halves.any (fun h => (lastRow ws w.place h w.start).any (fun v => v.int != w.int)) then
      [vfAt vfNumber w.i w.start] else [])
    ++ (if (ws.take x.2).any (fun v => v.start == w.start && v.meets w) then [vfAt vfAccumulator w.i w.start] else []))

/-- R195: the rows that a vector operation reads as operand A. -/
def accRows (f : VecF) : List (Nat × Nat × Nat) :=
  if f.acc then (List.range 4).map (fun j => (f.array, f.bank, 4 * f.rq + j)) else []

/-- R196: whether a vector operation may read a word of a class as operand A. -/
def accClassOk (op : VOp) (f : VecF) (w : Option RowW) : Bool :=
  match op with
  | .mov => true
  | .cvt => if f.sf == 7 then w.any (·.int) else !w.any (·.int)
  | _ => !w.any (·.int)

/-- R111, R196: accumulator reads of rows that are being written, or of words of the wrong class. -/
def accReadFails (xs : List Issue) (ws : List RowW) : List VFail :=
  xs.flatMap (fun x => x.b.ops.flatMap (fun o => match o with
    | .vec op f =>
      let rows := accRows f
      (if rows.any (fun r => ws.any (fun w => w.place == r && decide (w.start < x.t) && decide (x.t ≤ w.ready))) then
        [vfAt vfAccumulator x.i x.t] else [])
      ++ (if rows.any (fun r => [0, 1].any (fun h => !accClassOk op f (lastRow ws r h x.t))) then
        [vfAt vfNumber x.i x.t] else [])
    | _ => []))

/-- R130, R132: a power-up that begins or a rest that takes effect: its bundle, array and cycle. -/
structure PowEv where
  i : Nat
  array : Nat
  t : Nat
  wake : Bool
  deriving DecidableEq, Repr

/-- R130, R158: the power events of a segment. -/
def powEvents (xs : List Issue) : List PowEv :=
  xs.flatMap (fun x => x.b.ops.flatMap (fun o => match o with
    | .wake m => (bitsSet m 12).mapIdx (fun k a => ⟨x.i, a, x.t + 8 * k, true⟩)
    | .rest m => (bitsSet m 12).map (fun a => ⟨x.i, a, x.t + 8, false⟩)
    | _ => []))

/-- The last power event of an array before a cycle. -/
def lastPow (es : List PowEv) (a t : Nat) : Option PowEv :=
  (es.filter (fun e => e.array == a && decide (e.t < t))).foldl (fun (l : Option PowEv) e => match l with
    | some b => if b.t ≤ e.t then some e else some b
    | none => some e) none

/-- R129, R130: whether an array is AWAKE in a cycle, by the events before it. -/
def awakeAt (es : List PowEv) (a t : Nat) : Bool := (lastPow es a t).any (fun e => e.wake && decide (e.t + 16 ≤ t))

/-- R130: what is wrong with a power-up. -/
def wakeFail (fill : Nat) (es : List PowEv) (k : Nat) (e : PowEv) : Bool :=
  es.zipIdx.any (fun x => x.1.wake && x.2 != k && (decide (x.1.t < e.t) || (x.1.t == e.t && decide (x.2 < k)))
      && decide (e.t < x.1.t + 8))
    || (lastPow es e.array e.t).any (fun b => b.wake)
    || es.any (fun b => !b.wake && b.array == e.array && decide (b.t ≤ e.t) && decide (e.t < b.t + fill))

/-- R132: what is wrong with a rest. -/
def restFail (es : List PowEv) (ms : List MatEv) (e : PowEv) : Bool :=
  !awakeAt es e.array e.t || ms.any (fun m => m.2.f.array == e.array && decide (reachAt m.2 < e.t) && decide (e.t ≤ lastWrite m.2))

/-- R132: the first idle stretch of IDLE_FILL_MAX cycles in an awake interval, with the occupations of column 0 in order;
the result is the cycle that ends it. -/
def idleFrom (fill stop : Nat) : List (Nat × Nat) → Nat → Option Nat
  | [], pos => if pos + fill ≤ stop then some (pos + fill) else none
  | o :: r, pos =>
    if stop ≤ o.1 || o.2 ≤ pos then idleFrom fill stop r pos
    else if pos + fill ≤ o.1 then some (pos + fill)
    else idleFrom fill stop r o.2

/-- R132: idle stretches of an array; a failure names the bundle that woke it. -/
def idleFails (fill last : Nat) (es : List PowEv) (ms : List MatEv) : List VFail :=
  (es.filter (·.wake)).filterMap (fun e =>
    let rests := (es.filter (fun b => !b.wake && b.array == e.array && decide (e.t < b.t))).map (·.t)
    let stop := rests.foldl min (last + 1)
    let occ := sortBy (fun (x y : Nat × Nat) => decide (x.1 < y.1))
      ((ms.filter (fun m => m.2.isPass && m.2.f.array == e.array)).map (fun m => (m.2.issue + 8, columnEnd m.2)))
    (idleFrom fill stop occ (e.t + 16)).map (fun t => vfAt vfPower e.i t))

/-- R130, R132: a mode change that reaches an array: issue, bundle, array, cycle, quarter mode. -/
structure ModeEv where
  n : Nat
  i : Nat
  array : Nat
  t : Nat
  quarter : Bool
  deriving DecidableEq, Repr

/-- R158: the mode changes of a segment. -/
def modeEvents (xs : List Issue) : List ModeEv :=
  xs.flatMap (fun x => x.b.ops.filterMap (fun o => match o with
    | .mode a q => some ⟨x.n, x.i, a, x.t + 8, q⟩
    | _ => none))

/-- R130, R132: the failures of POWER. -/
def powerFails (fill last : Nat) (es : List PowEv) (ms : List MatEv) (md : List ModeEv) : List VFail :=
  es.zipIdx.filterMap (fun x =>
    let bad := if x.1.wake then wakeFail fill es x.2 x.1 else restFail es ms x.1
    if bad then some (vfAt vfPower x.1.i x.1.t) else none)
  ++ (ms.filter (fun m => !awakeAt es m.2.f.array (reachAt m.2) || es.any (fun e => !e.wake && e.array == m.2.f.array
        && e.t == reachAt m.2))).map (fun m => vfAt vfPower m.1.i (reachAt m.2))
  ++ (md.filter (fun m => !awakeAt es m.array m.t || es.any (fun e => !e.wake && e.array == m.array && e.t == m.t))).map
      (fun m => vfAt vfPower m.i m.t)
  ++ idleFails fill last es ms

/-- R119: whether an array is in quarter mode in a cycle. -/
def quarterAt (md : List ModeEv) (a t : Nat) : Bool :=
  ((md.filter (fun m => m.array == a && decide (m.t ≤ t))).foldl (fun (l : Option ModeEv) m => match l with
    | some b => if b.t ≤ m.t then some m else some b
    | none => some m) none).any (·.quarter)

/-- R125, R179 MODE: mode changes that come too early, and operations whose QSET or QREG does not fit the mode. -/
def modeFails (ms : List MatEv) (md : List ModeEv) : List VFail :=
  (md.filter (fun m => ms.any (fun e => e.2.f.array == m.array && decide (reachAt e.2 < m.t) && decide (m.t ≤ lastWrite e.2)))).map
    (fun m => vfAt vfMode m.i m.t)
  ++ (ms.filter (fun m =>
      if quarterAt md m.2.f.array (reachAt m.2) then m.2.f.qset == 0 else m.2.f.qset != 0 || m.2.f.qreg != 0)).map
    (fun m => vfAt vfMode m.1.i m.1.t)

/-- R62: the formats that pair with one another. -/
def fmtClass (fmt : Nat) : Nat := if fmt == 1 then 0 else fmt

/-- R117: what the verifier follows of one quadrant, or of a full array through each of its quadrants: the load that its
shadow holds (l0, format), whether the load has been consumed, and the active format. -/
structure ShadowV where
  load : Option (Nat × Nat) := none
  active : Option Nat := none
  deriving DecidableEq, Repr

/-- An event at one quadrant: cycle, order within a cycle (R116), and a pass or load, or none for a mode change. -/
abbrev ShadowEv := Nat × Nat × Option MatEv

/-- R117, R121: one event at a quadrant: the failures, and what the verifier holds after it. -/
def shadowEvent (v : ShadowV) (e : ShadowEv) : List VFail × ShadowV :=
  match e.2.2 with
  | none => ([], {})
  | some (x, o) =>
    let w := lastLocal o + 1
    if !o.isPass then
      (if v.load.isSome then [vfAt vfShadow x.i e.1] else [], { v with load := some (e.1, o.f.fmt) })
    else if o.f.swap then
      let act := v.load.map (·.2)
      let bad := !v.load.any (fun l => decide (l.1 + w ≤ e.1))
      ((if bad then [vfAt vfShadow x.i e.1] else [])
        ++ (if act.any (fun a => fmtClass a != fmtClass o.f.fmt) then [vfAt vfNumber x.i e.1] else []),
        { load := none, active := act })
    else
      ((if v.active.isNone then [vfAt vfShadow x.i e.1] else [])
        ++ (if v.active.any (fun a => fmtClass a != fmtClass o.f.fmt) then [vfAt vfNumber x.i e.1] else []), v)

/-- R117: follows a quadrant through its events. -/
def shadowWalk : List ShadowEv → ShadowV → List VFail
  | [], _ => []
  | e :: r, v => let a := shadowEvent v e; a.1 ++ shadowWalk r a.2

/-- R117, R121: the failures of SHADOW, and of FORMAT by its case 5. -/
def shadowFails (ms : List MatEv) (md : List ModeEv) : List VFail :=
  (List.range 12).flatMap (fun a => (List.range 4).flatMap (fun q =>
    let ops := (ms.filter (fun m => m.2.f.array == a && (lanesOf m.2).contains q)).map (fun m =>
      ((reachAt m.2, if m.2.isPass then 1 else 2, some m) : ShadowEv))
    let modes := (md.filter (fun m => m.array == a)).map (fun m => ((m.t, 0, none) : ShadowEv))
    shadowWalk (sortBy (fun (x y : ShadowEv) => decide (x.1 < y.1) || (x.1 == y.1 && decide (x.2.1 < y.2.1))) (modes ++ ops)) {}))

/-- The failures that concern the matrix arrays. -/
def matrixFails (fill last : Nat) (xs : List Issue) : List VFail :=
  let ms := matsOf xs
  let md := modeEvents xs
  let ws := ms.flatMap rowWrites
  columnFails ms ++ rowFails ms ++ writeRowFails ws ++ accReadFails xs ws ++ powerFails fill last (powEvents xs) ms md
    ++ modeFails ms md ++ shadowFails ms md

end Sys2Proof.Machine
end

