-- ==== Sys2Proof/Machine/VerifyRun.lean ====
section
/-! DEFINITION. The plan verifier's fourth step (04 R177): each core of a segment, then the checks across its cores (07
R266, R272, R274), the bounds table (R186) and the frame (R45). -/

namespace Sys2Proof.Machine

/-- The earlier of two failures: by cycle, then by bundle. -/
def earlierV (a : Option VFail) (b : VFail) : Option VFail :=
  match a with
  | none => some b
  | some x => if b.cycle < x.cycle || (b.cycle == x.cycle && decide (b.bundle < x.bundle)) then some b else some x

/-- R177: the first failure in ascending plan cycle. -/
def firstV (l : List VFail) : Option VFail := l.foldl earlierV none

/-- R175: whether `ct.end` issues too early, given the latest effect of the bundles before its own and the latest plan
deadline. -/
def endFails (l : Timeline) : List VFail :=
  let n := l.issues.length - 1
  let acc := ((matsOf l.issues).filter (fun m => m.2.isPass && decide (m.1.n < n))).map (fun m => lastWrite m.2)
  let sp := (l.accs.filter (fun a => a.write && decide (a.n < n))).map (·.t)
  let vx := (l.issues.filter (fun x => decide (x.n < n))).flatMap (fun x => x.regWrites.map (fun w => w.2 - 1))
  let bad := (acc ++ sp ++ vx).any (fun t => decide (l.last ≤ t)) || l.arms.any (fun a => decide (l.last < a.pdl))
  if bad then [vfAt vfEnd ((l.issues.getLast?.map (·.i)).getD 0) l.last] else []

/-- R177 step 4: expands a core's segment (R142 to R147), with the running stash sum before it. -/
def timelineOf (c : SegCode) (stash : Nat) (sum : Int) : Timeline × Int :=
  let xs := issueList (allIssues c.code) 0 0 c.aregs
  let q := placeStash (xs.flatMap (armsOf c.descs)) sum
  (⟨xs, xs.flatMap (fun x => x.b.ops.flatMap (opAccs x)), q.1, gatesOf xs, stash, (xs.getLast?.map (·.t)).getD 0⟩, q.2)

/-- R177 step 4: the first failure of a core's own timing. -/
def timingFail (x : Parcel) (im : List Byte) (area : Nat) (l : Timeline) : Option VFail :=
  firstV (addressFails l ++ portFails l ++ wordFails l ++ gateFails l ++ armFails x im area l ++ regFails l.issues
    ++ formatFails l.issues ++ matrixFails (imgIdleFill im) l.last l.issues ++ endFails l)

/-- What the verifier keeps of a core's segment for the checks across cores: its logical core, its arms, its last plan
cycle. -/
structure CoreRun where
  lc : Nat
  arms : List VArm
  last : Nat
  deriving DecidableEq, Repr

/-- R177 step 4: the cores of a segment in ascending logical core: the first failure, or what each leaves and the running
stash sums. -/
def coresRun (x : Parcel) (v : Plan) (seg : Nat) : List Nat → Tbl Int → Except VFail (List CoreRun × Tbl Int)
  | [], sums => .ok ([], sums)
  | lc :: r, sums =>
    let area := ((stashArea x v lc).map (fun a => a.2.1)).getD 0
    match decodeSegment v.image lc seg area with
    | .error e => .error e
    | .ok c =>
      let q := timelineOf c (imgStashSp v.image / 8192) ((tblGet sums lc).getD 0)
      match timingFail x v.image area q.1 with
      | some f => .error { f with core := lc, seg := seg }
      | none =>
        match coresRun x v seg r (tblPut sums lc q.2) with
        | .error e => .error e
        | .ok y => .ok (⟨lc, q.1.arms, q.1.last⟩ :: y.1, y.2)

/-- R272: the CORE descriptors of a core with one partner, direction and tag, in order of acceptance. -/
def pairList (cs : List CoreRun) (lc partner tag : Nat) (inbound : Bool) : List VArm :=
  (cs.filter (fun c => c.lc == lc)).flatMap (fun c => c.arms.filter (fun a =>
    a.d.far == 2 && a.d.partner == partner && a.d.tag == tag && a.d.inbound == inbound))

/-- R274: whether the k-th descriptor of its kind has a partner that fits it. -/
def pairOk (cs : List CoreRun) (lc : Nat) (a : VArm) : Bool :=
  let mine := pairList cs lc a.d.partner a.d.tag a.d.inbound
  let other := pairList cs a.d.partner lc a.d.tag (!a.d.inbound)
  match other[(mine.findIdx? (fun b => b.n == a.n)).getD 0]? with
  | some b => b.d.bytes == a.d.bytes && decide (a.t < b.pdl)
  | none => false

/-- R272, R274: the failures of STREAM_WAIT. -/
def pairFails (seg : Nat) (cs : List CoreRun) : List VFail :=
  cs.flatMap (fun c => (c.arms.filter (fun a => a.d.far == 2 && !pairOk cs c.lc a)).map (fun a =>
    { detail := vfStreamWait, core := c.lc, seg := seg, bundle := a.i, cycle := a.t }))

/-- R266: descriptors of different cores that touch one HBM or die-store byte; the later arm is named. -/
def sharedFails (seg : Nat) (cs : List CoreRun) : List VFail :=
  cs.flatMap (fun c => cs.flatMap (fun e => if c.lc == e.lc then [] else
    (c.arms.filter (fun a => decide (a.d.far < 2) && e.arms.any (fun b =>
      (decide (b.t < a.t) || (b.t == a.t && decide (e.lc < c.lc))) && a.clash b))).map (fun a =>
        { detail := vfDeadline, core := c.lc, seg := seg, bundle := a.i, cycle := a.t })))

/-- R186, R281: the bytes that the arms of a segment move of one kind. -/
def moved (cs : List CoreRun) (p : Desc → Bool) : Nat :=
  ((cs.flatMap (fun c => c.arms)).map (fun a => if p a.d then a.d.bytes else 0)).foldl (· + ·) 0

/-- R45, R147, R179, R186: the checks of a segment's bounds and of its place in the frame. -/
def boundsFail (im : List Byte) (period seg : Nat) (cs : List CoreRun) : Option VFail :=
  let b := imgBounds im + 64 * seg
  let f (d : Nat) : VFail := { detail := d, seg := seg }
  firstFail [(imgL im seg == (cs.map (·.last)).foldl max 0 + 1, f vfBounds),
    (decide (moved cs (fun d => d.far == 0 && d.inbound) ≤ le im (b + 8) 8), f vfBounds),
    (decide (moved cs (fun d => d.far == 0 && !d.inbound) ≤ le im (b + 16) 8), f vfBounds),
    (decide (moved cs (fun d => d.far == 3) ≤ le im (b + 24) 8), f vfBounds),
    (decide (moved cs (fun d => d.far == 4 && !d.inbound) ≤ le im (b + 32) 4), f vfBounds),
    (decide (moved cs (fun d => d.far == 4 && d.inbound) ≤ le im (b + 36) 4), f vfBounds),
    (decide (1024 + imgL im seg + imgH im seg ≤ period), f vfFrame)]

/-- R177 step 4: the bundles and descriptors of one segment; `sums` and the result are what the segments before it, and
this one, leave on the cores. -/
def segmentFail (s : State) (p t : Nat) (im : List Byte) (seg : Nat) (sums : Tbl Int) : Except VFail (Tbl Int) :=
  let x := s.parcel p
  let v : Plan := ⟨t, imgItem im, imgClassMin im, imgClassMax im, imgUnit im, imgFlags im, imgSegments im, imgSeed im, 0, 0, 0,
    im, []⟩
  match coresRun x v seg (sortBy (fun a b => decide (a < b)) ((imgIndexList im).map (·.1))) sums with
  | .error e => .error e
  | .ok y =>
    match firstV (pairFails seg y.1 ++ sharedFails seg y.1) with
    | some e => .error e
    | none => match boundsFail v.image s.time.period seg y.1 with
      | some e => .error e
      | none => .ok y.2

end Sys2Proof.Machine
end

