-- ==== Sys2Proof/Machine/ZmiData.lean ====
section
/-! DEFINITION. Plans, weights and tensors (04 R177 to R190, 08 R303, 12 R443 to R446, 13 R483), and deeds (12 R454 to
R458). -/

namespace Sys2Proof.Machine

/-- The lot slots that n bytes from a parcel-virtual address touch. -/
def slotsIn (a n : Nat) : List Nat := regionSlots (a, n)

/-- R22, R290, R398: whether every slot of a range has a lot of the tenancy; of an empty range, the slot that its address
names. -/
def rangeHeld (x : Parcel) (t a n : Nat) : Bool :=
  decide (a + max n 1 ≤ 2 ^ 40) && (slotsIn a (max n 1)).all (fun k => (tblGet x.lots ((tblGet x.live k).getD k)).any (fun e => e.owner == t))

/-- R190: whether a range touches plan storage. -/
def rangePlan (x : Parcel) (a n : Nat) : Bool := (slotsIn a n).any (fun k => (tblGet x.lots k).any (·.plan))

/-- R289, R190: sets PLAN of exactly the lots that hold a loaded plan. -/
def markPlans (x : Parcel) : Parcel :=
  let used := x.plans.flatMap (fun v => (List.range v.slots).map (v.slot + ·))
  { x with lots := x.lots.map (fun e => (e.1, { e.2 with plan := used.contains e.1 })) }

/-- The context of an access that a command makes. -/
def zCtx (t : Nat) : MCtx := { ten := t }

/-- The writer that a command's lines carry. -/
def zWriter (p : Nat) : Nat × Nat := (p, 0xFFFFFFFF)

/-- R183, R190: a verified image as a loaded plan. -/
def planOfImage (t slot off : Nat) (im : List Byte) : Plan := {
  tenancy := t, itemId := imgItem im, classMin := imgClassMin im, classMax := imgClassMax im, unit := imgUnit im,
  flags := imgFlags im, segments := imgSegments im, seed := imgSeed im, slot := slot, offset := off,
  slots := (slotsIn (slot * 2 ^ 30 + off) im.length).length, image := im, digest := imgDigest im }

/-- R177: VERIFY_FAILED with its detail record and the digest. -/
def refuseV (tk : Ticket) (v : VFail) (dig : List Byte) (s : State) : State :=
  replyWith tk .verifyFailed true (v.bytes ++ dig) s

/-- R177: the checks of the verifier that an image with a good header has: layout, signature, the four of step 3, and one
for each segment. -/
def checkCount (im : List Byte) : Nat := 6 + imgSegments im

/-- R177: check number k of an image: what it leaves to the checks after it, or the answer to an image that fails it. -/
def imageCheck (tk : Ticket) (p t : Nat) (im : List Byte) (k : Nat) (sums : Tbl Int) (s : State) : Except State (Tbl Int) :=
  let ends (v : VFail) (dig : List Byte) : Except State (Tbl Int) := .error (refuseV tk v dig s)
  if k == 0 then
    match layoutFail im with
    | some v => ends v (zeros 32)
    | none => .ok sums
  else if k == 1 then
    if signatureOk im ((s.parcel p).ten t).signer then .ok sums
    else .error (replyWith tk .signatureFailed true (zeros 16 ++ imgDigest im) s)
  else if k < 6 then
    match partFail (s.parcel p) t im (k - 2) with
    | some v => ends v (imgDigest im)
    | none => .ok sums
  else match segmentFail s p t im (k - 6) sums with
    | .error v => ends v (imgDigest im)
    | .ok y => .ok y

/-- R177: n checks of an image from check k on, the first failure ending them. -/
def imageChecks (tk : Ticket) (p t : Nat) (im : List Byte) : Nat → Nat → Tbl Int → State → Except State (Tbl Int)
  | 0, _, sums, _ => .ok sums
  | n + 1, k, sums, s =>
    match imageCheck tk p t im k sums s with
    | .error e => .error e
    | .ok y => imageChecks tk p t im n (k + 1) y s

/-- R177 STORE, R190: what the end of the storing of an image leaves: the plan is loaded, or its storage is undefined. -/
def imageStored (tk : Ticket) (p t slot off : Nat) (im : List Byte) (w : MRes × Nat × Nat × State) : State :=
  let dig := imgDigest im
  if w.1 != .ok then
    refuseV tk { detail := vfStore } dig (pvUndef p t (slot * 2 ^ 30 + off) im.length w.2.2.2)
  else
    let s := w.2.2.2.modParcel p (fun x => markPlans { x with plans := x.plans ++ [planOfImage t slot off im] })
    reply tk .ok (zeros 16 ++ dig) (cad s)

/-- R177, R330, R483: the checks of PLAN_LOAD before the verifier: the image, or the state after the answer. -/
def planRead (tk : Ticket) (p t : Nat) (b : List Byte) (s : State) : Except State (List Byte) :=
  let x := s.parcel p
  let addr := le b 0 8
  let n := le b 8 8
  let slot := le b 16 2
  let off := le b 20 4
  let a := slot * 2 ^ 30 + off
  let slots := slotsIn a (max n 1)
  let overlaps := x.plans.any (fun v =>
    decide (a < v.slot * 2 ^ 30 + v.offset + v.image.length) && decide (v.slot * 2 ^ 30 + v.offset < a + n))
  if !slots.all (fun k => (tblGet x.lots k).any (fun e => !e.classA && e.owner == t)) then .error (refuse tk .badParcel s)
  else if overlaps || slots.any (fun k => (dataSlots x).contains k) then .error (refuse tk .busy s)
  else match hostRead s tk.block addr (min n 20) with
    | none => .error (refuse tk .hostDmaFailed s)
    | some h =>
      if 8 ≤ (x.variants t (le h 16 4)).length then .error (refuse tk .noResource s)
      else if s.power.holdOn then .error (refuse tk .thermalHold s)
      else if s.power.drainOn then .error (refuse tk .maintenance s)
      else if 2 ^ 28 < n then
        .error (refuseV tk { detail := vfFormat } (zeros 32) s)
      else match hostRead s tk.block addr n with
        | none => .error (refuse tk .hostDmaFailed s)
        | some im => .ok im

/-- R177, R330, R483: PLAN_LOAD. -/
def cmdPlanLoad : ZDo := fun tk p t b s =>
  match planRead tk p t b s with
  | .error s => s
  | .ok im =>
    match imageChecks tk p t im (checkCount im) 0 [] s with
    | .error s => s
    | .ok _ =>
      let slot := le b 16 2
      let off := le b 20 4
      imageStored tk p t slot off im (pvWrite p t (slot * 2 ^ 30 + off) im false (zWriter p) (zCtx t) s)

/-- PLAN_LOAD. -/
def execPlanLoad (r : ZReq) (s : State) : Host.Outcome State Fault Refusal := zRow 0x20 none cmdPlanLoad r s

/-- R190, R334: PLAN_UNLOAD. -/
def cmdPlanUnload : ZDo := fun tk p t b s =>
  let x := s.parcel p
  let id := le b 0 4
  let cls := le b 4 4
  let isIt (v : Plan) : Bool := v.tenancy == t && v.itemId == id && v.classMax == cls
  if !x.plans.any isIt then refuse tk .badParcel s
  else if x.items.any (fun i => i.tenancy == t && i.itemId == id && i.classMax == cls && i.kind != .update && i.kind != .coll) then
    refuse tk .busy s
  else reply tk .ok [] (cad (s.modParcel p (fun x => markPlans { x with plans := x.plans.filter (fun v => !isIt v) })))

/-- PLAN_UNLOAD. -/
def execPlanUnload (r : ZReq) (s : State) : Host.Outcome State Fault Refusal := zRow 0x21 none cmdPlanUnload r s

/-- R446: appends a ledger entry. -/
def ledgerAdd (p t : Nat) (tensor dest len key : Nat) (text : List Byte) (s : State) : State :=
  let e := pay [(tensor, 8), (dest, 8), (len, 8), (key, 1), (0, 7)] ++ sha256 text
  s.modTen p t (fun x => { x with ledger := x.ledger ++ [e] })

/-- R303, R446: the reply of a load after its writes: whole, or stopped at a granule. -/
def loadReply (tk : Ticket) (p t tensor dest key : Nat) (text : List Byte) (w : MRes × Nat × Nat × State) : State :=
  if w.1 == .ok then
    reply tk .ok (leBytes text.length 8 ++ sha256 text) (ledgerAdd p t tensor dest text.length key text w.2.2.2)
  else reply tk .okPartial (leBytes w.2.2.1 8 ++ zeros 32) w.2.2.2

/-- R308, R323: what refuses a command that moves data. -/
def moveBarred (s : State) : Option RStatus :=
  if s.power.holdOn then some .thermalHold else if s.power.drainOn then some .maintenance else none

/-- R446, R483: what refuses an unwrapped WEIGHTS_LOAD. -/
def weightsBarred (p t : Nat) (b : List Byte) (s : State) : Option RStatus :=
  let x := s.parcel p
  let n := le b 8 8
  let dest := le b 16 8
  if n % 256 != 0 || dest % 256 != 0 then some .badLength
  else if !rangeHeld x t dest n then some .badParcel
  else if rangePlan x dest n then some .busy
  else if 4096 ≤ (x.ten t).ledger.length then some .noResource
  else moveBarred s

/-- R446, R483: WEIGHTS_LOAD, unwrapped. -/
def cmdWeightsLoad : ZDo := fun tk p t b s =>
  let dest := le b 16 8
  match weightsBarred p t b s with
  | some st => refuse tk st s
  | none => match hostRead s tk.block (le b 0 8) (le b 8 8) with
    | none => refuse tk .hostDmaFailed s
    | some text => loadReply tk p t 0 dest 0xFF text (pvWrite p t dest text false (zWriter p) (zCtx t) s)

/-- WEIGHTS_LOAD, unwrapped. -/
def execWeightsLoad (r : ZReq) (s : State) : Host.Outcome State Fault Refusal := zRow 0x30 (some 0) cmdWeightsLoad r s

/-- R443: whether the header of a wrapped load is well formed for its length in host memory. -/
def wrapOk (h : List Byte) (n : Nat) : Bool :=
  let lg := le h 7 1
  let len := le h 16 8
  le h 0 4 == 0x50415257 && le h 4 2 == 1 && decide (le h 6 1 < 4) && decide (12 ≤ lg) && decide (lg ≤ 24)
    && len % 256 == 0 && decide (len ≤ 2 ^ 36) && allZero h 32 32
    && n == 64 + len + 16 * ((len + 2 ^ lg - 1) / 2 ^ lg)

/-- R443: how many chunks a wrapped load has. -/
def wrapCount (h : List Byte) : Nat := (le h 16 8 + 2 ^ le h 7 1 - 1) / 2 ^ le h 7 1

/-- R444, R445: the plaintext of chunk i, whose ciphertext and tag are at the front of src; none when its tag fails. -/
def openChunk (key h src : List Byte) (i : Nat) : Option (List Byte) :=
  let sz := 2 ^ le h 7 1
  let n := min sz (le h 16 8 - i * sz)
  let iv := slice h 24 8 ++ beBytes i 4
  let aad := h ++ beBytes i 4 ++ [if i + 1 == wrapCount h then 1 else 0]
  (gcmOpen key iv aad (slice src 0 n) (slice src n 16)).map (fun pt => slice pt 0 n)

/-- R444, R445: decrypts and writes chunks from chunk i on, whose bytes src holds: the end, the address of a failure, the
bytes written, the plaintext, and the state; none when a tag fails. -/
def wrapChunks (p t dest : Nat) (key h : List Byte) : List Byte → Nat → Nat → List Byte → State →
    Option (MRes × Nat × Nat × State) × List Byte × State
  | _, 0, _, text, s => (some (.ok, 0, text.length, s), text, s)
  | src, k + 1, i, text, s =>
    let sz := 2 ^ le h 7 1
    match openChunk key h src i with
    | none => (none, text, s)
    | some pt =>
      let w := pvWrite p t (dest + i * sz) pt false (zWriter p) (zCtx t) s
      if w.1 == .ok then wrapChunks p t dest key h (src.drop (sz + 16)) k (i + 1) (text ++ pt) w.2.2.2
      else (some (w.1, w.2.1, text.length + w.2.2.1, w.2.2.2), text, w.2.2.2)

/-- R443, R446: the checks of a wrapped WEIGHTS_LOAD: its header and key slot, or what refuses it. -/
def wrapChecked (tk : Ticket) (p t : Nat) (b : List Byte) (s : State) : Except RStatus (List Byte × KeySlot) :=
  let x := s.parcel p
  let n := le b 8 8
  let dest := le b 16 8
  if s.sec.error then .error .internal
  else if dest % 256 != 0 then .error .badLength
  else match hostRead s tk.block (le b 0 8) (min n 64) with
    | none => .error .hostDmaFailed
    | some h =>
      let len := le h 16 8
      if !wrapOk h n then .error (if rangePlan x dest (min len n) then .busy else .verifyFailed)
      else if !rangeHeld x t dest len then .error .badParcel
      else if rangePlan x dest len then .error .busy
      else match tblGet (x.ten t).keys (le h 6 1) with
        | none => .error .noResource
        | some key =>
          if 4096 ≤ (x.ten t).ledger.length then .error .noResource
          else match moveBarred s with
            | some st => .error st
            | none => .ok (h, key)

/-- R445: a load whose tag fails: the destination is zero-written and the reply is SIGNATURE_FAILED. -/
def tagFailed (tk : Ticket) (p t dest len : Nat) (s : State) : State :=
  refuse tk .signatureFailed (pvWrite p t dest (zeros len) false (zWriter p) (zCtx t) s).2.2.2

/-- R443 to R446: WEIGHTS_LOAD, wrapped. -/
def cmdWeightsLoadWrapped : ZDo := fun tk p t b s =>
  let dest := le b 16 8
  match wrapChecked tk p t b s with
  | .error st => refuse tk st s
  | .ok (h, key) => match hostRead s tk.block (le b 0 8) (le b 8 8) with
    | none => refuse tk .hostDmaFailed s
    | some src => match wrapChunks p t dest key.key h (src.drop 64) (wrapCount h) 0 [] s with
      | (some w, text, _) => loadReply tk p t (le h 8 8) dest (le h 6 1) text w
      | (none, _, s) => tagFailed tk p t dest (le h 16 8) s

/-- WEIGHTS_LOAD, wrapped. -/
def execWeightsLoadWrapped (r : ZReq) (s : State) : Host.Outcome State Fault Refusal :=
  zRow 0x30 (some 1) cmdWeightsLoadWrapped r s

/-- R22, R190: what refuses a TENSOR_WRITE. -/
def writeBarred (p t : Nat) (b : List Byte) (s : State) : Option RStatus :=
  let x := s.parcel p
  if !rangeHeld x t (le b 16 8) (le b 8 8) then some .badParcel
  else if rangePlan x (le b 16 8) (le b 8 8) then some .busy
  else moveBarred s

/-- R22, R190, R303, R446: TENSOR_WRITE. -/
def cmdTensorWrite : ZDo := fun tk p t b s =>
  match writeBarred p t b s with
  | some st => refuse tk st s
  | none => match hostRead s tk.block (le b 0 8) (le b 8 8) with
    | none => refuse tk .hostDmaFailed s
    | some d =>
      let w := pvWrite p t (le b 16 8) d false (zWriter p) (zCtx t) s
      let s := tenCount p t 4 w.2.2.2
      reply tk (if w.1 == .ok then .ok else .okPartial) (leBytes w.2.2.1 8) s

/-- TENSOR_WRITE. -/
def execTensorWrite (r : ZReq) (s : State) : Host.Outcome State Fault Refusal := zRow 0x31 none cmdTensorWrite r s

/-- R22: what refuses a TENSOR_READ. -/
def readBarred (p t : Nat) (b : List Byte) (s : State) : Option RStatus :=
  if !rangeHeld (s.parcel p) t (le b 16 8) (le b 8 8) then some .badParcel else moveBarred s

/-- R22, R303: TENSOR_READ. -/
def cmdTensorRead : ZDo := fun tk p t b s =>
  match readBarred p t b s with
  | some st => refuse tk st s
  | none =>
    let r := pvRead p t (le b 16 8) (le b 8 8) false (zCtx t) s
    match hostWrite r.2.2.2 tk.block (le b 0 8) r.2.2.1 with
    | none => refuse tk .hostDmaFailed r.2.2.2
    | some s => reply tk (if r.1 == .ok then .ok else .okPartial) (leBytes r.2.2.1.length 8) s

/-- TENSOR_READ. -/
def execTensorRead (r : ZReq) (s : State) : Host.Outcome State Fault Refusal := zRow 0x32 none cmdTensorRead r s

/-- R454: a deed with its signature under the alias key, the signature's secret number from the random bits of draw n. -/
def signDeed (n : Nat) (s : State) (body : List Byte) : List Byte :=
  let g := signWith s.sec.aliasKey n (sha256 body)
  body ++ leBytes g.1 32 ++ leBytes g.2 32

/-- R456: PLANS_DIGEST of a tenancy. -/
def plansDigest (x : Parcel) (t : Nat) : List Byte :=
  let l := sortBy (fun (a b : Plan) => decide (a.itemId < b.itemId) || (a.itemId == b.itemId && decide (a.classMax < b.classMax)))
    (x.plans.filter (fun v => v.tenancy == t))
  sha256 (l.flatMap (fun v => pay [(v.itemId, 4), (v.classMin, 4), (v.classMax, 4)] ++ v.digest))

/-- R433, R455: FIRMWARE. -/
def firmwareId (s : State) : List Byte := sha256 ((s.sec.measure.drop 1).take 5).flatten

/-- R455, R456: a parcel deed for a tenancy. -/
def parcelDeed (d : Nat) (s : State) (p t : Nat) (nonce : List Byte) (inSession : Bool) : List Byte :=
  let x := s.parcel p
  let y := x.ten t
  let f := blockFn s y.mailbox
  let run := f != 0 && tblGet s.pcie.tdisp f == some .run
  let ide := f != 0 && s.pcie.ide.any (fun e => e.1 == f)
  let flags := b2n inSession + 2 * b2n run + 4 * b2n ide + 8 + 16 * b2n s.sec.dbgEver + 32 * b2n s.store.production
  signDeed d s (pay [(0x44454544, 4), (1, 2), (1, 1), (0, 1), (s.time.postmark, 8)] ++ slice nonce 0 32
    ++ pay [(p, 2), (t, 1), (if x.sealedAt == 0 then 1 else 2, 1), (x.sealedAt, 8), (x.quads.length, 1), (x.inUse.length, 1),
      ((ownedLots x t).length, 2), (flags, 4), ((x.plans.filter (fun v => v.tenancy == t)).length, 2), (y.ledger.length, 2),
      (y.tensorWrites, 6), (0, 2)]
    ++ firmwareId s ++ plansDigest x t ++ sha256 y.ledger.flatten
    ++ (if y.signer.isEmpty then zeros 32 else sha256 y.signer) ++ dikId ++ zeros 208)

/-- R457: one LAYOUT record. -/
def layoutRec (s : State) (p : Nat) : List Byte :=
  let x := s.parcel p
  if x.state == .free then zeros 24
  else pay [(x.state.code, 1), (x.inUse.length, 1), (x.lots.length, 2), (mapOf x.quads, 6), (x.granules.length, 2),
    (x.created, 8), (0, 4)]

/-- R457, R462, R463: DEBUG_STATE. -/
def debugState (s : State) : Nat :=
  (if s.store.production && s.store.dbgPermLock then 0 else if s.sec.dbgOpen then 2 else 1) + 4 * b2n s.sec.dbgEver
    + 8 * b2n ((liveParcels s).any (sealedOrPending s))

/-- The physical cores that are active or promoted, and the unpromoted reserve cores. -/
def activeCores (s : State) : List Nat := (List.range 224).filter (coreUp s)
def reserveCores (s : State) : List Nat := (List.range 224).filter (fun k => (s.cmeta k).state == .reserve)

/-- R321: the fold table, 12 entries of 32 bits. -/
def foldTable (s : State) : List Byte := (List.range 12).flatMap (fun k => leBytes ((tblGet s.store.folds k).getD 0) 4)

/-- R457: a package deed. -/
def packageDeed (d : Nat) (s : State) (nonce : List Byte) : List Byte :=
  let fuse := b2n s.store.production + 2 * b2n s.store.dbgPermLock + 4 * (s.store.revoked % 16) + 64
  let layout := (List.range 48).flatMap (layoutRec s)
  signDeed d s (pay [(0x44454544, 4), (1, 2), (2, 1), (0, 1), (s.time.postmark, 8)] ++ slice nonce 0 32
    ++ s.sec.measure.flatten ++ dikId
    ++ pay [(s.store.svn, 4), (fuse, 4), (debugState s, 4), ((activeCores s).length, 2), ((reserveCores s).length, 2)]
    ++ foldTable s ++ sha256 layout
    ++ pay [((liveParcels s).length, 2), ((freeLots s).length, 2)] ++ zeros 12 ++ layout)

/-- R431, R455, R458: DEED_GET of a parcel deed. -/
def cmdDeedGetParcel : ZDo := fun tk p t b s =>
  if s.sec.error then refuse tk .internal s
  else let d := draw s; reply tk .ok (parcelDeed d.1 s p t (slice b 8 32) false) d.2

/-- DEED_GET of a parcel deed. -/
def execDeedGetParcel (r : ZReq) (s : State) : Host.Outcome State Fault Refusal := zRow 0x60 (some 1) cmdDeedGetParcel r s

/-- R431, R457, R458: DEED_GET of a package deed, for the PF owner and the board management controller. -/
def cmdDeedGetPackage : ZDo := fun tk _ _ b s =>
  if s.sec.error then refuse tk .internal s
  else let d := draw s; reply tk .ok (packageDeed d.1 s (slice b 8 32)) d.2

/-- DEED_GET of a package deed. -/
def execDeedGetPackage (r : ZReq) (s : State) : Host.Outcome State Fault Refusal := zRow 0x60 (some 2) cmdDeedGetPackage r s

end Sys2Proof.Machine
end

