-- ==== Sys2Proof/Machine/Suspend.lean ====
section
/-! DEFINITION. The end of a slice (11 R414 to R419): a held command that is in progress then is suspended. A command is performed
in stretches, from where it stands to the point where the end of the slice suspends it, or to its end (log entry 27). -/

namespace Sys2Proof.Machine

/-- R419: what a stretch of a command comes to: the command has ended and is answered, or it is suspended. -/
inductive Stretch where
  | ends (s : State)
  | stops (u : Susp) (s : State)

/-- R419: the bytes done when a stretch that has k bytes of a range of len bytes from address a behind it stops n units on,
at a boundary of the unit. -/
def stopAt (unit a k n len : Nat) : Nat :=
  if n = 0 then k else min len ((a + k) / unit * unit + unit * n - a)

/-- Where a stretch stops: at its point of suspension, or at the end of the range. -/
def stretchEnd (unit a len : Nat) (u : Susp) (stop : Option Nat) : Nat :=
  match stop with
  | none => len
  | some n => stopAt unit a u.done n len

/-- R419, R446: a stretch of an unwrapped WEIGHTS_LOAD, which stops at a granule. -/
def weightsPart (tk : Ticket) (p t : Nat) (b : List Byte) (u : Susp) (stop : Option Nat) (s : State) : Stretch :=
  let n := le b 8 8
  let dest := le b 16 8
  let c := stretchEnd 256 dest n u stop
  match hostRead s tk.block (le b 0 8 + u.done) (c - u.done) with
  | none => .ends (refuse tk .hostDmaFailed s)
  | some d =>
    let w := pvWrite p t (dest + u.done) d false (zWriter p) (zCtx t) s
    if w.1 == .ok && c != n then .stops { u with done := c, data := u.data ++ d } w.2.2.2
    else .ends (loadReply tk p t 0 dest 0xFF (u.data ++ d) (w.1, w.2.1, u.done + w.2.2.1, w.2.2.2))

/-- R419, R303: a stretch of a TENSOR_WRITE, which stops at a granule. -/
def writePart (tk : Ticket) (p t : Nat) (b : List Byte) (u : Susp) (stop : Option Nat) (s : State) : Stretch :=
  let n := le b 8 8
  let a := le b 16 8
  let c := stretchEnd 256 a n u stop
  match hostRead s tk.block (le b 0 8 + u.done) (c - u.done) with
  | none => .ends (refuse tk .hostDmaFailed s)
  | some d =>
    let w := pvWrite p t (a + u.done) d false (zWriter p) (zCtx t) s
    if w.1 == .ok && c != n then .stops { u with done := c } w.2.2.2
    else .ends (reply tk (if w.1 == .ok then .ok else .okPartial) (leBytes (u.done + w.2.2.1) 8) (tenCount p t 4 w.2.2.2))

/-- R419, R303: a stretch of a TENSOR_READ, which stops at a granule. -/
def readPart (tk : Ticket) (p t : Nat) (b : List Byte) (u : Susp) (stop : Option Nat) (s : State) : Stretch :=
  let n := le b 8 8
  let a := le b 16 8
  let c := stretchEnd 256 a n u stop
  let r := pvRead p t (a + u.done) (c - u.done) false (zCtx t) s
  match hostWrite r.2.2.2 tk.block (le b 0 8 + u.done) r.2.2.1 with
  | none => .ends (refuse tk .hostDmaFailed r.2.2.2)
  | some s =>
    if r.1 == .ok && c != n then .stops { u with done := c } s
    else .ends (reply tk (if r.1 == .ok then .ok else .okPartial) (leBytes (u.done + r.2.2.1.length) 8) s)

/-- R177, R419: a stretch of the storing of an image that has passed the verifier, which stops at a page of its storage. -/
def storePart (tk : Ticket) (p t : Nat) (b : List Byte) (u : Susp) (stop : Option Nat) (s : State) : Stretch :=
  let slot := le b 16 2
  let off := le b 20 4
  let a := slot * 2 ^ 30 + off
  let n := u.data.length
  let c := stretchEnd 4096 a n u stop
  let w := pvWrite p t (a + u.done) (slice u.data u.done (c - u.done)) false (zWriter p) (zCtx t) s
  if w.1 == .ok && c != n then .stops { u with done := c } w.2.2.2
  else .ends (imageStored tk p t slot off u.data w)

/-- R177, R419: a stretch of a PLAN_LOAD, which stops between two checks of the verifier or at a page of the image's storage. -/
def planPart (tk : Ticket) (p t : Nat) (b : List Byte) (u : Susp) (stop : Option Nat) (s : State) : Stretch :=
  let left := checkCount u.data - u.checks
  let n := (stop.map (min left)).getD left
  match imageChecks tk p t u.data n u.checks u.sums s with
  | .error s => .ends s
  | .ok y =>
    let v : Susp := { u with checks := u.checks + n, sums := y }
    if stop.any (fun k => k ≤ left) then .stops v s else storePart tk p t b v (stop.map (· - left)) s

/-- R419, R445: whether the key slot of a wrapped load still holds the key it had, neither cleared nor set anew. -/
def keyStands (p t : Nat) (u : Susp) (s : State) : Bool :=
  (tblGet ((s.parcel p).ten t).keys (le u.head 6 1)).any (fun k => k.set == u.keySet)

/-- R419, R445: a stretch of a wrapped WEIGHTS_LOAD. It counts whole chunks as done; of the chunk in which it stops the
plaintext is written up to the granule that it reached, and the chunk is decrypted again later. In the error state no key is
used, and the load ends INTERNAL (R431). -/
def wrappedPart (tk : Ticket) (p t : Nat) (b : List Byte) (u : Susp) (stop : Option Nat) (s : State) : Stretch :=
  let dest := le b 16 8
  let h := u.head
  let len := le h 16 8
  let sz := 2 ^ le h 7 1
  let i := u.done / sz
  let c := stretchEnd 256 dest len u stop
  let k := (if c = len then wrapCount h else c / sz) - i
  let o := 64 + i * (sz + 16)
  let more := c != len && c % sz != 0
  let key := u.key
  if s.sec.error then .ends (refuse tk .internal s)
  else if !keyStands p t u s then .ends (tagFailed tk p t dest len s)
  else match hostRead s tk.block (le b 0 8 + o) (min (le b 8 8 - o) ((k + b2n more) * (sz + 16))) with
    | none => .ends (refuse tk .hostDmaFailed s)
    | some src => match wrapChunks p t dest key h src k i u.data s with
      | (none, _, s) => .ends (tagFailed tk p t dest len s)
      | (some w, text, _) =>
        let v : Susp := { u with done := (i + k) * sz, data := text }
        if w.1 != .ok || c == len then .ends (loadReply tk p t (le h 8 8) dest (le h 6 1) text w)
        else if !more then .stops v w.2.2.2
        else match openChunk key h (src.drop (k * (sz + 16))) (i + k) with
          | none => .ends (tagFailed tk p t dest len w.2.2.2)
          | some pt =>
            let y := pvWrite p t (dest + (i + k) * sz) (pt.take (c % sz)) false (zWriter p) (zCtx t) w.2.2.2
            if y.1 == .ok then .stops v y.2.2.2
            else .ends (loadReply tk p t (le h 8 8) dest (le h 6 1) text (y.1, y.2.1, text.length + y.2.2.1, y.2.2.2))

/-- R419: a stretch of a command that has begun. -/
def onePart (tk : Ticket) (form p t : Nat) (b : List Byte) (u : Susp) (stop : Option Nat) (s : State) : Stretch :=
  match tk.op, form with
  | 0x20, _ => planPart tk p t b u stop s
  | 0x30, 0 => weightsPart tk p t b u stop s
  | 0x30, _ => wrappedPart tk p t b u stop s
  | 0x31, _ => writePart tk p t b u stop s
  | _, _ => readPart tk p t b u stop s

/-- R419: how a command that can be suspended begins, its checks passed; none for one that is refused or never suspended. -/
def beginPart (tk : Ticket) (form p t : Nat) (b : List Byte) (s : State) : Option Susp :=
  match tk.op, form with
  | 0x20, _ => (planRead tk p t b s).toOption.map (fun im => { data := im })
  | 0x30, 0 => if (weightsBarred p t b s).isNone then some {} else none
  | 0x30, _ => (wrapChecked tk p t b s).toOption.map (fun x => { head := x.1, key := x.2.key, keySet := x.2.set })
  | 0x31, _ => if (writeBarred p t b s).isNone then some {} else none
  | 0x32, _ => if (readBarred p t b s).isNone then some {} else none
  | _, _ => none

/-- R418, R419: the end of a slice finds the tenancy's first held command in progress or not. How many checks, granules or pages of it
are done by then is a free value, and 0 is none: the command has not begun, or stands where it stood. -/
def suspendHeld (p : Nat) (s : State) : State :=
  let t := (s.parcel p).running
  match ((s.parcel p).ten t).held with
  | [] => s
  | h :: r =>
    let d := draw s
    let n := Config.freeNat d.1
    match (if n = 0 then none else match h.susp with
      | some u => some u
      | none => beginPart h.tk h.form p t h.payload d.2) with
    | none => d.2
    | some u => match onePart h.tk h.form p t h.payload u (some n) (d.2.modTen p t (fun y => { y with held := r })) with
      | .ends s => s
      | .stops u s => s.modTen p t (fun y => { y with held := { h with susp := some u } :: y.held })

/-- R414 to R420: SLICE_END: the slice ends, a held command in progress is suspended, and the next tenancy with work is
switched to, or the outgoing one begins a new slice. The end that a deactivation asks for comes in its turn (R43). -/
def execSliceEnd (parcel : Nat) (s : State) : Host.Outcome State Fault Refusal :=
  let x := s.parcel parcel
  if inHead s && inService x && sliceOver s parcel then
    let t := x.running
    if x.slice.deactivated then
      match turnIn s (Change.deactivates parcel), (match nextTen s parcel t with | some n => some n | none => nextUsed s parcel t) with
      | some s, some n => fin (beginSwitch parcel n (suspendHeld parcel s))
      | _, _ => .next s
    else match nextTen s parcel t with
      | some n => if n == t then fin (startSlice parcel t (suspendHeld parcel s)) else fin (beginSwitch parcel n (suspendHeld parcel s))
      | none => fin (startSlice parcel t (suspendHeld parcel s))
  else .next s

end Sys2Proof.Machine
end

