-- ==== Sys2Proof/Machine/ZmiMaint.lean ====
section
/-! DEFINITION. Maintenance, query, firmware, port and federation commands (13 R483, 08 R321 to R324, 12 R434, R435, R461,
14 R508 to R518, R532, 15 R546). -/

namespace Sys2Proof.Machine

/-- R461, R483: TELEMETRY_GET; of a sealed or seal-pending parcel the totals are those of the last frame head. -/
def cmdTelemetryGet : ZDo := fun tk _ _ b s =>
  let p := le b 0 2
  let w := s.telem
  let head := pay [(w.inputW, 4)] ++ w.dieT.map (BitVec.ofNat 8) ++ [BitVec.ofNat 8 w.hubT] ++ w.hsT.map (BitVec.ofNat 8)
  let head := slice head 0 32 ++ leBytes w.readAt 8
  if p == 0xFFFF then reply tk .ok head s
  else if 48 ≤ p || (s.parcel p).state == .free then refuse tk .badParcel s
  else
    let x := s.parcel p
    reply tk .ok (head ++ (if sealedOrPending s p then x.coarse else parcelTotals x)) s

/-- TELEMETRY_GET. -/
def execTelemetryGet (r : ZReq) (s : State) : Host.Outcome State Fault Refusal := zRow 0x90 none cmdTelemetryGet r s

/-- R19: whether a number of cycles is a frame period. -/
def periodOk (n : Nat) : Bool := n % 64 == 0 && decide (66048 ≤ n) && decide (n ≤ 66000000)

/-- R19, R51, R483: PERIOD_SET; the change waits for a frame head. -/
def cmdPeriodSet : ZDo := fun tk _ _ b s =>
  let n := le b 0 4
  if !periodOk n then refuse tk .verifyFailed s
  else if s.fed.federated || periodBusy s n then refuse tk .busy s
  else pushChange (.period n tk) s

/-- PERIOD_SET. -/
def execPeriodSet (r : ZReq) (s : State) : Host.Outcome State Fault Refusal := zRow 0x91 none cmdPeriodSet r s

/-- R323, R483: MAINT_DRAIN of action begin. -/
def cmdMaintDrainBegin : ZDo := fun tk _ _ _ s =>
  if s.power.drainOn || s.changes.any (fun c => c.2.drains) then refuse tk .busy s else pushChange (.drainBegin tk) s

/-- MAINT_DRAIN of action begin. -/
def execMaintDrainBegin (r : ZReq) (s : State) : Host.Outcome State Fault Refusal := zRow 0xA0 (some 0) cmdMaintDrainBegin r s

/-- R323, R483: MAINT_DRAIN of action end. -/
def cmdMaintDrainEnd : ZDo := fun tk _ _ _ s =>
  let asked := s.changes.any (fun c => match c.2 with
    | .drainEnd _ => true
    | _ => false)
  if !s.power.drainOn || asked then refuse tk .busy s else pushChange (.drainEnd tk) s

/-- MAINT_DRAIN of action end. -/
def execMaintDrainEnd (r : ZReq) (s : State) : Host.Outcome State Fault Refusal := zRow 0xA0 (some 1) cmdMaintDrainEnd r s

/-- R308, R322, R472, R483: HBM_REPAIR of action list. -/
def cmdHbmRepairList : ZDo := fun tk _ _ b s =>
  let l := s.store.repairs
  let got := (l.drop (le b 4 4)).take ((tk.space - 8) / 16)
  if s.power.holdOn then refuse tk .thermalHold s
  else reply tk .ok (pay [(got.length, 2), (l.length, 2), (0, 4)] ++ got.flatMap (fun r =>
    pay [(r.kind, 1), (r.stack, 1), (r.channel, 1), (r.pseudo, 1), (r.row, 4), (r.postmark, 8)])) s

/-- HBM_REPAIR of action list. -/
def execHbmRepairList (r : ZReq) (s : State) : Host.Outcome State Fault Refusal := zRow 0xA1 (some 0) cmdHbmRepairList r s

/-- R323: one granule of a row under repair: corrected, or written as lost. -/
def repairGran (g : Nat) (s : State) : State :=
  let r := rdGran (256 * g) {} s
  let s := r.2.2
  if r.1 == .ok then putGran (256 * g) r.2.1 s
  else if granMarked s g then s
  else { s with hbm := { s.hbm with lostExtra := g :: s.hbm.lostExtra, errs := tblDel s.hbm.errs g } }

/-- R323: removes a candidate from the list. -/
def dropRepair (kind stack channel pseudo row : Nat) (s : State) : State :=
  let keep (r : Repair) : Bool :=
    !(r.kind == kind && r.stack == stack && r.channel == channel && (kind == 2 || r.pseudo == pseudo) && r.row == row)
  { s with store := { s.store with repairs := s.store.repairs.filter keep } }

/-- R322, R323: how many hard repairs of each kind a stack has in all; the manual does not say (log entry 16). -/
def rowSpares : Nat := 256
def laneSpares : Nat := 32

/-- Whether a stack has a repair resource of a kind left. -/
def rowLeft (s : State) (k : Nat) : Bool := decide ((tblGet s.store.rowsUsed k).getD 0 < rowSpares)
def laneLeft (s : State) (k : Nat) : Bool := decide ((tblGet s.store.lanesUsed k).getD 0 < laneSpares)

/-- R323, R324: a channel is retrained with success outside its window: a run of failed windows of it ends. -/
def retrainNow (k channel : Nat) (s : State) : State :=
  let x := s.stack k
  if x.nextCh == channel then s.setStack k { x with fails := 0 } else s

/-- R326: the record of a row or lane repaired. -/
def repairedEvent (k channel pseudo : Nat) (s : State) : State :=
  chanErr 10 k channel (64 * k + 2 * channel + pseudo) 0 0xFFFFFFFF s

/-- R323, R326: a row repair: the row is read and corrected, repaired, written back, and leaves the list. -/
def rowRepair (k channel pseudo row : Nat) (s : State) : State :=
  let pc := 64 * k + 2 * channel + pseudo
  let hit := (s.hbm.errs.map (·.1)).filter (fun g =>
    let pl := placeOf s (256 * g)
    pl.1 == pc && (Config.rowOf pc pl.2).toNat == row)
  let n := (tblGet s.store.rowsUsed k).getD 0
  let s := hit.foldl (fun s g => repairGran g s) { s with store := { s.store with rowsUsed := tblPut s.store.rowsUsed k (n + 1) } }
  repairedEvent k channel pseudo (dropRepair 1 k channel pseudo row s)

/-- R323, R326: a lane repair, after which the channel is retrained. -/
def laneRepair (k channel pseudo lane : Nat) (s : State) : State :=
  let n := (tblGet s.store.lanesUsed k).getD 0
  let s := dropRepair 2 k channel pseudo lane { s with store := { s.store with lanesUsed := tblPut s.store.lanesUsed k (n + 1) } }
  repairedEvent k channel pseudo (retrainNow k channel s)

/-- R323: HBM_REPAIR of action row. -/
def cmdHbmRepairRow : ZDo := fun tk _ _ b s =>
  let k := le b 1 1
  let pc := 64 * k + 2 * le b 2 1 + le b 3 1
  let row := le b 4 4
  if !s.power.drainOn then refuse tk .notInMaintenance s
  else if !(List.range (2 ^ 22)).any (fun g => (Config.rowOf pc g).toNat == row) then refuse tk .badLength s
  else if !rowLeft s k then refuse tk .noResource s
  else if s.power.holdOn then refuse tk .thermalHold s
  else reply tk .ok [] (rowRepair k (le b 2 1) (le b 3 1) row s)

/-- HBM_REPAIR of action row. -/
def execHbmRepairRow (r : ZReq) (s : State) : Host.Outcome State Fault Refusal := zRow 0xA1 (some 1) cmdHbmRepairRow r s

/-- R323: HBM_REPAIR of action lane. -/
def cmdHbmRepairLane : ZDo := fun tk _ _ b s =>
  let k := le b 1 1
  let lane := le b 4 4
  if !s.power.drainOn then refuse tk .notInMaintenance s
  else if !Config.isDataLane lane then refuse tk .badLength s
  else if !laneLeft s k then refuse tk .noResource s
  else if s.power.holdOn then refuse tk .thermalHold s
  else reply tk .ok [] (laneRepair k (le b 2 1) (le b 3 1) lane s)

/-- HBM_REPAIR of action lane. -/
def execHbmRepairLane (r : ZReq) (s : State) : Host.Outcome State Fault Refusal := zRow 0xA1 (some 2) cmdHbmRepairLane r s

/-- R324: HBM_MARGIN: the pass map of the steps asked for; the channel is retrained before the reply. -/
def cmdHbmMargin : ZDo := fun tk _ _ b s =>
  let k := le b 1 1
  let key := 32 * k + le b 2 1
  let m := (List.range (le b 5 1)).flatMap (fun v => (List.range (le b 4 1)).filterMap (fun t =>
    if Config.marginPass key v t then some (32 * v + t) else none))
  if !s.power.drainOn then refuse tk .notInMaintenance s
  else if bit ((tblGet s.store.folds k).getD 0) 31 || (s.stack k).foldDue.isSome then refuse tk .noResource s
  else if s.power.holdOn then refuse tk .thermalHold s
  else reply tk .ok (leBytes (mapOf m) 128) (retrainNow k (le b 2 1) s)

/-- HBM_MARGIN. -/
def execHbmMargin (r : ZReq) (s : State) : Host.Outcome State Fault Refusal := zRow 0xA2 none cmdHbmMargin r s

/-- R136, R483: FENCE_QUERY. -/
def cmdFenceQuery : ZDo := fun tk _ _ b s =>
  let k := le b 0 2
  if k == 0xFFFF then
    let fenced := (List.range 224).filter (fun k => (s.cmeta k).state == .fenced)
    let map (l : List Nat) : List Byte := leBytes (mapOf l) 28
    reply tk .ok (map (activeCores s) ++ map fenced ++ map (reserveCores s) ++ foldTable s
      ++ (List.range 8).flatMap (fun (d : Nat) => leBytes (s.die d).dsCorrected 6)
      ++ (List.range 12).flatMap (fun h =>
        let x := s.stack h
        pay [(x.corrected, 6), (x.uncorrected, 6), (x.detect, 6), (x.replay, 6)])) s
  else
    let m := s.cmeta k
    let p := parcelOfCore s k
    let lc := (p.bind (fun p => (s.parcel p).logical k)).getD 0xFFFF
    reply tk .ok (pay [(k, 2), (m.state.code, 1), (0, 1), (p.getD 0xFFFF, 2), (lc, 2), ((s.core k).spCorrected, 6), (0, 2)]
      ++ slice ((tblGet s.store.arrayFuse k).getD []) 0 24 ++ leBytes m.fencedAt 8) s

/-- FENCE_QUERY. -/
def execFenceQuery (r : ZReq) (s : State) : Host.Outcome State Fault Refusal := zRow 0xB0 none cmdFenceQuery r s

/-- R483, R546: RESERVE_PROMOTE; the promotion waits for a frame head. -/
def cmdReservePromote : ZDo := fun tk _ _ b s =>
  let f := le b 0 2
  let k := le b 2 2
  let rs := reserves s (f / 28)
  if 224 ≤ f || (s.cmeta f).state != .fenced || (parcelOfCore s f).isNone then refuse tk .badParcel s
  else if k != 0xFFFF && !rs.contains k then refuse tk .badParcel s
  else if k == 0xFFFF && rs.isEmpty then refuse tk .noResource s
  else pushChange (.promote f k tk) s

/-- RESERVE_PROMOTE. -/
def execReservePromote (r : ZReq) (s : State) : Host.Outcome State Fault Refusal := zRow 0xB1 none cmdReservePromote r s

/-- R434, R435: FW_STAGE: a set that is accepted takes the place of the set that is not active. -/
def cmdFwStage : ZDo := fun tk _ _ b s =>
  match hostRead s tk.block (le b 0 8) (le b 8 8) with
  | none => refuse tk .hostDmaFailed s
  | some im => match Config.fwImage im with
    | none => refuse tk .signatureFailed s
    | some (digests, svn, key, raises) =>
      if bit s.store.revoked key || svn < s.store.svn then refuse tk .signatureFailed s
      else
        let k := 1 - s.store.activeSet
        let sets := s.store.sets.set k { digests := digests, svn := svn, raises := raises }
        reply tk .ok [] { s with store := { s.store with sets := sets, staged := some k } }

/-- FW_STAGE. -/
def execFwStage (r : ZReq) (s : State) : Host.Outcome State Fault Refusal := zRow 0xF0 none cmdFwStage r s

/-- R435: FW_ACTIVATE: the staged set is active from the next cold or warm reset. -/
def cmdFwActivate : ZDo := fun tk _ _ _ s =>
  match s.store.staged with
  | none => refuse tk .noResource s
  | some k => reply tk .ok [] { s with store := { s.store with activeSet := k, staged := none } }

/-- FW_ACTIVATE. -/
def execFwActivate (r : ZReq) (s : State) : Host.Outcome State Fault Refusal := zRow 0xF1 none cmdFwActivate r s

/-- R532: LINK_QUERY. -/
def cmdLinkQuery : ZDo := fun tk _ _ _ s =>
  reply tk .ok ((List.range 8).flatMap (fun k =>
    let x := s.port k
    pay [(x.st.code, 1), (b2n x.mode8023, 1), (x.active, 1), (x.failed, 1), (x.peerMember, 2), (x.peerPort, 1), (0, 1),
      (x.replays, 6), (0, 2)])) s

/-- LINK_QUERY. -/
def execLinkQuery (r : ZReq) (s : State) : Host.Outcome State Fault Refusal := zRow 0xD0 none cmdLinkQuery r s

/-- R532: LINK_CONFIG: what refuses it, and what it does to the port. -/
def linkConfig (f : Nat → Ticket → State → State) : ZDo := fun tk _ _ b s =>
  let k := le b 0 1
  if 8 ≤ k then refuse tk .verifyFailed s
  else if s.fed.federated && s.fed.upstream == k then refuse tk .busy s
  else f k tk s

/-- R508, R510: a port trains in a mode; the reply follows when it is UP or DOWN. -/
def portTrains (mode8023 : Bool) (k : Nat) (tk : Ticket) (s : State) : State :=
  let x := s.port k
  portTo k .training (s.setPort k { x with mode8023 := mode8023, kept := [], pendingCfg := x.pendingCfg ++ [tk] })

/-- R508, R532: LINK_CONFIG of action Courier. -/
def cmdLinkConfigCourier : ZDo := linkConfig (portTrains false)

/-- LINK_CONFIG of action Courier. -/
def execLinkConfigCourier (r : ZReq) (s : State) : Host.Outcome State Fault Refusal := zRow 0xD1 (some 0) cmdLinkConfigCourier r s

/-- R510, R532: LINK_CONFIG of action 802.3. -/
def cmdLinkConfig8023 : ZDo := linkConfig (portTrains true)

/-- LINK_CONFIG of action 802.3. -/
def execLinkConfig8023 (r : ZReq) (s : State) : Host.Outcome State Fault Refusal := zRow 0xD1 (some 1) cmdLinkConfig8023 r s

/-- R508, R532: LINK_CONFIG of action disable. -/
def cmdLinkConfigDisable : ZDo := linkConfig (fun k tk s =>
  let x := s.port k
  let s := s.setPort k { x with kept := [], pendingCfg := x.pendingCfg ++ [tk] }
  portReply k (if x.st == .disabled then s else portTo k .disabled s))

/-- LINK_CONFIG of action disable. -/
def execLinkConfigDisable (r : ZReq) (s : State) : Host.Outcome State Fault Refusal :=
  zRow 0xD1 (some 2) cmdLinkConfigDisable r s

/-- R19, R51, R517, R532: FED_FORM: the package waits to join, or as the datum to adopt its start. -/
def cmdFedForm : ZDo := fun tk _ _ b s =>
  let fed := le b 0 2
  let m := le b 2 2
  let d := le b 4 2
  let up := le b 6 1
  let per := le b 8 4
  let start := le b 16 8
  let isDatum := m == d
  if s.fed.federated || s.fed.forming.isSome then refuse tk .busy s
  else if 8191 < fed || 16383 < m || 16383 < d || (up == 0xFF) != isDatum || (up != 0xFF && 7 < up) then
    refuse tk .verifyFailed s
  else if isDatum && (!periodOk per || start < s.time.postmark) then refuse tk .verifyFailed s
  else if isDatum && periodBusy s per then refuse tk .busy s
  else
    let s := { s with fed := { number := fed, member := m, datum := d, upstream := up, forming := some (tk, start, per) } }
    if isDatum then s else pushChange .fedJoin s

/-- FED_FORM. -/
def execFedForm (r : ZReq) (s : State) : Host.Outcome State Fault Refusal := zRow 0xD2 none cmdFedForm r s

/-- R532: what keeps a package in its federation. -/
def fedBusy (s : State) : Bool :=
  (liveParcels s).any (fun p =>
    let x := s.parcel p
    x.items.any (fun i => i.kind == .coll || (x.planOf i).any (·.peer)) || sealOpen s p)

/-- R532: FED_LEAVE; the change waits for a frame head. -/
def cmdFedLeave : ZDo := fun tk _ _ _ s =>
  if !s.fed.federated then refuse tk .noResource s
  else if fedBusy s then refuse tk .busy s
  else pushChange (.fedLeave tk) s

/-- FED_LEAVE. -/
def execFedLeave (r : ZReq) (s : State) : Host.Outcome State Fault Refusal := zRow 0xD3 none cmdFedLeave r s

/-- R512, R532: ROUTE_SET. -/
def cmdRouteSet : ZDo := fun tk _ _ b s =>
  let first := le b 0 2
  let n := le b 2 2
  if !s.fed.federated then refuse tk .noResource s
  else if 16384 < first + n then refuse tk .verifyFailed s
  else
    let routes := (List.range n).foldl (fun r k => tblPut r (first + k) (le b (8 + k) 1)) s.fed.routes
    reply tk .ok [] { s with fed := { s.fed with routes := routes } }

/-- ROUTE_SET. -/
def execRouteSet (r : ZReq) (s : State) : Host.Outcome State Fault Refusal := zRow 0xD4 none cmdRouteSet r s

/-- R521, R532: MEMBER_RESTORE. -/
def cmdMemberRestore : ZDo := fun tk _ _ b s =>
  let m := le b 0 2
  if !s.fed.lostMembers.contains m then refuse tk .busy s
  else reply tk .ok [] { s with fed := { s.fed with lostMembers := s.fed.lostMembers.filter (· != m) } }

/-- MEMBER_RESTORE. -/
def execMemberRestore (r : ZReq) (s : State) : Host.Outcome State Fault Refusal := zRow 0xD5 none cmdMemberRestore r s

/-- R268, R273: the channels that the LINK descriptors of a plan name. -/
def planChannels (v : Plan) : List Nat :=
  let im := v.image
  (imgIndexList im).flatMap (fun e => (List.range v.segments).flatMap (fun g =>
    let d := imgDir e.2 g
    (List.range (le im (d + 6) 2)).filterMap (fun k =>
      let c := descOf (slice im (e.2 + le im (d + 8) 4 + 64 * k) 64) k 0
      if c.far == 3 then some c.partner else none)))

/-- R532: whether an uncompleted item or a LOCKED group uses a channel. -/
def channelUsed (x : Parcel) (ch : Nat) : Bool :=
  x.items.any (fun i => i.streams.any (fun k => k.1 == ch) || (x.planOf i).any (fun v => (planChannels v).contains ch)
      || i.ops.any (fun o => o.channel == ch) || (i.kind == .update && i.tallyCh == ch)
      || i.groups.any (fun r => gSharded (x.group r.group) && gChannel (x.group r.group) == ch))
    || x.groups.any (fun e => gValid e.2 && gLocked e.2 && gSharded e.2 && gChannel e.2 == ch)

/-- R522: the channel entry of a request. -/
def channelOf (b : List Byte) : Channel := {
  kind := le b 8 1, keySlot := le b 9 1, tenancy := le b 10 1, peerParcel := le b 11 1, peerMember := le b 12 2,
  peerChannel := le b 14 1, timeout := le b 16 2,
  members := if le b 8 1 == 2 then (List.range (le b 18 2)).map (fun k => le b (72 + 3 * k) 3) else [], rank := le b 20 2 }

/-- R522: whether a channel entry is as the rule requires, for a tenancy of a parcel on this member. -/
def channelOk (s : State) (p t : Nat) (c : Channel) : Bool :=
  (c.kind == 1 || c.kind == 2) && (decide (c.keySlot < 4) || c.keySlot == 0xFF) && c.tenancy == t
    && (c.timeout == 0 || (decide (20 ≤ c.timeout) && decide (c.timeout ≤ 500)))
    && (if c.kind == 1 then decide (c.peerParcel < 48) && decide (c.peerMember < 16384)
        else decide (2 ≤ c.members.length) && decide (c.members.length ≤ 16384) && decide (c.rank < c.members.length)
          && c.members.all (fun m => decide (m / 2 ^ 20 = 0) && decide (bits m 19 14 < 48))
          && nth c.members c.rank 0 == s.fed.member + 16384 * p)

/-- R522, R523, R532: CHANNEL_SET of action set: the entry is new, its counters and streams begin at zero. -/
def cmdChannelSet : ZDo := fun tk p t b s =>
  let ch := le b 0 1
  let c := channelOf b
  let x := s.parcel p
  let old := x.chan ch
  if !s.fed.federated then refuse tk .noResource s
  else if !channelOk s p t c || (old.kind != 0 && old.tenancy != t) then refuse tk .verifyFailed s
  else if c.keySlot != 0xFF && (tblGet (x.ten t).keys c.keySlot).isNone then refuse tk .noResource s
  else if channelUsed x ch then refuse tk .busy s
  else reply tk .ok [] (s.setParcel p { x with
    channels := tblPut x.channels ch c, inbox := x.inbox.filter (fun e => e.channel != ch) })

/-- CHANNEL_SET of action set. -/
def execChannelSet (r : ZReq) (s : State) : Host.Outcome State Fault Refusal := zRow 0xD6 (some 0) cmdChannelSet r s

/-- R532: CHANNEL_SET of action free. -/
def cmdChannelFree : ZDo := fun tk p t b s =>
  let ch := le b 0 1
  let x := s.parcel p
  let old := x.chan ch
  if !s.fed.federated then refuse tk .noResource s
  else if old.kind != 0 && old.tenancy != t then refuse tk .verifyFailed s
  else if channelUsed x ch then refuse tk .busy s
  else reply tk .ok [] (s.setParcel p { x with
    channels := tblDel x.channels ch, inbox := x.inbox.filter (fun e => e.channel != ch) })

/-- CHANNEL_SET of action free. -/
def execChannelFree (r : ZReq) (s : State) : Host.Outcome State Fault Refusal := zRow 0xD6 (some 1) cmdChannelFree r s

/-- R522, R532: CHANNEL_QUERY. -/
def cmdChannelQuery : ZDo := fun tk p _ b s =>
  let c := (s.parcel p).chan (le b 0 1)
  reply tk .ok (if c.kind == 0 then zeros 82
    else pay [(c.kind, 1), (c.keySlot, 1), (c.tenancy, 1), (c.peerParcel, 1), (c.peerMember, 2), (c.peerChannel, 1), (0, 1),
      (c.timeout, 2), (c.members.length, 2), (c.rank, 2)] ++ zeros 50 ++ pay [(c.sent, 6), (c.received, 6), (c.authFailed, 6)]) s

/-- CHANNEL_QUERY. -/
def execChannelQuery (r : ZReq) (s : State) : Host.Outcome State Fault Refusal := zRow 0xD7 none cmdChannelQuery r s

/-- R526: the descriptors of a collective request. -/
def collOps (b : List Byte) : List CollOp :=
  (List.range (le b 0 1)).map (fun k =>
    let o := 16 + 32 * k
    { op := le b o 1, fmt := le b (o + 1) 1, outFmt := le b (o + 2) 1, channel := le b (o + 4) 2, root := le b (o + 6) 2,
      src := le b (o + 8) 8, dst := le b (o + 16) 8, count := le b (o + 24) 4 })

/-- R526 to R528, R532: whether a collective descriptor is well formed and its addresses lie in lots of the tenancy. A
GRADIENT descriptor, whose sum is BF16, is so only with OUT_FMT BF16 (DEDUCED, log entry 76). -/
def collOk (x : Parcel) (t : Nat) (o : CollOp) : Bool :=
  let c := x.chan o.channel
  let m := c.members.length
  let chunk := (chunkAt m o.count c.rank).2
  let ins (n : Nat) : Bool := n == 0 || rangeHeld x t o.src (fmtBytes o.fmt * n)
  let out (n : Nat) : Bool := n == 0 || rangeHeld x t o.dst (fmtBytes o.outFmt * n)
  decide (o.channel < 256) && c.kind == 2 && c.tenancy == t && decide (o.fmt < 2) && decide (o.outFmt < 2) &&
    (match o.op with
    | 0 => o.fmt == 0 && ins o.count && out o.count
    | 1 => o.fmt == 0 && ins o.count && out chunk
    | 2 => ins chunk && out o.count
    | 3 => decide (o.root < m) && (c.rank != o.root || ins o.count) && out o.count
    | 4 => o.fmt == 0 && o.outFmt == 0 && o.dst == 0 && decide (o.src < 2 ^ 32) && decide (o.src % 65536 + o.src / 65536 ≤ 4096)
    | _ => false)

/-- R354, R392, R431, R518, R526, R532: COLLECTIVE_SUBMIT: the item is admitted, or completes at admission; in the error state
a sealed parcel's is refused (log entry 74). -/
def cmdCollectiveSubmit : ZDo := fun tk p t b s =>
  let x := s.parcel p
  let ops := collOps b
  let plain := (List.range ops.length).all (fun k => allZero b (19 + 32 * k) 1 && allZero b (44 + 32 * k) 4)
  if !plain || !ops.all (collOk x t) then refuse tk .verifyFailed s
  else if isSealed s p && s.sec.error then refuse tk .internal s
  else if (tenItems s p t).any (fun i => i.kind == .coll) || !roomFor s p t then refuse tk .busy s
  else
    let q := takeSeq p t s
    let i : Item := { seq := q.1, tenancy := t, kind := .coll, gate := le b 4 4, ops := ops }
    let s := q.2.modParcel p (fun x => { x with items := x.items ++ [i], slice := { x.slice with idleFrames := 0 } })
    let s := reply tk .ok (leBytes q.1 4) s
    if ((s.parcel p).ten t).divHold then endItem p q.1 { status := .divergenceHold } 0 true s
    else if !s.fed.aligned then endItem p q.1 { status := .peerLost } 0 true s
    else s

/-- COLLECTIVE_SUBMIT. -/
def execCollectiveSubmit (r : ZReq) (s : State) : Host.Outcome State Fault Refusal := zRow 0xD8 none cmdCollectiveSubmit r s

end Sys2Proof.Machine
end

