-- ==== Sys2Proof/Machine/ZmiAll.lean ====
section
/-! DEFINITION. The command that an opcode and form name (R482, R532), and what arrives as bytes: the inline doorbell
(R474), the tail of the envelope ring (R475), and held commands (R418). -/

namespace Sys2Proof.Machine

/-- R482, R532: the command of an opcode and form; another pair is refused before it gets here. -/
def dispatch (op form : Nat) : ZDo :=
  match op, form with
  | 0x01, _ => cmdHello
  | 0x02, _ => cmdCapsGet
  | 0x10, 0 => cmdParcelCreateNew
  | 0x10, 1 => cmdParcelCreateRestore
  | 0x10, 2 => cmdParcelCreateRestoreDone
  | 0x11, 0 => cmdParcelDestroyReset
  | 0x11, 1 => cmdParcelDestroyRelease
  | 0x12, _ => cmdParcelSeal
  | 0x13, _ => cmdParcelQuery
  | 0x14, 0 => cmdTenancySetWrite
  | 0x14, 1 => cmdTenancySetDeactivate
  | 0x20, _ => cmdPlanLoad
  | 0x21, _ => cmdPlanUnload
  | 0x30, 0 => cmdWeightsLoad
  | 0x30, 1 => cmdWeightsLoadWrapped
  | 0x31, _ => cmdTensorWrite
  | 0x32, _ => cmdTensorRead
  | 0x40, 0 => cmdRingSetupEnable
  | 0x40, 1 => cmdRingSetupDisable
  | 0x41, _ => cmdItemSubmit
  | 0x50, 0 => cmdGroupSetWriteGroup
  | 0x50, 1 => cmdGroupSetReadGroup
  | 0x50, 2 => cmdGroupSetWriteProgram
  | 0x50, 3 => cmdGroupSetReadProgram
  | 0x51, 0 => cmdStepCommitUpdate
  | 0x51, 1 => cmdStepCommitResolveAbort
  | 0x51, 2 => cmdStepCommitClearHold
  | 0x60, 1 => cmdDeedGetParcel
  | 0x60, 2 => cmdDeedGetPackage
  | 0x70, _ => cmdSurveyRead
  | 0x80, 0 => cmdManifestOpAdd
  | 0x80, 1 => cmdManifestOpPause
  | 0x80, 2 => cmdManifestOpResume
  | 0x80, 3 => cmdManifestOpRemove
  | 0x80, 4 => cmdManifestOpRead
  | 0x80, 5 => cmdManifestOpRegister
  | 0x80, 6 => cmdManifestOpUnregister
  | 0x90, _ => cmdTelemetryGet
  | 0x91, _ => cmdPeriodSet
  | 0xA0, 0 => cmdMaintDrainBegin
  | 0xA0, 1 => cmdMaintDrainEnd
  | 0xA1, 0 => cmdHbmRepairList
  | 0xA1, 1 => cmdHbmRepairRow
  | 0xA1, 2 => cmdHbmRepairLane
  | 0xA2, _ => cmdHbmMargin
  | 0xB0, _ => cmdFenceQuery
  | 0xB1, _ => cmdReservePromote
  | 0xC0, _ => cmdEventRead
  | 0xD0, _ => cmdLinkQuery
  | 0xD1, 0 => cmdLinkConfigCourier
  | 0xD1, 1 => cmdLinkConfig8023
  | 0xD1, 2 => cmdLinkConfigDisable
  | 0xD2, _ => cmdFedForm
  | 0xD3, _ => cmdFedLeave
  | 0xD4, _ => cmdRouteSet
  | 0xD5, _ => cmdMemberRestore
  | 0xD6, 0 => cmdChannelSet
  | 0xD6, 1 => cmdChannelFree
  | 0xD7, _ => cmdChannelQuery
  | 0xD8, _ => cmdCollectiveSubmit
  | 0xF0, _ => cmdFwStage
  | 0xF1, _ => cmdFwActivate
  | _, _ => fun tk _ _ _ s => refuse tk .badOpcode s

/-- R474, R476: an inline request, taken at the doorbell write from the request area. -/
def takeInline (n : Nat) (s : State) : State := zRun dispatch { block := n, env := (s.block n).inlineReq } s

/-- R475, R476, R590: takes up to k slots of a block's envelope ring in order; a slot whose read fails stays
untaken (log entry 40). -/
def takeSlots (n : Nat) : Nat → State → State
  | 0, s => s
  | k + 1, s =>
    let b := s.block n
    if !b.enable || !b.envRing || b.envNext == b.env.tail then s
    else match hostRead s n (b.env.addr b.envNext 2048) 1024 with
      | none => ringFail n s
      | some e => takeSlots n k (zRun dispatch { block := n, slot := some b.envNext, env := e } s)

/-- R418, R419, R484, R492: HELD_COMMAND_PERFORM: the command of the running tenancy that was accepted first is performed, a
suspended one from where it stopped, and answered; in a frame head at which its slice expires it waits for the next slice. -/
def execHeldCommandPerform (parcel : Nat) (s : State) : Host.Outcome State Fault Refusal :=
  let x := s.parcel parcel
  let t := x.running
  match (x.ten t).held with
  | [] => .next s
  | h :: r =>
    if !mayPerform s parcel t || (inHead s && sliceDue s x) then .next s
    else
      let s := s.modTen parcel t (fun y => { y with held := r })
      match h.susp with
      | none => if staleTicket s h.tk then fin (dropReply h.tk s) else fin (dispatch h.tk.op h.form h.tk parcel t h.payload s)
      | some u => match onePart h.tk h.form parcel t h.payload u none s with
        | .ends s => fin s
        | .stops _ s => fin s

end Sys2Proof.Machine
end

