-- ==== Sys2Proof/Machine/Tdisp.lean ====
section
/-! DEFINITION. What happens when a VF leaves the TDISP state RUN (12 R441, R442, R453). -/

namespace Sys2Proof.Machine

/-- R442: an update item of a tenancy whose VF has left RUN: its groups that have not voted end FAIL_SECURITY; a shard
that has voted waits for its decision (R386), and the item completes after it (log entry 42). -/
def updSecurity (p : Nat) (i : Item) (ev : Nat) (s : State) : State :=
  let s := s.modItem p i.seq (fun i => { i with tallyOver := true })
  let s := i.groups.foldl (fun s q =>
      match runOfGroup s p q.group with
      | none => s
      | some (_, r) =>
        let ge := (s.parcel p).group r.group
        let open_ := r.phase == .wait || r.phase == .pass1 || r.phase == .norm || r.phase == .pass2 ||
          (r.phase == .voted && gShard ge == 0)
        if r.phase == .pass2 && !gSharded ge then
          let d := draw s
          let s := pass2Torn (whoOf p i) r (Config.freeNat d.1 % chunkCount ge) d.2
          finishGroup p i.seq r.group .security 0 true (modRun p i.seq r.group (fun r => { r with torn := true, ev := ev }) s)
        else if open_ then
          finishGroup p i.seq r.group .security 0 false (modRun p i.seq r.group (fun r => { r with ev := ev }) s)
        else s) s
  match (s.parcel p).item i.seq with
  | some j => if j.groups.all (·.isDone) then updateSecurity p j ev s else s
  | none => s

/-- R442: one item of a tenancy whose VF has left RUN. -/
def itemSecurity (p ev : Nat) (i : Item) (s : State) : State :=
  match i.kind with
  | .plan | .batch _ => failItem p i.seq { status := .security, seg := if i.begun then i.seg else 0xFFFF } ev s
  | .update => updSecurity p i ev s
  | .coll => collFail p i.seq .security 0 ev true s

/-- R431, R453: the security module enters its error state: the items of sealed parcels end FAIL_SECURITY, and every pending
PARCEL_SEAL is answered INTERNAL. -/
def enterError (s : State) : State :=
  let s := recordM evSecurity 4 (pay [(1, 1), (0, 3)]) { s with sec := { s.sec with error := true } }
  (liveParcels s).foldl (fun s p =>
    let s := if isSealed s p then
        (s.parcel p).items.foldl (fun s i => itemSecurity p (tenTail s p i.tenancy) i s) s else s
    if (s.parcel p).sealPending then sealAnswer p .internal s else s) s

/-- Sets the TDISP state of a VF. -/
def setTdisp (vf : Nat) (x : Tdisp) (s : State) : State :=
  { s with pcie := { s.pcie with tdisp := tblPut s.pcie.tdisp vf x } }

/-- R442: what the device interface report of a VF lists: the bytes of its BAR0, and where its mailbox block and its doorbell
page lie in it, with their sizes (R469). -/
def interfaceReport : Nat × List (Nat × Nat) := (65536, [(0x0000, 0x1000), (0x8000, 0x100)])

/-- The TDISP state of a VF. -/
def tdispOf (s : State) (vf : Nat) : Tdisp := (tblGet s.pcie.tdisp vf).getD .unlocked

/-- R442: whether a VF exists: SR-IOV has enabled it. -/
def vfExists (s : State) (vf : Nat) : Bool := vf != 0 && blockFn s vf == vf

/-- R441, R442, R453, R552: a VF goes to a TDISP state other than RUN; if it was in RUN, its tenancy's keys are zeroized,
and a tenancy of a sealed or seal-pending parcel loses its session, its items and its mailbox. -/
def leaveRun (vf : Nat) (x : Tdisp) (s : State) : State :=
  let was := tdispOf s vf == .run
  let s := setTdisp vf x s
  if !was then s
  else match (if blockFn s vf == vf then boundTo s vf else none) with
    | none => recordM evSecurity 4 (pay [(4, 1), (0, 3)]) s
    | some (p, t) =>
      let hard := sealedOrPending s p
      let pend := (s.parcel p).sealPending
      let s := s.modTen p t (fun x => { x with keys := [] })
      let b := pay [(4, 1), (0, 3)]
      let s := recordP evSecurity p t 0xFFFFFFFF 4 b b s
      if !hard then s
      else
        let ev := tenTail s p t
        let s := (tenItems s p t).foldl (fun s i => itemSecurity p ev i s) s
        let s := endSpdm vf (s.modTen p t (fun x => { x with barred := true }))
        if pend then sealAnswer p .notPrivileged s else s

end Sys2Proof.Machine
end

