-- ==== Sys2Proof/Machine/Host.lean ====
section
/-! DEFINITION. What the host does to the functions (13 R466 to R474, R486, R490, R491; 14 R495 to R503; 15 R555):
register writes, doorbells, BAR2, configuration writes, function-level resets and ATS invalidations. -/

namespace Sys2Proof.Machine

/-- R496: whether the functions answer the host: the link is up and the configuration space is ready. -/
def hostUp (s : State) : Bool := s.power.good && s.pcie.linkUp && s.pcie.cfgReady

/-- R496: whether the link is up and the configuration space not yet ready. -/
def hostRetry (s : State) : Bool := s.power.good && s.pcie.linkUp && !s.pcie.cfgReady

/-- R451: whether a block is bound to a tenancy of a parcel that is sealed or seal-pending. -/
def blockSealed (s : State) (n : Nat) : Bool :=
  match boundTo s n with
  | some (p, _) => sealedOrPending s p
  | none => false

/-- R451, R466, R496: whether a write of a function to a block or its doorbell page is performed. -/
def regOpen (s : State) (fn n : Nat) : Bool :=
  hostUp s && s.power.ready && decide (n < 64) && blockFn s n == fn && !(fn == 0 && blockSealed s n)

/-- R474: a head or tail write that is refused. -/
def ringError (n : Nat) (s : State) : State := setIrq n irqRingError s

/-- R474, R490, R590: a write of MBX_REQ_TAIL. -/
def wrReqTail (n v : Nat) (s : State) : State := (setReqTail n v s).getD (ringError n s)

/-- R474, R475: a write of MBX_ENV_TAIL: the slots it passes are taken in order. -/
def wrEnvTail (n v : Nat) (s : State) : State :=
  match (s.block n).env.moveTail v with
  | none => ringError n s
  | some r => takeSlots n 256 (s.setBlock n { s.block n with env := r })

/-- R474, R486, R590: a write of MBX_CPL_HEAD: the overflow queue drains. -/
def wrCplHead (n v : Nat) (s : State) : State :=
  match (s.block n).cpl.moveHead v with
  | none => ringError n s
  | some r =>
    let s := s.setBlock n { s.block n with cpl := r, cplStopped := false }
    match boundTo s n with
    | some (p, t) => drainCpl p t n ((s.parcel p).ten t).cplQ.length s
    | none => s

/-- R474, R486, R590: a write of MBX_DLR_HEAD: the overflow queue drains, and completions that waited for it follow. -/
def wrDlrHead (n v : Nat) (s : State) : State :=
  match (s.block n).dlr.moveHead v with
  | none => ringError n s
  | some r =>
    let s := s.setBlock n { s.block n with dlr := r, dlrStopped := false }
    match boundTo s n with
    | some (p, t) => drainRings p t s
    | none => s

/-- R467, R469: a write of MBX_CTRL: clearing ENABLE ends the session. -/
def wrCtrl (n v : Nat) (s : State) : State :=
  if bit v 0 then takeSlots n 256 (s.modBlock n (fun b => { b with enable := true }))
  else (endSession n s).modBlock n (fun b => { b with enable := false })

/-- R10, R12: a write of ones to MBX_IRQ_STATUS clears the bits, but for those that hardware sets in the same cycle. -/
def wrIrqStatus (n : Nat) (v : W1c) (s : State) : State :=
  s.modBlock n (fun b => { b with irqStatus := mapOf ((bitsSet b.irqStatus 8).filter (fun k => !bit v.v k || bit v.hw k)) })

/-- R460, R491: one message of a block's source, for a sealed parcel at the following frame head. -/
def sendMask (n k : Nat) (s : State) : State :=
  match boundTo s n with
  | some (p, _) => if isSealed s p then { s with delayed := s.delayed ++ [(p, s.time.postmark, .msg n k)] } else blockMsix n k s
  | none => blockMsix n k s

/-- R491: a write of MBX_IRQ_MASK: each bit already set that it unmasks sends a message. -/
def wrIrqMask (n v : Nat) (s : State) : State :=
  let b := s.block n
  let s := s.setBlock n { b with irqMask := v % 256 }
  ((List.range 8).filter (fun k => bit b.irqMask k && !bit v k && bit b.irqStatus k)).foldl (fun s k => sendMask n k s) s

/-- R474: the doorbell: an inline request is taken, or refused while one is in progress. -/
def wrDoorbell (n v : Nat) (s : State) : State :=
  let b := s.block n
  if !bit v 0 || !b.enable then s
  else if b.inlineBusy then ringError n s
  else takeInline n s

/-- A row that writes one mailbox register, and its end. -/
def regRow (fn n : Nat) (f : State → State) (s : State) : Host.Outcome State Fault Refusal :=
  if regOpen s fn n then fin (f s) else .next s

/-- MBX_DOORBELL_INLINE (R474). -/
def execMbxDoorbellInline (fn block value : Nat) (s : State) : Host.Outcome State Fault Refusal :=
  regRow fn block (wrDoorbell block value) s

/-- REQ_TAIL_WRITE (R474), through the register or the doorbell page. -/
def execReqTailWrite (fn block value : Nat) (s : State) : Host.Outcome State Fault Refusal :=
  regRow fn block (wrReqTail block value) s

/-- ENV_TAIL_WRITE (R475). -/
def execEnvTailWrite (fn block value : Nat) (s : State) : Host.Outcome State Fault Refusal :=
  regRow fn block (wrEnvTail block value) s

/-- CPL_HEAD_WRITE (R486). -/
def execCplHeadWrite (fn block value : Nat) (s : State) : Host.Outcome State Fault Refusal :=
  regRow fn block (wrCplHead block value) s

/-- DLR_HEAD_WRITE (R486). -/
def execDlrHeadWrite (fn block value : Nat) (s : State) : Host.Outcome State Fault Refusal :=
  regRow fn block (wrDlrHead block value) s

/-- MBX_CTRL_WRITE (R467). -/
def execMbxCtrlWrite (fn block value : Nat) (s : State) : Host.Outcome State Fault Refusal :=
  regRow fn block (wrCtrl block value) s

/-- MBX_IRQ_STATUS_WRITE (R10, R12). -/
def execMbxIrqStatusWrite (fn block : Nat) (value : W1c) (s : State) : Host.Outcome State Fault Refusal :=
  regRow fn block (wrIrqStatus block value) s

/-- MBX_IRQ_MASK_WRITE (R491). -/
def execMbxIrqMaskWrite (fn block value : Nat) (s : State) : Host.Outcome State Fault Refusal :=
  regRow fn block (wrIrqMask block value) s

/-- R555: a write of EVLOG_HEAD: below the current value or above TAIL it is ignored. -/
def wrEvlogHead (v : Nat) (s : State) : State :=
  if v < s.pfLog.head || s.pfLog.tail < v then s else { s with pfLog := { s.pfLog with head := v } }

/-- EVLOG_HEAD_WRITE (R555). -/
def execEvlogHeadWrite (value : Nat) (s : State) : Host.Outcome State Fault Refusal :=
  .next (if hostUp s then wrEvlogHead value s else s)

/-- A register of 32 bits after a write of some of its bytes. -/
def merge32 (old o : Nat) (bs : List Byte) : Nat := leNat (overlay (leBytes old 4) o bs)

/-- R14, R469: a write of a ring's base or size registers: RWL fields. -/
def wrRingReg (n o sub : Nat) (bs : List Byte) (s : State) : State :=
  if blockSealed s n then s
  else
    let f (r : Ring) : Ring :=
      match o % 32 with
      | 0 => { r with base := r.base / 2 ^ 32 * 2 ^ 32 + merge32 (r.base % 2 ^ 32) sub bs / 4096 * 4096 }
      | 4 => { r with base := merge32 (r.base / 2 ^ 32) sub bs * 2 ^ 32 + r.base % 2 ^ 32 }
      | 8 => { r with log2 := merge32 r.log2 sub bs % 32 }
      | _ => r
    s.modBlock n (fun b =>
      match (o - 0x20) / 32 with
      | 0 => { b with req := f b.req }
      | 1 => { b with cpl := f b.cpl }
      | 2 => { b with dlr := f b.dlr }
      | _ => { b with env := f b.env })

/-- R469, R474: a write of some bytes of the 32-bit word at an offset of a mailbox block. -/
def wrBlock (n o sub : Nat) (bs : List Byte) (hw : Nat) (s : State) : State :=
  let b := s.block n
  let fresh := merge32 0 sub bs
  if o == 0x08 then wrCtrl n (merge32 (b2n b.enable) sub bs) s
  else if o == 0x10 then wrDoorbell n fresh s
  else if o == 0x14 then wrIrqStatus n ⟨fresh, hw⟩ s
  else if o == 0x18 then wrIrqMask n (merge32 b.irqMask sub bs) s
  else if o == 0x30 then wrReqTail n (merge32 b.req.tail sub bs) s
  else if o == 0x4C then wrCplHead n (merge32 b.cpl.head sub bs) s
  else if o == 0x6C then wrDlrHead n (merge32 b.dlr.head sub bs) s
  else if o == 0x90 then wrEnvTail n (merge32 b.env.tail sub bs) s
  else if 0x20 ≤ o && decide (o < 0xA0) then wrRingReg n o sub bs s
  else if 0x100 ≤ o && decide (o < 0x500) then
    if b.inlineBusy then s else s.setBlock n { b with inlineReq := overlay b.inlineReq (o - 0x100 + sub) bs }
  else s

/-- R469: a write of some bytes of the word at an offset of a doorbell page. -/
def wrPage (n o sub : Nat) (bs : List Byte) (s : State) : State :=
  let v := merge32 0 sub bs
  match o with
  | 0x00 => wrReqTail n v s
  | 0x04 => wrCplHead n v s
  | 0x08 => wrDlrHead n v s
  | 0x0C => wrEnvTail n v s
  | _ => s

/-- R491, R503: a write to the MSI-X table of a function; unmasking a vector with its pending bit set sends its message. -/
def wrMsix (fn o : Nat) (bs : List Byte) (s : State) : State :=
  let v := o / 16
  let k := 4096 * fn + v
  let old := (tblGet s.pcie.msix k).getD msixEntry
  let new := overlay old (o % 16) bs
  let s := { s with pcie := { s.pcie with msix := tblPut s.pcie.msix k new } }
  if bit (le old 12 4) 0 && !bit (le new 12 4) 0 && s.pcie.msixPending.contains (fn, v) then
    msix fn v { s with pcie := { s.pcie with msixPending := s.pcie.msixPending.filter (· != (fn, v)) } }
  else s

/-- R498: the bits of a BAR2 window entry that are not reserved. -/
def windowBits (x : Nat) : Nat := bits x 63 62 * 2 ^ 62 + bits x 25 16 * 2 ^ 16 + bits x 5 0

/-- R12, R498: a write of some bytes of a word of PF BAR0 outside the mailbox blocks; `hw` are the bits of the word that
hardware sets in the same cycle. -/
def wrPf (o sub : Nat) (bs : List Byte) (hw : Nat) (s : State) : State :=
  if o == 0x1000 then
    if bit (merge32 0 sub bs) 15 && !bit hw 15 then { s with pcie := { s.pcie with bar2Miss := false } } else s
  else if o == 0x1004 then
    { s with pcie := { s.pcie with bar2En := bit (merge32 (b2n s.pcie.bar2En) sub bs) 0 } }
  else if 0x2000 ≤ o && decide (o < 0x2200) then
    let w := (o - 0x2000) / 8
    let old := (tblGet s.pcie.windows w).getD 0
    let new := windowBits (leNat (overlay (leBytes old 8) (o % 8 + sub) bs))
    let again := bit new 63 && decide (o % 8 + sub ≤ 7) && decide (7 < o % 8 + sub + bs.length)
    { s with pcie := { s.pcie with
        windows := tblPut s.pcie.windows w new, lapsed := if again then s.pcie.lapsed.filter (· != w) else s.pcie.lapsed } }
  else if 0x300000 ≤ o && decide (o < 0x308000) then wrMsix 0 (o - 0x300000 + sub) bs s
  else s

/-- R466, R498, R502: a write of some bytes of the 32-bit word at an offset of a function's BAR0. -/
def wrWord (fn o sub : Nat) (bs : List Byte) (hw : Nat) (s : State) : State :=
  if fn == 0 then
    if 0x10000 ≤ o && decide (o < 0x50000) then
      let n := (o - 0x10000) / 4096
      if regOpen s 0 n then wrBlock n (o % 4096) sub bs hw s else s
    else if 0x80000 ≤ o && decide (o < 0x84000) then
      let n := (o - 0x80000) / 256
      if regOpen s 0 n then wrPage n (o % 256) sub bs s else s
    else wrPf o sub bs hw s
  else if blockFn s fn != fn then s
  else if o < 0x1000 then if regOpen s fn fn then wrBlock fn o sub bs hw s else s
  else if 0x8000 ≤ o && decide (o < 0x8100) then if regOpen s fn fn then wrPage fn (o - 0x8000) sub bs s else s
  else if 0xC000 ≤ o && decide (o < 0xC200) then wrMsix fn (o - 0xC000 + sub) bs s
  else s

/-- The words that bytes from an offset touch: offset of the word, offset within it, bytes. -/
def splitWords (o : Nat) (bs : List Byte) : List (Nat × Nat × List Byte) :=
  (List.range ((o % 4 + bs.length + 3) / 4)).map (fun k =>
    let w := o / 4 * 4 + 4 * k
    let lo := max o w
    (w, lo - w, (bs.drop (lo - o)).take (w + 4 - lo)))

/-- R10 to R12, R14, R498: REGISTER_WRITE: a write of some bytes at an offset of a function's BAR0. -/
def execRegisterWrite (fn offset width : Nat) (value : W1c) (s : State) : Host.Outcome State Fault Refusal :=
  let bs := leBytes value.v width
  if !hostUp s then .next s
  else if fn == 0 && decide (0x200008 ≤ offset) && decide (offset < 0x200010) then
    fin (wrEvlogHead (leNat (overlay (leBytes s.pfLog.head 8) (offset - 0x200008) bs)) s)
  else fin ((splitWords offset bs).foldl (fun s w => wrWord fn w.1 w.2.1 w.2.2 value.hw s) s)

/-- What a BAR2 access meets (R496, R501): whether it is performed, and on which address; whether it sets BAR2_MISS. -/
inductive Bar2 where
  | go (p t v : Nat)
  | quiet
  | miss
  deriving DecidableEq, Repr

/-- R451, R496, R499, R501: what an access of a byte of BAR2 meets. -/
def bar2At (s : State) (a : Nat) (write : Bool) : Bar2 :=
  let e := (tblGet s.pcie.windows (a / 2 ^ 30)).getD 0
  let p := bits e 5 0
  let x := s.parcel p
  let slot := bits e 25 16
  match (if s.pcie.bar2En && bit e 63 && !s.pcie.lapsed.contains (a / 2 ^ 30) then some () else none) with
  | none => .miss
  | some _ =>
    if sealedOrPending s p then .quiet
    else if 48 ≤ p || x.state == .free || x.state == .releasing || s.power.drainOn || s.power.holdOn then .miss
    else match tblGet x.lots ((tblGet x.live slot).getD slot) with
      | none => .miss
      | some l => if write && (!bit e 62 || l.plan) then .miss
        else if s.power.ready then .go p l.owner (slot * 2 ^ 30 + a % 2 ^ 30) else .quiet

/-- R501: a BAR2 access that found nothing. -/
def bar2Miss (s : State) : State := { s with pcie := { s.pcie with bar2Miss := true } }

/-- R499 to R501: reads the pieces of a BAR2 access: the bytes, and whether the completion is poisoned. -/
def bar2Pieces : List (Nat × Nat) → List Byte → Bool → State → List Byte × Bool × State
  | [], acc, bad, s => (acc, bad, s)
  | (a, n) :: r, acc, bad, s =>
    match bar2At s a false with
    | .quiet => bar2Pieces r (acc ++ zeros n) bad s
    | .miss => bar2Pieces r (acc ++ zeros n) bad (bar2Miss s)
    | .go p t v =>
      let x := pvRead p t v n false (zCtx t) s
      if x.1 == .ok then bar2Pieces r (acc ++ x.2.2.1) bad x.2.2.2 else bar2Pieces r acc true x.2.2.2

/-- BAR2_READ (R499 to R501): the completion shows the bytes, or is poisoned. -/
def execBar2Read (addr len : Nat) (s : State) : Host.Outcome State Fault Refusal :=
  if !hostUp s then .next s
  else
    let x := bar2Pieces (pieces addr len) [] false s
    fin { x.2.2 with outputs := x.2.2.outputs ++ [.bar2 (if x.2.1 then none else some x.1)] }

/-- R499 to R501: writes the pieces of a BAR2 access. -/
def bar2Puts : List (Nat × Nat) → List Byte → State → State
  | [], _, s => s
  | (a, n) :: r, bs, s =>
    match bar2At s a true with
    | .quiet => bar2Puts r (bs.drop n) s
    | .miss => bar2Puts r (bs.drop n) (bar2Miss s)
    | .go p t v => bar2Puts r (bs.drop n) (pvWrite p t v (bs.take n) false (zWriter p) (zCtx t) s).2.2.2

/-- BAR2_WRITE (R499 to R501). -/
def execBar2Write (addr : Nat) (data : List Byte) (s : State) : Host.Outcome State Fault Refusal :=
  if !hostUp s then .next s else fin (bar2Puts (pieces addr data.length) data s)

/-- ATS_INVALIDATE (R495): every access that used the translation has completed, and the completion goes out. -/
def execAtsInvalidate (fn addr : Nat) (s : State) : Host.Outcome State Fault Refusal :=
  if hostUp s && s.pcie.atsOn.contains fn then .next { s with outputs := s.outputs ++ [.atsDone fn addr] } else .next s

/-- R467, R497: the mailbox registers of a block at a function-level reset: ring settings and indices, and what a request
in progress needs, stay. -/
def flrBlock (n : Nat) (s : State) : State :=
  let s := (endSession n s).modBlock n (fun b => { b with
    enable := false, irqStatus := 0, irqMask := 0xFF, itemRings := false, envRing := false
    inlineReq := zeros 1024, inlineRpl := zeros 1024 })
  { s with delayed := s.delayed.filter (fun d => match d.2.2 with
      | .irq m _ | .msg m _ => m != n
      | _ => true) }

/-- What a VF that SR-IOV takes away loses: its TDISP state, its SPDM session, its IDE stream, ATS and its vectors. -/
def dropVf (vf : Nat) (s : State) : State :=
  let s := endSpdm vf (leaveRun vf .unlocked s)
  { s with pcie := { s.pcie with
      ide := s.pcie.ide.filter (fun e => e.1 != vf), atsOn := s.pcie.atsOn.filter (· != vf),
      spdmConn := tblDel s.pcie.spdmConn vf,
      msix := s.pcie.msix.filter (fun e => e.1 / 4096 != vf), msixPending := s.pcie.msixPending.filter (fun e => e.1 != vf) } }

/-- R442, R466, R467: a change of SR-IOV NumVFs and VF Enable: VFs that go leave RUN, and the session of every block that
is reassigned ends. -/
def setVfs (num : Nat) (en : Bool) (s : State) : State :=
  let after (n : Nat) : Nat := if n != 0 && en && n ≤ num then n else 0
  let moved := (List.range 64).filter (fun n => blockFn s n != after n)
  let s := (moved.filter (fun n => blockFn s n == n && n != 0)).foldl (fun s n => dropVf n s) s
  let s := moved.foldl (fun s n => endSession n s) s
  { s with pcie := { s.pcie with numVfs := num, vfEnable := en } }

/-- FLR_PF (R497): VF Enable, the BAR2 windows and GLOBAL_CTRL are cleared, and every block is reset. -/
def execFlrPf (s : State) : Host.Outcome State Fault Refusal :=
  if !hostUp s then .next s
  else
    let s := setVfs s.pcie.numVfs false s
    let s := (List.range 64).foldl (fun s n => flrBlock n s) s
    fin { s with pcie := { s.pcie with
      windows := [], lapsed := [], bar2En := false, msix := s.pcie.msix.filter (fun e => e.1 / 4096 != 0)
      msixPending := s.pcie.msixPending.filter (fun e => e.1 != 0), atsOn := [] } }

/-- FLR_VF (R442, R490, R497): the VF's own block is reset, and the VF leaves RUN. -/
def execFlrVf (vf : Nat) (s : State) : Host.Outcome State Fault Refusal :=
  if !hostUp s || !vfExists s vf then .next s
  else
    let s := flrBlock vf (leaveRun vf .unlocked s)
    fin { s with pcie := { s.pcie with
      atsOn := s.pcie.atsOn.filter (· != vf), msix := s.pcie.msix.filter (fun e => e.1 / 4096 != vf)
      msixPending := s.pcie.msixPending.filter (fun e => e.1 != vf) } }

/-- The configuration offsets of Device Control, SR-IOV Control, NumVFs and ATS Control, which the manual does not give (log
entry 43). -/
def cfgDevControl : Nat := 0x048
def cfgSriovControl : Nat := 0x208
def cfgNumVfs : Nat := 0x210
def cfgAtsControl : Nat := 0x306

/-- R493: Device Control holds no Max Payload Size above 512 B (code 2) and no Max Read Request Size above 4,096 B (code 5). -/
def devControl (v : Nat) : Nat :=
  v % 32 + min 2 (bits v 7 5) * 32 + bits v 11 8 * 256 + min 5 (bits v 14 12) * 4096 + bits v 15 15 * 32768

/-- CONFIGURATION_WRITE (R442, R466, R467, R493, R495, R496): SR-IOV and ATS control; any write to a VF that is locked or runs
sends it to ERROR. Before the configuration space is ready the answer is Request Retry Status. -/
def execConfigurationWrite (fn offset value : Nat) (s : State) : Host.Outcome State Fault Refusal :=
  if hostRetry s && decide (fn < 64) then .next { s with outputs := s.outputs ++ [.retryStatus fn] }
  else if !hostUp s || (fn != 0 && !vfExists s fn) then .next s
  else
    let locked := fn != 0 && (tdispOf s fn == .locked || tdispOf s fn == .run)
    let s := if locked then leaveRun fn .error s else s
    let s := if fn == 0 && offset == cfgNumVfs then setVfs (min value 63) s.pcie.vfEnable s
      else if fn == 0 && offset == cfgSriovControl then setVfs s.pcie.numVfs (bit value 0) s
      else if offset == cfgAtsControl then
        let rest := s.pcie.atsOn.filter (· != fn)
        { s with pcie := { s.pcie with atsOn := if bit value 15 then fn :: rest else rest } }
      else
        let v := if offset == cfgDevControl then devControl value else value
        { s with pcie := { s.pcie with cfg := tblPut s.pcie.cfg (4096 * fn + offset) v } }
    fin s

end Sys2Proof.Machine
end

