-- ==== Sys2Proof/Machine/Secure.lean ====
section
/-! DEFINITION. The security module towards its partners (12 R436 to R442, 14 R493): SPDM requests, vendor-defined
requests, TDISP, IDE keys and debug tokens. -/

namespace Sys2Proof.Machine

/-- R437, R583: whether an endpoint's SPDM responder answers. -/
def spdmReach (s : State) (e : Nat) : Bool :=
  s.power.ready && (e == 64 || (hostUp s && (e == 0 || vfExists s e)))

/-- An SPDM message of an endpoint goes out. -/
def spdmOut (e : Nat) (msg : List Byte) (s : State) : State := { s with outputs := s.outputs ++ [.spdm e msg] }

/-- The header of an SPDM 1.3 response. -/
def spdmHead (code p1 p2 : Nat) : List Byte := pay [(0x13, 1), (code, 1), (p1, 1), (p2, 1)]

/-- An SPDM ERROR response (log entry 44). -/
def spdmError (e code : Nat) (s : State) : State := spdmOut e (spdmHead 0x7F code 0) s

/-- Bytes of an SPDM response that the manual does not fix. -/
def spdmFree (code : Nat) (msg : List Byte) (s : State) : List Byte × State :=
  let d := draw s
  (Config.spdmBytes code msg d.1, d.2)

/-- R430: 32 random bytes. -/
def randomBytes (s : State) : List Byte × State :=
  let d := draw s
  ((drbgNext (drbgAt d.1)).1, d.2)

/-- R432, R437: the signature of an SPDM response under the alias key, r then s, each most significant byte first. -/
def spdmSign (code : Nat) (msg : List Byte) (s : State) : List Byte × State :=
  let d := draw s
  let g := signWith s.sec.aliasKey d.1 (Config.spdmDigest code msg d.1)
  (beBytes g.1 32 ++ beBytes g.2 32, d.2)

/-- The session of an endpoint. -/
def spdmOf (s : State) (e : Nat) : Option Spdm := tblGet s.pcie.spdm e

/-- How far an endpoint's connection has got: 1 after GET_VERSION, 2 after GET_CAPABILITIES, 3 after
NEGOTIATE_ALGORITHMS. -/
def spdmConn (s : State) (e : Nat) : Nat := (tblGet s.pcie.spdmConn e).getD 0

/-- Sets how far a connection has got. -/
def setConn (e k : Nat) (s : State) : State := { s with pcie := { s.pcie with spdmConn := tblPut s.pcie.spdmConn e k } }

/-- Sets the session of an endpoint. -/
def setSpdm (e : Nat) (x : Spdm) (s : State) : State := { s with pcie := { s.pcie with spdm := tblPut s.pcie.spdm e x } }

/-- A row of an SPDM request: of its code, from an endpoint that is answered; one of another SPDM version, or before the
connection has got as far as it needs, is answered ERROR, as is one that needs a key in the error state (R431). -/
def spdmRow (code need : Nat) (keyed : Bool) (r : SpdmReq) (f : State → State) (s : State) :
    Host.Outcome State Fault Refusal :=
  let e := r.endpoint
  if !spdmReach s e || le r.msg 1 1 != code then .next s
  else if le r.msg 0 1 != (if code == 0x84 then 0x10 else 0x13) then .next (spdmError e 0x41 s)
  else if spdmConn s e < need then .next (spdmError e 0x04 s)
  else if keyed && s.sec.error then .next (spdmError e 0x05 s)
  else fin (f s)

/-- GET_VERSION (R437): SPDM 1.3 only. -/
def execGetVersion (r : SpdmReq) (s : State) : Host.Outcome State Fault Refusal :=
  spdmRow 0x84 0 false r (fun s =>
    spdmOut r.endpoint (pay [(0x10, 1), (0x04, 1), (0, 2), (0, 1), (1, 1), (0x1300, 2)]) (setConn r.endpoint 1 s)) s

/-- R437: the capability flags of the responder: certificates, challenge, signed measurements, encryption, authentication,
mutual authentication, key exchange, heartbeat and key update are there, pre-shared keys are not; the manual does not give
the other bits. -/
def spdmFlags : Nat := 0x63D6 ||| (le (Config.spdmBytes 0xE1 [] 0) 0 4 &&& 0xFFFF9021)

/-- GET_CAPABILITIES (R437). -/
def execGetCapabilities (r : SpdmReq) (s : State) : Host.Outcome State Fault Refusal :=
  spdmRow 0xE1 1 false r (fun s =>
    spdmOut r.endpoint (spdmHead 0x61 0 0 ++ zeros 1 ++ slice (Config.spdmBytes 0xE1 [] 1) 0 1 ++ zeros 2
      ++ pay [(spdmFlags, 4)] ++ slice (Config.spdmBytes 0xE1 [] 2) 0 8) (setConn r.endpoint 2 s)) s

/-- R437: what the responder takes of an offer in an algorithm structure: ECDH on P-256 (2), AES-256-GCM (3), ECDSA P-256 of
a requester that authenticates itself (4) and the SPDM key schedule (5). -/
def spdmPick (kind offer : Nat) : Nat :=
  offer &&& nth [8, 2, 16, 1] (kind - 2) 0

/-- NEGOTIATE_ALGORITHMS (R437): ECDSA P-256 and SHA-256 alone; a request that does not offer both is answered ERROR, and
where the request's structures begin follows from its counts of further algorithms (log entry 44). -/
def execNegotiateAlgorithms (r : SpdmReq) (s : State) : Host.Outcome State Fault Refusal :=
  spdmRow 0xE3 2 false r (fun s =>
    let m := r.msg
    let n := le m 2 1
    let o := 32 + 4 * (le m 28 1 + le m 29 1)
    if !bit (le m 8 4) 4 || !bit (le m 12 4) 0 then spdmError r.endpoint 0x01 s
    else spdmOut r.endpoint (spdmHead 0x63 n 0 ++ pay [(36 + 4 * n, 2)] ++ slice (Config.spdmBytes 0xE3 m 0) 0 2
        ++ pay [(2, 4), (16, 4), (1, 4), (0, 11)] ++ slice (Config.spdmBytes 0xE3 m 1) 0 1 ++ zeros 4
        ++ (List.range n).flatMap (fun k =>
          let kind := le m (o + 4 * k) 1
          pay [(kind, 1), (0x20, 1), (spdmPick kind (le m (o + 4 * k + 2) 2), 2)]))
      (setConn r.endpoint 3 s)) s

/-- R436: the chain of certificate slot 0. -/
def slotZero (s : State) : List Byte := certChain s.sec.aliasCert

/-- GET_DIGESTS (R436): slot 0 alone is provisioned. -/
def execGetDigests (r : SpdmReq) (s : State) : Host.Outcome State Fault Refusal :=
  spdmRow 0x81 3 false r (fun s =>
    spdmOut r.endpoint (spdmHead 0x01 1 1 ++ sha256 (slotZero s)) s) s

/-- GET_CERTIFICATE (R436): a portion of the chain in slot 0; no other slot is provisioned. -/
def execGetCertificate (r : SpdmReq) (s : State) : Host.Outcome State Fault Refusal :=
  spdmRow 0x82 3 false r (fun s =>
    let chain := slotZero s
    let o := le r.msg 4 2
    let n := min (le r.msg 6 2) (chain.length - o)
    if le r.msg 2 1 % 16 != 0 || chain.length ≤ o then spdmError r.endpoint 0x01 s
    else spdmOut r.endpoint (spdmHead 0x02 0 0 ++ pay [(n, 2), (chain.length - o - n, 2)] ++ (chain.drop o).take n) s) s

/-- CHALLENGE (R432, R437): the digest of the chain, a nonce, what the manual does not fix, and a signature under the alias
key. -/
def execChallenge (r : SpdmReq) (s : State) : Host.Outcome State Fault Refusal :=
  spdmRow 0x83 3 true r (fun s =>
    if le r.msg 2 1 != 0 then spdmError r.endpoint 0x01 s
    else
      let q := randomBytes s
      let x := spdmFree 0x83 r.msg q.2
      let g := spdmSign 0x83 r.msg x.2
      spdmOut r.endpoint (spdmHead 0x03 0 1 ++ sha256 (slotZero s) ++ q.1 ++ x.1 ++ g.1) g.2) s

/-- R437: measurement block k, which holds M(k − 1). -/
def measBlock (s : State) (k : Nat) : List Byte :=
  pay [(k, 1), (1, 1), (35, 2)] ++ slice (Config.spdmBytes 0xE0 [] k) 0 1 ++ pay [(32, 2)]
    ++ slice (nth s.sec.measure (k - 1) []) 0 32

/-- GET_MEASUREMENTS (R433, R437): M0 to M7 as blocks 1 to 8, signed under the alias key where the request asks for
it. -/
def execGetMeasurements (r : SpdmReq) (s : State) : Host.Outcome State Fault Refusal :=
  spdmRow 0xE0 3 true r (fun s =>
    let op := le r.msg 3 1
    let ks := if op == 0xFF then (List.range 8).map (· + 1) else if 1 ≤ op && op ≤ 8 then [op] else []
    if ks.isEmpty && op != 0 then spdmError r.endpoint 0x01 s
    else
      let body := ks.flatMap (measBlock s)
      let q := randomBytes s
      let x := spdmFree 0xE0 r.msg q.2
      let g := if bit (le r.msg 2 1) 0 then spdmSign 0xE0 r.msg x.2 else ([], x.2)
      spdmOut r.endpoint (spdmHead 0x60 (if op == 0 then 8 else 0) 0 ++ pay [(ks.length, 1), (body.length, 3)] ++ body
        ++ q.1 ++ x.1 ++ g.1) g.2) s

/-- KEY_EXCHANGE (R430, R431, R432, R437): ECDH with the requester's point and a new key pair gives the secrets of a new
session of the endpoint, which ends an older one. A point that is not of P-256 is answered ERROR; a key pair that fails its
pairwise test (`ok` false) takes the module to its error state. -/
def execKeyExchange (r : SpdmReq) (s : State) : Host.Outcome State Fault Refusal :=
  spdmRow 0xE4 3 true r (fun s =>
    let peer := 4 :: slice r.msg 40 64
    if le r.msg 3 1 != 0 || !onCurve peer then spdmError r.endpoint 0x01 s
    else if !r.ok then spdmError r.endpoint 0x05 (enterError s)
    else
      let d := draw s
      let own := p256Key 64 (drbgAt d.1)
      let th := Config.spdmDigest 0xE4 r.msg d.1
      let hand := spdmHandshake (ecdh own peer)
      let pr := spdmPair hand "hs data" th
      let q := randomBytes d.2
      let x := spdmFree 0xE4 r.msg q.2
      let g := spdmSign 0xE4 r.msg x.2
      spdmOut r.endpoint (spdmHead 0x64 0 0 ++ leBytes (Config.freeNat d.1) 2 ++ zeros 2 ++ q.1 ++ (p256Point own).drop 1 ++ x.1
          ++ g.1 ++ spdmVerify pr.2 th)
        (setSpdm r.endpoint { finished := false, number := d.1, req := pr.1, rsp := pr.2, main := hand } g.2)) s

/-- FINISH (R432, R437): completes the session, or ends it where its verification data fails (`ok` false); its secrets are
then those of application data. -/
def execFinish (r : SpdmReq) (s : State) : Host.Outcome State Fault Refusal :=
  spdmRow 0xE5 3 true r (fun s =>
    match spdmOf s r.endpoint with
    | none => spdmError r.endpoint 0x04 s
    | some x =>
      if x.finished || !r.secured then spdmError r.endpoint 0x04 s
      else if !r.ok then spdmError r.endpoint 0x06 (endSpdm r.endpoint s)
      else
        let y := spdmFree 0xE5 r.msg s
        let main := spdmMaster x.main
        let pr := spdmPair main "app data" (Config.spdmDigest 0xE5 r.msg s.free)
        spdmOut r.endpoint (spdmHead 0x65 0 0 ++ y.1)
          (setSpdm r.endpoint { x with finished := true, req := pr.1, rsp := pr.2, main := main } y.2)) s

/-- A request inside the endpoint's finished session. -/
def inSession (r : SpdmReq) (f : Spdm → State → State) (s : State) : State :=
  match spdmOf s r.endpoint with
  | none => spdmError r.endpoint 0x0B s
  | some x => if x.finished && r.secured then f x s else spdmError r.endpoint 0x0B s

/-- KEY_UPDATE (R437): the requester's secret advances (operation 1), or both do (2); operation 3 verifies the new ones. -/
def execKeyUpdate (r : SpdmReq) (s : State) : Host.Outcome State Fault Refusal :=
  spdmRow 0xE9 3 true r (inSession r (fun x s =>
    let op := le r.msg 2 1
    if op == 0 || 3 < op then spdmError r.endpoint 0x01 s
    else
      let s := if op == 3 then s else setSpdm r.endpoint { x with
        keyGen := x.keyGen + 1, req := spdmUpdated x.req, rsp := if op == 2 then spdmUpdated x.rsp else x.rsp } s
      spdmOut r.endpoint (spdmHead 0x69 op (le r.msg 3 1)) s)) s

/-- HEARTBEAT (R437). -/
def execHeartbeat (r : SpdmReq) (s : State) : Host.Outcome State Fault Refusal :=
  spdmRow 0xE8 3 true r (inSession r (fun _ s => spdmOut r.endpoint (spdmHead 0x68 0 0) s)) s

/-- END_SESSION (R432, R437): the session's keys are gone. -/
def execEndSession (r : SpdmReq) (s : State) : Host.Outcome State Fault Refusal :=
  spdmRow 0xEC 3 true r (inSession r (fun _ s => spdmOut r.endpoint (spdmHead 0x6C 0 0) (endSpdm r.endpoint s))) s

/-- R439: the reply to a vendor-defined request: its status, and its payload where the status carries one. -/
def vendorReply (e : Nat) (st : RStatus) (body : List Byte) (s : State) : State :=
  let d := pay [(st.code, 2)] ++ (if carries st then body else [])
  spdmOut e (spdmHead 0x7E 0 0 ++ pay [(3, 2), (2, 1), (0x1FD4, 2), (d.length, 2)] ++ d) s

/-- R438: the tenancy that a session of an endpoint is bound to. -/
def spdmTenancy (s : State) (e : Nat) : Option (Nat × Nat) := if 1 ≤ e && e ≤ 63 then boundTo s e else none

/-- R439: a row of a vendor-defined request of a code: its payload goes to the request's meaning; it is accepted only
inside a secured session. -/
def vendorRow (code : Nat) (r : SpdmReq) (f : List Byte → State → State) (s : State) : Host.Outcome State Fault Refusal :=
  let b := r.msg
  if le b 4 2 != 3 || le b 6 1 != 2 || le b 7 2 != 0x1FD4 || le b 11 1 != code then .next s
  else spdmRow 0xFE 3 false r (inSession r (fun _ s =>
    if s.sec.error then vendorReply r.endpoint .internal [] s else f (slice b 12 (le b 9 2 - 1)) s)) s

/-- KEY_SET (R439, R441): a key and label in a slot of the session's tenancy; an earlier key is gone. -/
def execKeySet (r : SpdmReq) (s : State) : Host.Outcome State Fault Refusal :=
  vendorRow 1 r (fun b s =>
    match spdmTenancy s r.endpoint with
    | none => vendorReply r.endpoint .notPrivileged [] s
    | some (p, t) =>
      if b.length != 49 || 3 < le b 0 1 then vendorReply r.endpoint .badLength [] s
      else vendorReply r.endpoint .ok [] (s.modTen p t (fun x => { x with
        keys := tblPut x.keys (le b 0 1) ⟨slice b 1 32, slice b 33 16, x.keySets⟩, keySets := x.keySets + 1 }))) s

/-- KEY_CLEAR (R439, R441): zeroizes a slot. -/
def execKeyClear (r : SpdmReq) (s : State) : Host.Outcome State Fault Refusal :=
  vendorRow 2 r (fun b s =>
    match spdmTenancy s r.endpoint with
    | none => vendorReply r.endpoint .notPrivileged [] s
    | some (p, t) =>
      if b.length != 1 || 3 < le b 0 1 then vendorReply r.endpoint .badLength [] s
      else vendorReply r.endpoint .ok [] (s.modTen p t (fun x => { x with keys := tblDel x.keys (le b 0 1) }))) s

/-- SIGNER_SET (R188, R439, R440): registers the tenancy's plan-signing key, or clears it. -/
def execSignerSet (r : SpdmReq) (s : State) : Host.Outcome State Fault Refusal :=
  vendorRow 3 r (fun b s =>
    match spdmTenancy s r.endpoint with
    | none => vendorReply r.endpoint .notPrivileged [] s
    | some (p, t) =>
      if !b.isEmpty && (b.length != 65 || le b 0 1 != 4) then vendorReply r.endpoint .badLength [] s
      else vendorReply r.endpoint .ok (if b.isEmpty then zeros 32 else sha256 b)
        (s.modTen p t (fun x => { x with signer := b }))) s

/-- DEED_PARCEL (R439, R455, R458): a parcel deed, for the tenancy of the session. -/
def execDeedParcel (r : SpdmReq) (s : State) : Host.Outcome State Fault Refusal :=
  vendorRow 4 r (fun b s =>
    if b.length != 33 || le b 0 1 != 1 then vendorReply r.endpoint .badLength [] s
    else match spdmTenancy s r.endpoint with
      | none => vendorReply r.endpoint .notPrivileged [] s
      | some (p, t) =>
        let d := draw s
        vendorReply r.endpoint .ok (parcelDeed d.1 s p t (b.drop 1) true) d.2) s

/-- DEED_PACKAGE (R439, R457, R458): a package deed, for the PF owner and the board management controller. -/
def execDeedPackage (r : SpdmReq) (s : State) : Host.Outcome State Fault Refusal :=
  vendorRow 4 r (fun b s =>
    if b.length != 33 || le b 0 1 != 2 then vendorReply r.endpoint .badLength [] s
    else if r.endpoint != 0 && r.endpoint != 64 then vendorReply r.endpoint .notPrivileged [] s
    else
      let d := draw s
      vendorReply r.endpoint .ok (packageDeed d.1 s (b.drop 1)) d.2) s

/-- A TDISP message of a VF. -/
def tdispMsg (vf type : Nat) (body : List Byte) : List Byte := pay [(0x10, 1), (type, 1), (0, 2), (vf, 12)] ++ body

/-- A TDISP error message. -/
def tdispError (vf code : Nat) (s : State) : State := spdmOut vf (tdispMsg vf 0x7F (pay [(code, 4), (0, 4)])) s

/-- R23, R493: whether a function may be sent TDISP and IDE_KM messages: inside a secured session of the function or of the
PF (log entry 53). -/
def tsmOpen (s : State) (fn : Nat) : Bool := (spdmOf s fn).any (·.finished) || (spdmOf s 0).any (·.finished)

/-- A row of a TDISP request of a VF that exists, inside a secured session. -/
def tdispRow (r : TdispReq) (f : State → State) (s : State) : Host.Outcome State Fault Refusal :=
  if spdmReach s r.vf && vfExists s r.vf && tsmOpen s r.vf then fin (f s) else .next s

/-- LOCK_INTERFACE (R442): CONFIG_UNLOCKED to CONFIG_LOCKED, with a nonce for the start. -/
def execLockInterface (r : TdispReq) (s : State) : Host.Outcome State Fault Refusal :=
  tdispRow r (fun s =>
    if tdispOf s r.vf != .unlocked then tdispError r.vf 4 s
    else
      let q := randomBytes s
      let nonce := q.1
      let s := setTdisp r.vf .locked q.2
      spdmOut r.vf (tdispMsg r.vf 3 nonce)
        { s with pcie := { s.pcie with tdispNonce := tblPut s.pcie.tdispNonce r.vf nonce } }) s

/-- START_INTERFACE (R442): CONFIG_LOCKED to RUN, with the nonce of the lock; the tenancy's mailbox is served again. -/
def execStartInterface (r : TdispReq) (s : State) : Host.Outcome State Fault Refusal :=
  tdispRow r (fun s =>
    if tdispOf s r.vf != .locked then tdispError r.vf 4 s
    else if tblGet s.pcie.tdispNonce r.vf != some r.nonce then tdispError r.vf 0x102 s
    else
      let s := setTdisp r.vf .run s
      let s := { s with pcie := { s.pcie with tdispNonce := tblDel s.pcie.tdispNonce r.vf } }
      let s := match boundTo s r.vf with
        | some (p, t) => s.modTen p t (fun x => { x with barred := false })
        | none => s
      spdmOut r.vf (tdispMsg r.vf 6 []) s) s

/-- STOP_INTERFACE (R441, R442): to CONFIG_UNLOCKED; a VF in RUN leaves it. -/
def execStopInterface (r : TdispReq) (s : State) : Host.Outcome State Fault Refusal :=
  tdispRow r (fun s =>
    let s := leaveRun r.vf .unlocked s
    spdmOut r.vf (tdispMsg r.vf 7 [])
      { s with pcie := { s.pcie with tdispNonce := tblDel s.pcie.tdispNonce r.vf } }) s

/-- IDE_KM (R493): sets the key of a function's selective stream, or of the link stream, inside an SPDM session of the
function or of the PF. -/
def execIdeKm (r : IdeReq) (s : State) : Host.Outcome State Fault Refusal :=
  if !spdmReach s r.fn || !tsmOpen s r.fn || s.sec.error then .next s
  else if r.link then .next { s with pcie := { s.pcie with linkIde := some r.key } }
  else .next { s with pcie := { s.pcie with ide := (r.fn, r.stream, r.key) :: s.pcie.ide.filter (fun e => e.1 != r.fn) } }

/-- DEBUG_TOKEN (R451, R462, R463): refused while a parcel is sealed or seal-pending; never opens a module whose debug is
fused off; else a token that Parfonos signed opens debug. -/
def execDebugToken (_token : List Byte) (valid : Bool) (s : State) : Host.Outcome State Fault Refusal :=
  if !s.power.ready then .next s
  else if (liveParcels s).any (sealedOrPending s) then
    .next { s with outputs := s.outputs ++ [.debug RStatus.sealedRefused.code] }
  else if s.store.production && s.store.dbgPermLock then .next s
  else if !valid then .next { s with outputs := s.outputs ++ [.debug RStatus.signatureFailed.code] }
  else .next { s with
    sec := { s.sec with dbgOpen := true, dbgEver := true }
    outputs := s.outputs ++ [.debug RStatus.ok.code] }

end Sys2Proof.Machine
end

