-- ==== Sys2Proof/Machine/Faults.lean ====
section
/-! DEFINITION. Failures of parts of the package (15 R542, R546 to R549; 01 R25; 06 R251; 08 R320): a quad's fabric port, a
compute die, a die-to-die edge, a hub link. -/

namespace Sys2Proof.Machine

/-- R25: the stacks that a compute die controls. -/
def stacksOf (d : Nat) : List Nat :=
  match d with
  | 0 => [0, 1] | 1 => [2] | 2 => [3] | 3 => [4, 5] | 4 => [6, 7] | 5 => [8] | 6 => [9] | 7 => [10, 11]
  | _ => []

/-- R541, R542: fences the cores of a die together: one record for each parcel that holds some of them, and one more for
those that no parcel holds. -/
def fenceDie (ks : List Nat) (s : State) : State :=
  let mine (p : Nat) : List Nat := ks.filter (fun k => (s.parcel p).coreMap.contains k)
  let loose := ks.filter (fun k => (parcelOfCore s k).isNone)
  let ps := (liveParcels s).filter (fun p => !(mine p).isEmpty)
  let s := ps.foldl (fun s p => fenceInParcel p (mine p) 2 { cause := 6 } s) s
  if loose.isEmpty then s
  else
    let s := fenceEvent 0xFF 0xFF 0xFFFFFFFF (loose.foldl min 223) 0xFFFF 2 6 { cause := 6 } 0 s
    loose.foldl (fun s k => fenceCore 6 k s) s

/-- R542: fences the cores of a quad together, with one record: it names the parcel of the quad, or no parcel. DESIGN CHOICE (log
entry 78): where promoted cores of one quad stand in several parcels, it names the lowest-numbered of them, counts the items of all,
and the items of the others have no record to name. -/
def fenceQuad (quad : Nat) (ks : List Nat) (s : State) : State :=
  let low := 4 * quad
  let ps := (liveParcels s).filter (fun p => ks.any (fun k => (s.parcel p).coreMap.contains k))
  let all := ps.map (fun p => (p, fencedItems s p))
  let n := (all.map (fun x => x.2.length)).foldl (· + ·) 0
  let ev (p ten seq lc : Nat) := fenceEvent p ten seq low lc 1 5 { cause := 5 } n
  let s := match all with
    | [] => ev 0xFF 0xFF 0xFFFFFFFF 0xFFFF s
    | (p, its) :: rest =>
      let lc := ((s.parcel p).logical low).getD 0xFFFF
      let s := failItems p lc its (ev p (s.parcel p).running ((its.map (·.seq)).head?.getD 0xFFFFFFFF) lc s)
      rest.foldl (fun s x => x.2.foldl (fun s i =>
        failItem x.1 i.seq { status := .coreFenced, core := ((s.parcel x.1).logical low).getD 0xFFFF, seg := i.seg } 0 s) s) s
  ks.foldl (fun s k => fenceCore 5 k s) s

/-- R542: the cores of a physical quad that a fault of its fabric port fences: all four, the reserves not promoted among them; one
that is fenced already or fused bad keeps its state. -/
def quadMembers (s : State) (quad : Nat) : List Nat :=
  ((List.range 4).map (4 * quad + ·)).filter (fun k => (s.cmeta k).state != .fenced && (s.cmeta k).state != .bad)

/-- QUAD_PORT_FAIL (R540 cause 5, R542): the cores of a physical quad are fenced together. -/
def execQuadPortFail (quad : Nat) (s : State) : Host.Outcome State Fault Refusal :=
  let ks := quadMembers s quad
  if !s.power.good || 56 ≤ quad || ks.isEmpty then .next s else fin (fenceQuad quad ks s)

/-- R251, R316: the granules whose dirty lines a compute die holds. -/
def dirtyOn (s : State) (d : Nat) : List Nat :=
  (s.die d).granules.flatMap (fun g => (g.2.lines.filter (fun l => l.2.dirty)).map (fun l =>
    lineAddr (l.1 / 16) l.2.tag / 256))

/-- The parcels whose dirty lines a compute die holds. -/
def dirtyParcels (s : State) (d : Nat) : List Nat :=
  let ws := (s.die d).granules.flatMap (fun g => (g.2.lines.filter (fun l => l.2.dirty)).filterMap (fun _ => g.2.owner))
  (List.range 48).filter (fun p => ws.contains p)

/-- The address of the first dirty line of a parcel that a compute die holds. -/
def firstDirty (s : State) (d p : Nat) : Nat :=
  (((s.die d).granules.filter (fun g => g.2.owner == some p)).flatMap (fun g =>
    (g.2.lines.filter (fun l => l.2.dirty)).map (fun l => lineAddr (l.1 / 16) l.2.tag))).headD 0

/-- R251, R326, R534: one item of a parcel that has lost dirty lines with a compute die, the one at an address among them: what has
segments outstanding, or is in a pass or operation, meets lost data and ends FAIL_MEM_LOST. -/
def lineItem (p a ev : Nat) (i : Item) (s : State) : State :=
  let tail := tenTail s p i.tenancy
  let hit := if i.kind == .update then i.groups.any (fun q => (runOfGroup s p q.group).any (fun x =>
      x.2.phase == .pass1 || x.2.phase == .norm || x.2.phase == .pass2))
    else i.outstanding
  let t := if hit then lostAccess a 0 { ten := i.tenancy, seq := i.seq } s else s
  let ev := if tenTail t p i.tenancy == tail then ev else tail + 1
  let s := t
  match i.kind with
  | .plan | .batch _ => if i.outstanding then failItem p i.seq { status := .memLost, seg := i.seg } ev s else s
  | .coll => if i.begun then collFail p i.seq .memLost 0 ev true s else s
  | .update => i.groups.foldl (fun s q =>
      match runOfGroup s p q.group with
      | none => s
      | some (_, r) =>
        let torn := r.phase == .pass2 && !gSharded ((s.parcel p).group r.group)
        if !(r.phase == .pass1 || r.phase == .norm || r.phase == .pass2) then s
        else
          let s := if torn then
              let d := draw s
              pass2Torn (whoOf p i) r (Config.freeNat d.1 % chunkCount ((s.parcel p).group r.group)) d.2
            else s
          finishGroup p i.seq r.group .memLost 0 false (modRun p i.seq r.group (fun r => { r with torn := torn, ev := ev }) s)) s

/-- R251: the items of a parcel that has lost dirty lines, the one at address a first; `tails` are the ends of its tenancies' logs
before the loss. -/
def lineItems (p a : Nat) (tails : List Nat) (s : State) : State :=
  (s.parcel p).items.foldl (fun s i =>
    let t0 := nth tails i.tenancy 0
    lineItem p a (if tenTail s p i.tenancy == t0 then 0 else t0 + 1) i s) s

/-- R251, R320, R542, R549: a compute die is lost: its dirty lines and granules, its stacks, its cores. -/
def loseDie (d : Nat) (s : State) : State :=
  if (s.die d).lost then s
  else
    let ps := dirtyParcels s d
    let tails := ps.map (fun p => (firstDirty s d p, (List.range 8).map (tenTail s p)))
    let gone := (dirtyOn s d).filter (fun g => !s.hbm.lostExtra.contains g)
    let s := { s with hbm := { s.hbm with lostExtra := gone ++ s.hbm.lostExtra } }
    let s := s.setDie d { s.die d with lost := true, granules := [], store := {} }
    let s : State := (stacksOf d).foldl (fun (s : State) k => s.setStack k { s.stack k with unreachable := true }) s
    let ks := ((List.range 28).map (28 * d + ·)).filter (coreUp s)
    let s := if ks.isEmpty then s else fenceDie ks s
    (ps.zip tails).foldl (fun s x => lineItems x.1 x.2.1 x.2.2 s) s

/-- R55: the hub die is lost: every core, parcel and link goes down with it, the frame tick and the PCIe link too, and the
module stays off until the input has been removed (log entry 60). -/
def loseHub (s : State) : State := powerOff true s

/-- DIE_LOST (R55, R549): die 8 is the hub die. -/
def execDieLost (die : Nat) (s : State) : Host.Outcome State Fault Refusal :=
  if !s.power.good || 9 ≤ die then .next s
  else if die == 8 then .next (loseHub s)
  else fin (loseDie die s)

/-- R549: the die that is lost with the edge between two dies: on a row edge the one farther from the hub die, on a column
edge the one in row B; dies with no edge between them name none. -/
def edgeVictim (a b : Nat) : Option Nat :=
  let x := min a b
  let y := max a b
  if 8 ≤ y then none
  else if x / 4 == y / 4 && x + 1 == y then some y
  else if x % 4 == y % 4 && x + 4 == y then some y
  else none

/-- EDGE_FAIL (R548, R549). -/
def execEdgeFail (dieA dieB : Nat) (s : State) : Host.Outcome State Fault Refusal :=
  match edgeVictim dieA dieB with
  | some d => if s.power.good then fin (loseDie d s) else .next s
  | none => .next s

/-- HUB_LINK_LOST (R548): the four compute dies of the row are lost. -/
def execHubLinkLost (row : Nat) (s : State) : Host.Outcome State Fault Refusal :=
  if !s.power.good || 2 ≤ row then .next s
  else fin ((List.range 4).foldl (fun s c => loseDie (4 * row + c) s) s)

end Sys2Proof.Machine
end

