-- ==== Sys2Proof/Machine/Boot.lean ====
section
/-! DEFINITION. Resets and bring-up (16 R565 to R575, R589; 14 R496; 11 R401, R402; 12 R431 to R435): PERST#, Hot Reset,
the cold boot, the waits for a temperature, and the warm reset. -/

namespace Sys2Proof.Machine

/-- R569, R285: one core stops where it stands. -/
def stopAll (s : State) : State := (s.cores.map (·.1)).foldl (fun s k => stopCore k s) s

/-- R376, R385, R571: whether a group stays LOCKED through a reset: its journal holds a vote that is not yet an applied
commit. -/
def staysLocked (x : Parcel) (g : Nat) : Bool :=
  x.journal.any (fun j => j.group == g && (j.decision.isNone || (j.decision == some true && !j.applied)))

/-- R380, R530, R538, R568: an item that a reset takes away: it receives no entry; a REPLICATED pass 2 in progress is torn,
the destinations of a collective operation in progress are undefined. -/
def dropItem (p : Nat) (i : Item) (s : State) : State :=
  match i.kind with
  | .update => i.groups.foldl (fun s q =>
      match runOfGroup s p q.group with
      | none => s
      | some (_, r) =>
        let ge := (s.parcel p).group r.group
        let s := if r.phase == .pass2 && !gSharded ge then
            let d := draw s
            pass2Torn (whoOf p i) r (Config.freeNat d.1 % chunkCount ge) d.2
          else s
        if staysLocked (s.parcel p) r.group then s else modGroup p r.group (gSetFlag 11 false) s) s
  | .coll => match i.ops[i.coll.op]? with
      | some o => if i.begun then collUndef p i o s else s
      | none => s
  | _ => s

/-- R569: one parcel at the write-back: its items are gone, its dirty lines go to HBM, and the ring entries of a sealed
parcel that waited for a frame head join its overflow queues. -/
def dropParcelWork (p : Nat) (s : State) : State :=
  let s := (s.parcel p).items.foldl (fun s i => dropItem p i s) s
  let s := flushParcel p s
  let s := s.modParcel p (fun x => { x with items := [] })
  (s.delayed.filter (fun d => d.1 == p)).foldl (fun s d =>
    match d.2.2 with
    | .entry t cpl bs failed => s.modTen p t (fun x =>
        if cpl then { x with cplQ := x.cplQ ++ [(bs, failed)] } else { x with dlrQ := x.dlrQ ++ [bs] })
    | _ => s) s

/-- R418, R453, R568: every session is over: what is held, pending or delayed gets no reply. -/
def dropSessions (s : State) : State :=
  let ten (t : Tenancy) : Tenancy := { t with held := [], seals := [] }
  { s with
    parcels := s.parcels.map (fun e => (e.1, { e.2 with
      sealPending := false, tenancies := e.2.tenancies.map (fun t => (t.1, ten t.2)) }))
    blocks := s.blocks.map (fun e => (e.1, { e.2 with session := none, itemRings := false }))
    bmcSession := none, delayed := [] }

/-- R441, R442, R568: every VF leaves RUN, and the keys of tenancies whose block is assigned to a VF are zeroized. -/
def dropVfs (s : State) : State :=
  let s := ((List.range 64).filter (fun n => n != 0 && tdispOf s n == .run)).foldl (fun s n => leaveRun n .unlocked s)
    { s with pcie := { s.pcie with msix := [] } }
  ((List.range 64).filter (fun n => blockFn s n != 0)).foldl (fun s n =>
    match boundTo s n with
    | some (p, t) => s.modTen p t (fun x => { x with keys := [], barred := x.barred || isSealed s p })
    | none => s) s

/-- R495, R496: the PCIe side after a reset of it. -/
def pcieReset (perst : Bool) (s : State) : State := { s with pcie := { perst := perst } }

/-- R569: a warm reset begins: cores stop, dirty lines are written back, every stack is in self-refresh. -/
def warmBegin (perst : Bool) (s : State) : State :=
  if writingBack s then pcieReset perst s
  else
    let s := stopAll s
    let s := (liveParcels s).foldl (fun s p => dropParcelWork p s) s
    let s := dropVfs (dropSessions s)
    pcieReset perst <| setAlert { s with
      delayed := []
      power := { s.power with
        ready := false, stopped := false, bootWarm := true, selfRefresh := true, bootStage := 0, waitBoot := false
        holdOn := false, holdCause := 0, holdDue := 0, drainOn := false } }

/-- R568, R569, R589: PERST_ASSERT: before READY has first been 1 only the PCIe controller is held in reset; after it a
warm reset begins. -/
def execPerstAssert (s : State) : Host.Outcome State Fault Refusal :=
  if !s.power.good then .next { s with pcie := { s.pcie with perst := true } }
  else if s.power.readyOnce then .next (warmBegin true s)
  else .next (pcieReset true s)

/-- R568: HOT_RESET over a link that is up begins a warm reset, before READY too. -/
def execHotReset (s : State) : Host.Outcome State Fault Refusal :=
  if !s.power.good || !s.pcie.linkUp then .next s else .next (warmBegin s.pcie.perst s)

/-- R567, R569, R589: PERST_DEASSERT: the link trains, once the write-back of R569 is over and with a reference clock. -/
def execPerstDeassert (s : State) : Host.Outcome State Fault Refusal :=
  .next { s with pcie := { s.pcie with
    perst := false, linkUp := s.power.good && s.power.refclk && !writingBack s } }

/-- R496: CONFIG_READY: the configuration space is ready, and one Device Readiness Status message goes out. -/
def execConfigReady (s : State) : Host.Outcome State Fault Refusal :=
  if s.power.good && s.pcie.linkUp && !s.pcie.cfgReady then
    .next { s with pcie := { s.pcie with cfgReady := true }, outputs := s.outputs ++ [.drs] }
  else .next s

/-- R433: extends a measurement register. -/
def extendM (k : Nat) (d : List Byte) (m : List (List Byte)) : List (List Byte) :=
  m.set k (sha256 (nth m k [] ++ d))

/-- R433: M0 to M5 of a boot of an image set. -/
def bootMeasure (x : ImageSet) (s : State) : List (List Byte) :=
  let d (k : Nat) : List Byte := nth x.digests k []
  let fuses := Config.fuseDigest ((List.range 224).map (fun k => (fuseState s k).code) ++
    [s.store.svn, s.store.revoked, b2n s.store.production, b2n s.store.dbgPermLock])
  let rom := extendM 5 fuses (extendM 1 (d 0) (extendM 0 Config.romDigest (List.replicate 8 (zeros 32))))
  extendM 4 (d 3) (extendM 3 (d 2) (extendM 2 (d 1) rom))

/-- R434: the image set that boots: the active one, else the other. -/
def bootChoice (b : BootEnv) (s : State) : Option ImageSet :=
  ([s.store.activeSet, 1 - s.store.activeSet].filter (fun k =>
    let x := nth s.store.sets k {}
    x.valid && !b.badImage.contains k && decide (s.store.svn ≤ x.svn))).head?.map (fun k => nth s.store.sets k {})

/-- R575: the boot stops at a step. -/
def bootStop (stage : Nat) (s : State) : State :=
  { s with power := { s.power with stopped := true, bootStage := stage, waitBoot := false } }

/-- R431 to R434, R570: steps 1 and 2 with an image set. `kept` says whether hub memory is retained so far. -/
def bootVerify (b : BootEnv) (x : ImageSet) (kept : Bool) (s : State) : State :=
  let s := bootStep 2 s
  let m := bootMeasure x s
  let d := draw s
  let s := { d.2 with
    sec := { s.sec with
      measure := m, storage := storageKey, cdi1 := cdiOf m, aliasKey := aliasOf (cdiOf m)
      aliasCert := aliasCert d.1 (aliasOf (cdiOf m)) m }
    power := { s.power with bootSet := x, bootKept := kept && x.digests == s.power.bootSet.digests } }
  if b.securityFail then recordM evSecurity 4 (pay [(1, 1), (0, 3)]) { s with sec := { s.sec with error := true } } else s

/-- R321, R322, R431, R543: the records of boot storage; one whose check fails is discarded, and its loss recorded. -/
def bootRecords (b : BootEnv) (s : State) : State :=
  [0, 1, 2].foldl (fun s k =>
    if !b.badRecords.contains k then s
    else
      let st := s.store
      let st := match k with
        | 0 => { st with folds := [] }
        | 1 => { st with repairs := [] }
        | _ => { st with fenceRec := [] }
      recordM evSecurity 4 (pay [(5, 1), (0, 3)]) { s with store := st }) s

/-- R319, R321: the fold table is reapplied: an unmapped channel stays unmapped. -/
def reapplyFolds (s : State) : State :=
  (List.range 12).foldl (fun s k =>
    let e := (tblGet s.store.folds k).getD 0
    let x := s.stack k
    if bit e 30 && !x.unmapped.contains (bits e 12 8) then
      s.setStack k { x with unmapped := x.unmapped ++ [bits e 12 8] } else s) s

/-- R322, R323, R572: the repairs of a boot: the candidates in the order of the list, within the bounds of R572, as far as
the stacks have resources. -/
def bootRepairs (s : State) : State :=
  let rows := (s.store.repairs.filter (fun r => r.kind == 1)).take 256
  let lanes := (s.store.repairs.filter (fun r => r.kind == 2)).take 32
  let s := rows.foldl (fun s r => if rowLeft s r.stack then rowRepair r.stack r.channel r.pseudo r.row s else s) s
  lanes.foldl (fun s r => if laneLeft s r.stack then laneRepair r.stack r.channel r.pseudo r.row s else s) s

/-- R312, R322, R549, R572: step 3. After a cold reset, or when hub memory is not retained, every lot is zero before its
use. -/
def bootHbm (b : BootEnv) (s : State) : State :=
  let s := bootRecords b (bootStep 3 s)
  let m6 := sha256 (foldTable s ++ Config.bootRecord)
  let s := { s with
    sec := { s.sec with measure := extendM 6 m6 s.sec.measure }, power := { s.power with selfRefresh := false } }
  let s := bootRepairs (reapplyFolds s)
  let before (a c : Nat × Nat) : Bool := decide (a.1 < c.1) || (a.1 == c.1 && decide (a.2 < c.2))
  let s := (sortBy before b.training).foldl (fun s t =>
    if t.1 < 12 && t.2 < 32 then channelDead t.1 t.2 5 s else s) s
  let s := b.lostDies.foldl (fun s d => if d < 8 then loseDie d s else s) s
  let s := (List.range 12).foldl (fun s k => foldStack (s.time.postmark + 1) k s) s
  if s.power.bootKept then s else { s with hbm := {} }

/-- R138, R572: step 4: the cores that fail, each with the array named; the fence itself is step 6. Dies that fail as a
whole are lost (R575). -/
def bootTest (b : BootEnv) (s : State) : State :=
  b.lostDies.foldl (fun s d => if d < 8 then loseDie d s else s) (bootStep 4 s)

/-- R545, R572: a reserve core is promoted at boot, before any parcel is installed. -/
def bootPromote (fenced reserve : Nat) (s : State) : State :=
  let s := s.setCmeta reserve { s.cmeta reserve with state := .promoted, replaces := some fenced }
  let b := pay [(fenced, 2), (reserve, 2), (0xFFFF, 2)]
  recordP evPromote 0xFF 0xFF 0xFFFFFFFF 6 b b (s.setCmeta fenced { s.cmeta fenced with promoteDue := false })

/-- R30, R31, R543, R545, R572: steps 5 and 6: fences of cause 7 and 8, then promotions into the fenced positions. -/
def bootFence (cores : List (Nat × Nat)) (s : State) : State :=
  let s := bootStep 6 (bootStep 5 s)
  let open_ (s : State) (k : Nat) : Bool := k < 224 && (s.cmeta k).state != .fenced && (s.cmeta k).state != .bad
  let s := cores.foldl (fun s c => if open_ s c.1 then coreFault c.1 { cause := 7, array := c.2 } s else s) s
  let s := s.store.fenceRec.foldl (fun s k => if open_ s k then coreFault k { cause := 8 } s else s) s
  (List.range 224).foldl (fun s k =>
    let m := s.cmeta k
    if m.state == .fenced && (k % 28 < 24 || m.replaces.isSome) && (replacedBy s k).isNone && !(s.die (k / 28)).lost then
      match reserves s (k / 28) with
      | r :: _ => bootPromote k r s
      | [] => s
    else s) s

/-- R405: the parcel state of a value. -/
def pstateOf (n : Nat) : PState :=
  match n with
  | 1 => .active | 2 => .isSealed | 3 => .resetting | 4 => .releasing | _ => .free

/-- R396, R401: installs the entry of a parcel from a stored copy: what the cadastre holds comes from the copy, the other
tables of hub memory stay. -/
def installEntry (s : State) (e : Nat × List Byte) (x : Parcel) : Parcel :=
  let b := e.2
  let gm := le b 32 16
  let quads := bitsSet (le b 8 8) 48
  let ten (t : Nat) : Tenancy :=
    let o := 64 + 16 * t
    { x.ten t with mailbox := le b o 1, sliceEnd := le b (o + 1) 1, slice := le b (o + 2) 2, maxExtend := le b (o + 4) 2 }
  let windows := x.regs.flatMap (fun r => r.2.window)
  let lots := (List.range 1024).filterMap (fun j =>
    let w := le b (512 + 4 * j) 4
    if windows.contains j then (tblGet x.lots j).map (fun l => (j, l))
    else if bit w 31 then
      some (j, ({ lot := w % 1024, classA := bit w 30, plan := bit w 29, owner := le b (4608 + j) 1 } : LotEnt))
    else none)
  { x with
    state := pstateOf (le b 2 1), running := le b 3 1, quads := quads
    granules := (bitsSet (le b 16 16) 128).map (fun g => (g / 16, g % 16, bit gm g))
    created := le b 56 8, tenancies := (List.range 8).map (fun t => (t, ten t)), lots := lots
    coreMap := quads.flatMap (quadCores s) }

/-- R401: the image that is installed from the stored copies; none when both are rejected. -/
def chooseCopy (okA okB : Bool) (s : State) : Option (List (Nat × List Byte)) :=
  let a := s.copyA
  let b := s.copyB
  if okA && okB then
    if a.generation == b.generation then (if a.image == b.image then some a.image else none)
    else if a.generation < b.generation then some b.image else some a.image
  else if okA then some a.image
  else if okB then some b.image
  else none

/-- R402: the lots that are zero-written on entering recovery. -/
def recoveryLots (okA okB : Bool) (s : State) : List Nat :=
  let lotsOf (b : List Byte) : List Nat := (List.range 1024).filterMap (fun j =>
    let w := le b (512 + 4 * j) 4
    if bit w 31 then some (w % 1024) else none)
  if !okA && !okB then List.range 744
  else
    let l := (s.copyA.image ++ s.copyB.image).flatMap (fun e => if le e.2 2 1 == 2 then lotsOf e.2 else [])
    (List.range 744).filter (fun k => l.contains k)

/-- R400, R402, R404: cadastre recovery begins: no parcel exists; the journals wait for restored parcels; the stored copies stay as
they are, a failed CRC included. -/
def enterRecovery (okA okB : Bool) (s : State) : State :=
  let s := (recoveryLots okA okB s).foldl (fun s l => zeroLot l s) s
  let s := { s with
    recovery := true
    copyA := { s.copyA with good := okA }, copyB := { s.copyB with good := okB }
    parcels := (s.parcels.filter (fun e => !e.2.journal.isEmpty)).map (fun e => (e.1, { journal := e.2.journal })) }
  stateEvent 3 1 (recordM evCadastre 2 (pay [(1, 1), (0, 1)]) s)

/-- R400, R401: the chosen image governs, and a copy that differs from it is rewritten, with its event. -/
def installImage (okA okB : Bool) (img : List (Nat × List Byte)) (s : State) : State :=
  let p' (p : Nat) : Parcel := match img.find? (fun e => e.1 == p) with
    | some e => installEntry s e (s.parcel p)
    | none => {}
  let s : State := { s with parcels := ((List.range 48).filter (fun p => img.any (fun e => e.1 == p))).map (fun p => (p, p' p)) }
  let g := max (if okA then s.copyA.generation else 0) (if okB then s.copyB.generation else 0)
  let note (same : Bool) (k : Nat) (s : State) : State :=
    if same then s else recordM evCadastre 2 (pay [(0, 1), (k, 1)]) s
  let sameA := okA && s.copyA.image == img && s.copyA.generation == g
  let sameB := okB && s.copyB.image == img && s.copyB.generation == g
  let s := note sameB 1 (note sameA 0 s)
  let s := { s with recovery := false, copyA := ⟨g, img, true⟩, copyB := ⟨g, img, true⟩ }
  if cadImage s == img then s else cad s

/-- R385, R399: the journalled commits of a parcel that have not been applied, in ascending group number. -/
def bootJournal (p : Nat) (s : State) : State :=
  let due := (s.parcel p).journal.filter (fun j => j.decision == some true && !j.applied)
  (sortBy (fun (a b : Journal) => decide (a.group < b.group)) due).foldl (fun s j => applyCommit p j.group j s) s

/-- R238, R413: what a parcel finds when the ZMP has started: its granules powered, and a slice of its tenancy. -/
def bootParcel (p : Nat) (s : State) : State :=
  let s := bootJournal p (powerGrans p s)
  let x := s.parcel p
  if x.running < 8 && x.work == .none then beginSlice p x.running s else s

/-- R401, R570, R572: the cadastre of step 7. -/
def bootCadastre (b : BootEnv) (s : State) : State :=
  if !s.power.bootKept then { s with parcels := [], copyA := {}, copyB := {}, recovery := false }
  else
    let okA := s.copyA.good && !b.badCopyA
    let okB := s.copyB.good && !b.badCopyB
    match chooseCopy okA okB s with
    | some img => let s := installImage okA okB img s; (liveParcels s).foldl (fun s p => bootParcel p s) s
    | none => enterRecovery okA okB s

/-- R435, R508, R572: step 7: READY. -/
def bootReady (b : BootEnv) (s : State) : State :=
  let s := bootCadastre b (bootStep 7 s)
  let s := bootStep 0 ((List.range 8).foldl (fun s k => portTo k .training s) s)
  let x := s.power.bootSet
  { s with
    store := { s.store with svn := if x.raises then max s.store.svn x.svn else s.store.svn }
    power := { s.power with ready := true, readyOnce := true, waitBoot := false } }

/-- R572: steps 5 to 7. -/
def bootEnd (b : BootEnv) (cores : List (Nat × Nat)) (s : State) : State := bootReady b (bootFence cores s)

/-- R574: whether the stacks are too hot for step 3. -/
def stacksHot (s : State) : Bool := (stackTemps s).any (fun t => decide (400 < t))

/-- R574: whether the compute dies are too hot for step 4. -/
def diesHot (s : State) : Bool :=
  (List.range 8).any (fun (d : Nat) => !(s.die d).lost && decide (380 < (s.die d).temp))

/-- A boot waits in a step for a temperature. -/
def bootWait (stage : Nat) (s : State) : State :=
  { s with power := { s.power with bootStage := stage, waitBoot := true } }

/-- R572, R574, R575: step 4, which a warm boot skips, and the steps after it. -/
def bootFrom4 (b : BootEnv) (s : State) : State :=
  if s.power.bootWarm then bootEnd b [] s
  else if diesHot s then bootWait 3 s
  else if b.hubFail then bootStop 4 (bootTest b s)
  else bootEnd b b.selfTest (bootTest b s)

/-- R572, R574: step 3 and the steps after it. -/
def bootFrom3 (b : BootEnv) (s : State) : State :=
  if stacksHot s then bootWait 2 s else bootFrom4 b (bootHbm b s)

/-- COLD_BOOT (R572 to R575): after PWR_GOOD the steps run to READY, as far as no temperature holds them and nothing stops
them. -/
def execColdBoot (b : BootEnv) (s : State) : Host.Outcome State Fault Refusal :=
  let w := s.power
  if !w.good || w.bootWarm || w.bootStage != 1 || w.stopped then .next s
  else match bootChoice b s with
    | none => fin (bootStop 2 (bootStep 2 s))
    | some x => fin (bootFrom3 b (bootVerify b x false s))

/-- BOOT_HBM_STEP (R574): step 3 begins once no stack reads above 100 °C. -/
def execBootHbmStep (b : BootEnv) (s : State) : Host.Outcome State Fault Refusal :=
  let w := s.power
  if !w.good || !w.waitBoot || w.bootStage != 2 || w.stopped then .next s else fin (bootFrom3 b s)

/-- BOOT_CORE_SELF_TEST (R574): step 4 begins once no compute die reads above 95 °C. -/
def execBootCoreSelfTest (b : BootEnv) (s : State) : Host.Outcome State Fault Refusal :=
  let w := s.power
  if !w.good || !w.waitBoot || w.bootStage != 3 || w.stopped then .next s else fin (bootFrom4 b s)

/-- R424, R428, R568: a parcel as a warm reset leaves it, with hub memory retained: the tables stay; what runs, what waits
and what federation gave are gone. -/
def warmParcel (x : Parcel) : Parcel :=
  let kill (tk : Ticket) : Ticket := { tk with dead := true }
  let work : PWork := match x.work with
    | .resetting tk pr inc => .resetting (kill tk) pr inc
    | .releasing tk => .releasing (kill tk)
    | .switching n _ => .switching n 0
    | w => w
  let creating := match x.work with
    | .creating _ => true
    | _ => false
  if creating || x.state == .free then {}
  else
    let y : Parcel := { x with
      items := [], slice := {}, cursors := [], noSegBefore := (0, 0), live := [], channels := [], inbox := [], heard := []
      sealPending := false, thermEvent := 0, work := work
      manifest := x.manifest.map (fun e => (e.1, applyPending e.2)) }
    y.regs.foldl (fun (z : Parcel) r => restorePad r.2 z) y

/-- R490, R497, R568: a mailbox block as a warm reset leaves it; ring bases, sizes and indices are the tenancy's. -/
def warmBlock (kept : Bool) (b : MBlock) : MBlock :=
  if !kept then {}
  else { req := b.req, cpl := b.cpl, dlr := b.dlr, env := b.env, envNext := b.envNext }

/-- R314, R568: a stack as a warm reset leaves it: postmarks count from 0 again; what is due stays due. -/
def warmStack (x : Stack) : Stack :=
  { x with
    window := none, foldDue := x.foldDue.map (fun f => { f with at_ := (0, 0) })
    unmapDue := x.unmapDue.map (fun u => (u.1, 0)) }

/-- R40, R550, R568, R573: what a warm reset clears at once, and what it keeps. -/
def warmClear (kept : Bool) (s : State) : State :=
  let per := s.time.nextPeriod.getD s.time.period
  { s with
    time := { nextPeriod := if kept && per != 3300032 then some per else none }
    cores := s.cores.map (fun c => (c.1, { spCorrected := c.2.spCorrected }))
    metas := if kept then s.metas else []
    dies := s.dies.map (fun d => (d.1, { d.2 with granules := [], store := {} }))
    parcels := if kept then s.parcels.map (fun e => (e.1, warmParcel e.2)) else []
    copyA := if kept then s.copyA else {}, copyB := if kept then s.copyB else {}
    recovery := kept && s.recovery
    fails := {}, changes := [], passed := (0, 0), delayed := [], pfLog := {}, bmcLog := {}, fed := {}
    telem := { eid := s.telem.eid, tid := s.telem.tid }
    blocks := s.blocks.map (fun e => (e.1, warmBlock kept e.2))
    bmcSession := none, bmcOpen := 0
    outputs := s.outputs ++ [.bootStage 1]
    ports := s.ports.map (fun e => (e.1, { replays := e.2.replays }))
    sec := { s.sec with dbgOpen := false }
    store := { s.store with rowSeen := [], laneReplays := [] }
    hs := s.hs.map (fun x => (x.1, warmStack x.2))
    power := { s.power with
      bootKept := kept, bootStage := 1, stopped := false, waitBoot := false, holdDue := 0, holdAt := 0
      goodFor := s.power.goodFor + nowCycles s }
    pcie := { perst := s.pcie.perst, linkUp := !s.pcie.perst && s.power.refclk } }

/-- WARM_RESET (R568 to R571): after the write-back of R569 the warm boot runs steps 1, 2, 3, 5, 6 and 7. -/
def execWarmReset (b : BootEnv) (s : State) : Host.Outcome State Fault Refusal :=
  if !s.power.good || !s.power.bootWarm || !s.power.selfRefresh then .next s
  else match bootChoice b s with
    | none => fin (bootStop 2 (bootStep 2 (warmClear (!b.hubMemoryBad) { s with power := { s.power with selfRefresh := false } })))
    | some x =>
      let kept := !b.hubMemoryBad && x.digests == s.power.bootSet.digests
      fin (bootFrom3 b (bootVerify b x kept (warmClear kept s)))

end Sys2Proof.Machine
end

