-- ==== Sys2Proof/Machine/CoreSlots.lean ====
section
/-! DEFINITION. The commands of the matrix and vector slots (03, 04, 05). -/

namespace Sys2Proof.Machine

/-- R140: MM_NOP. -/
def execMmNop (e : CoreEnv) (s : State) : Host.Outcome State Fault Refusal := slotCmd e none s

/-- R102: MM_PASS. -/
def execMmPass (e : CoreEnv) (f : MatF) (s : State) : Host.Outcome State Fault Refusal := slotCmd e (some (.pass f)) s

/-- R112: MM_LDS. -/
def execMmLds (e : CoreEnv) (f : MatF) (s : State) : Host.Outcome State Fault Refusal := slotCmd e (some (.lds f)) s

/-- R125: MM_MODE. -/
def execMmMode (e : CoreEnv) (array : Nat) (quarter : Bool) (s : State) : Host.Outcome State Fault Refusal := slotCmd e (some (.mode array quarter)) s

/-- R130: MM_WAKE. -/
def execMmWake (e : CoreEnv) (mask : Nat) (s : State) : Host.Outcome State Fault Refusal := slotCmd e (some (.wake mask)) s

/-- R132: MM_REST. -/
def execMmRest (e : CoreEnv) (mask : Nat) (s : State) : Host.Outcome State Fault Refusal := slotCmd e (some (.rest mask)) s

/-- R201: VX_NOP. -/
def execVxNop (e : CoreEnv) (s : State) : Host.Outcome State Fault Refusal := slotCmd e none s

/-- R203: VX_ADD. -/
def execVxAdd (e : CoreEnv) (f : VecF) (s : State) : Host.Outcome State Fault Refusal := slotCmd e (some (.vec .add f)) s

/-- R203: VX_SUB. -/
def execVxSub (e : CoreEnv) (f : VecF) (s : State) : Host.Outcome State Fault Refusal := slotCmd e (some (.vec .sub f)) s

/-- R203: VX_MUL. -/
def execVxMul (e : CoreEnv) (f : VecF) (s : State) : Host.Outcome State Fault Refusal := slotCmd e (some (.vec .mul f)) s

/-- R203: VX_FMA. -/
def execVxFma (e : CoreEnv) (f : VecF) (s : State) : Host.Outcome State Fault Refusal := slotCmd e (some (.vec .fma f)) s

/-- R203: VX_MIN. -/
def execVxMin (e : CoreEnv) (f : VecF) (s : State) : Host.Outcome State Fault Refusal := slotCmd e (some (.vec .min f)) s

/-- R203: VX_MAX. -/
def execVxMax (e : CoreEnv) (f : VecF) (s : State) : Host.Outcome State Fault Refusal := slotCmd e (some (.vec .max f)) s

/-- R203: VX_MOV. -/
def execVxMov (e : CoreEnv) (f : VecF) (s : State) : Host.Outcome State Fault Refusal := slotCmd e (some (.vec .mov f)) s

/-- R203: VX_ABS. -/
def execVxAbs (e : CoreEnv) (f : VecF) (s : State) : Host.Outcome State Fault Refusal := slotCmd e (some (.vec .abs f)) s

/-- R203: VX_NEG. -/
def execVxNeg (e : CoreEnv) (f : VecF) (s : State) : Host.Outcome State Fault Refusal := slotCmd e (some (.vec .neg f)) s

/-- R202: VX_MOVI. -/
def execVxMovi (e : CoreEnv) (f : VecF) (imm : Word) (s : State) : Host.Outcome State Fault Refusal := slotCmd e (some (.movi f imm)) s

/-- R199: VX_CMP. -/
def execVxCmp (e : CoreEnv) (f : VecF) (s : State) : Host.Outcome State Fault Refusal := slotCmd e (some (.vec .cmp f)) s

/-- R204: VX_GSUM. -/
def execVxGsum (e : CoreEnv) (f : VecF) (s : State) : Host.Outcome State Fault Refusal := slotCmd e (some (.vec .gsum f)) s

/-- R204: VX_GMAX. -/
def execVxGmax (e : CoreEnv) (f : VecF) (s : State) : Host.Outcome State Fault Refusal := slotCmd e (some (.vec .gmax f)) s

/-- R204: VX_GMIN. -/
def execVxGmin (e : CoreEnv) (f : VecF) (s : State) : Host.Outcome State Fault Refusal := slotCmd e (some (.vec .gmin f)) s

/-- R205: VX_EXP2. -/
def execVxExp2 (e : CoreEnv) (f : VecF) (s : State) : Host.Outcome State Fault Refusal := slotCmd e (some (.vec .exp2 f)) s

/-- R205: VX_LOG2. -/
def execVxLog2 (e : CoreEnv) (f : VecF) (s : State) : Host.Outcome State Fault Refusal := slotCmd e (some (.vec .log2 f)) s

/-- R205: VX_RCP. -/
def execVxRcp (e : CoreEnv) (f : VecF) (s : State) : Host.Outcome State Fault Refusal := slotCmd e (some (.vec .rcp f)) s

/-- R205: VX_RSQRT. -/
def execVxRsqrt (e : CoreEnv) (f : VecF) (s : State) : Host.Outcome State Fault Refusal := slotCmd e (some (.vec .rsqrt f)) s

/-- R205: VX_SQRT. -/
def execVxSqrt (e : CoreEnv) (f : VecF) (s : State) : Host.Outcome State Fault Refusal := slotCmd e (some (.vec .sqrt f)) s

/-- R205: VX_TANH. -/
def execVxTanh (e : CoreEnv) (f : VecF) (s : State) : Host.Outcome State Fault Refusal := slotCmd e (some (.vec .tanh f)) s

/-- R205: VX_SIGM. -/
def execVxSigm (e : CoreEnv) (f : VecF) (s : State) : Host.Outcome State Fault Refusal := slotCmd e (some (.vec .sigm f)) s

/-- R206: VX_CVT. -/
def execVxCvt (e : CoreEnv) (f : VecF) (s : State) : Host.Outcome State Fault Refusal := slotCmd e (some (.vec .cvt f)) s

/-- R208: VX_QMX. -/
def execVxQmx (e : CoreEnv) (f : VecF) (s : State) : Host.Outcome State Fault Refusal := slotCmd e (some (.vec .qmx f)) s

/-- R209: VX_DQMX. -/
def execVxDqmx (e : CoreEnv) (f : VecF) (s : State) : Host.Outcome State Fault Refusal := slotCmd e (some (.vec .dqmx f)) s

/-- R201: VX_MAND. -/
def execVxMand (e : CoreEnv) (f : VecF) (s : State) : Host.Outcome State Fault Refusal := slotCmd e (some (.vec .mand f)) s

/-- R201: VX_MOR. -/
def execVxMor (e : CoreEnv) (f : VecF) (s : State) : Host.Outcome State Fault Refusal := slotCmd e (some (.vec .mor f)) s

/-- R201: VX_MXOR. -/
def execVxMxor (e : CoreEnv) (f : VecF) (s : State) : Host.Outcome State Fault Refusal := slotCmd e (some (.vec .mxor f)) s

/-- R201: VX_MNOT. -/
def execVxMnot (e : CoreEnv) (f : VecF) (s : State) : Host.Outcome State Fault Refusal := slotCmd e (some (.vec .mnot f)) s

/-- R201: VX_MFIRST. -/
def execVxMfirst (e : CoreEnv) (f : VecF) (s : State) : Host.Outcome State Fault Refusal := slotCmd e (some (.vec .mfirst f)) s

/-- R212: VX_LD. -/
def execVxLd (e : CoreEnv) (f : LdF) (s : State) : Host.Outcome State Fault Refusal := slotCmd e (some (.ld f)) s

/-- R212: VX_ST. -/
def execVxSt (e : CoreEnv) (f : LdF) (s : State) : Host.Outcome State Fault Refusal := slotCmd e (some (.st f)) s

end Sys2Proof.Machine
end

