-- ==== Sys2Proof/Machine/Sideband.lean ====
section
/-! DEFINITION. The management sideband (16 R583 to R586; 13 R467): MCTP control, PLDM, the sensors and the telemetry
window. -/

namespace Sys2Proof.Machine

/-- R583: whether the endpoint answers MCTP control and PLDM: from 2 s after PWR_GOOD. -/
def sideUp (s : State) : Bool := s.power.good && decide (6600000000 ≤ s.power.goodFor + nowCycles s)

/-- R585: the reading of a whole-degree sensor; 0xFF where it cannot be read. -/
def degrees (lost : Bool) (quarters : Nat) : Nat := if lost then 0xFF else min (quarters / 4) 0xFE

/-- R585: input current in 0.1 A, from the power in W and the voltage in mV (log entry 45). -/
def currentOf (w mv : Nat) : Nat := if mv == 0 then 0 else 10000 * w / mv

/-- R585: sensors 30 to 33. -/
def stateSensors (s : State) : List Nat :=
  [if s.power.stopped then 3 else if s.power.ready then 2 else 1, s.power.bootStage,
    if s.power.holdOn then s.power.holdCause else 0, b2n s.sec.error]

/-- R459, R585: the 1 s average of a sensor, from its samples since the sensors were last read; its last sample when
there was none. -/
def averageOf (s : State) (sensor last : Nat) : Nat :=
  match tblGet s.telem.acc sensor with
  | some (sum, n) => if n == 0 then last else sum / n
  | none => last

/-- R459, R584, R585: what an update of the sensors reads: the input power to the nearest 5 W, the averages of the
voltage, the dies and the stacks. -/
def readSensors (s : State) : Telem :=
  { s.telem with
    inputW := (s.power.inputW + 2) / 5 * 5, inputMv := averageOf s 2 s.power.inputMv
    dieT := (List.range 8).map (fun d => degrees (s.die d).lost (averageOf s (4 + d) (s.die d).temp))
    hubT := degrees false (averageOf s 12 s.power.hubTemp)
    hsT := (List.range 12).map (fun k => degrees (s.stack k).unreachable (averageOf s (13 + k) (s.stack k).temp))
    regT := degrees false s.power.regTemp
    states := stateSensors s, readAt := s.time.postmark, acc := [] }

/-- SENSOR_UPDATE (R584): once per second. -/
def execSensorUpdate (s : State) : Host.Outcome State Fault Refusal :=
  if s.power.good then .next { s with telem := readSensors s } else .next s

/-- R586: the code of a stack's refresh factor. -/
def refreshCode (x : Stack) : Nat :=
  if x.unreachable then 3 else if x.refresh == 4 then 2 else if x.refresh == 2 then 1 else 0

/-- R586: bytes, the lowest first, as one register. -/
def byteReg (l : List Nat) : Nat := leNat (l.map (BitVec.ofNat 8))

/-- R586: the seven registers of the telemetry window, TLM_POSTMARK first. -/
def windowRegs (s : State) : List Nat :=
  let t := s.telem
  [s.time.postmark,
    t.inputW % 65536 + 2 ^ 16 * (t.inputMv / 100 % 65536) + 2 ^ 32 * (currentOf t.inputW t.inputMv % 65536),
    byteReg t.dieT, t.hubT + 256 * t.regT, byteReg (t.hsT.take 8), byteReg (t.hsT.drop 8),
    ((List.range 12).map (fun k => refreshCode (s.stack k) * 4 ^ k)).foldl (· + ·) 0]

/-- TELEMETRY_WINDOW_UPDATE (R586): once per second, in a frame head, from READY on. -/
def execTelemetryWindowUpdate (s : State) : Host.Outcome State Fault Refusal :=
  if s.power.ready && inHead s then .next { s with telem := { s.telem with window := windowRegs s } } else .next s

/-- R585: the reading of a numeric sensor in units of its resolution. -/
def numericSensor (t : Telem) (id : Nat) : Option Nat :=
  if id == 1 then some (t.inputW / 5)
  else if id == 2 then some (t.inputMv / 100)
  else if id == 3 then some (currentOf t.inputW t.inputMv)
  else if 4 ≤ id && id ≤ 11 then some (nth t.dieT (id - 4) 0xFF)
  else if id == 12 then some t.hubT
  else if 13 ≤ id && id ≤ 24 then some (nth t.hsT (id - 13) 0xFF)
  else if id == 25 then some t.regT
  else none

/-- R585: the reading of a state sensor. -/
def stateSensor (t : Telem) (id : Nat) : Option Nat := if 30 ≤ id && id ≤ 33 then some (nth t.states (id - 30) 0) else none

/-- The bytes that the manual does not give of a response. -/
def sideFree (kind : Nat) (msg : List Byte) (s : State) : List Byte × State :=
  let d := draw s
  (Config.sideBytes kind msg d.1, d.2)

/-- A PLDM response: the header with the request bit clear, a completion code, data (log entry 45). -/
def pldmOut (msg : List Byte) (cc : Nat) (body : List Byte) (s : State) : State :=
  { s with outputs := s.outputs ++ [.pldm (sideBus s) (sideAddr s) (pay [(le msg 0 1 % 128, 1), (le msg 1 1, 1), (le msg 2 1, 1), (cc, 1)] ++ body)] }

/-- R584: PLDM Type 0. -/
def pldmBase (msg : List Byte) (s : State) : State :=
  match le msg 2 1 with
  | 1 => pldmOut msg 0 [] { s with telem := { s.telem with tid := le msg 3 1 } }
  | 2 => pldmOut msg 0 (leBytes s.telem.tid 1) s
  | 3 | 5 => let x := sideFree 1 msg s; pldmOut msg 0 x.1 x.2
  | 4 => pldmOut msg 0 (leBytes 5 8) s
  | _ => pldmOut msg 5 [] s

/-- R584, R585: PLDM Type 2. -/
def pldmPlatform (msg : List Byte) (s : State) : State :=
  let id := le msg 3 2
  match le msg 2 1 with
  | 0x11 => match numericSensor s.telem id with
    | some v => let x := sideFree 1 msg s; pldmOut msg 0 (pay [(2, 1), (0, 1)] ++ slice x.1 0 4 ++ leBytes v 2) x.2
    | none => pldmOut msg 0x80 [] s
  | 0x21 => match stateSensor s.telem id with
    | some v => let x := sideFree 1 msg s; pldmOut msg 0 (pay [(1, 1), (0, 1), (v, 1)] ++ slice x.1 0 2) x.2
    | none => pldmOut msg 0x80 [] s
  | 0x04 | 0x05 | 0x0A | 0x50 | 0x51 => let x := sideFree 1 msg s; pldmOut msg 0 x.1 x.2
  | _ => pldmOut msg 5 [] s

/-- PLDM_REQUEST (R583 to R585): types 0 and 2; no other type is implemented. -/
def execPldmRequest (msg : List Byte) (s : State) : Host.Outcome State Fault Refusal :=
  if !sideUp s || msg.length < 3 || !bit (le msg 0 1) 7 then .next s
  else match le msg 1 1 % 64 with
    | 0 => .next (pldmBase msg s)
    | 2 => .next (pldmPlatform msg s)
    | _ => .next (pldmOut msg 0x20 [] s)

/-- An MCTP control response (log entry 45). -/
def mctpOut (msg : List Byte) (cc : Nat) (body : List Byte) (s : State) : State :=
  { s with outputs := s.outputs ++ [.mctp (sideBus s) (sideAddr s) (pay [(le msg 0 1 % 128, 1), (le msg 1 1, 1), (cc, 1)] ++ body)] }

/-- MCTP_CONTROL (R467, R583): the endpoint ID is the bus owner's; an endpoint reset ends the controller's session. -/
def execMctpControl (msg : List Byte) (s : State) : Host.Outcome State Fault Refusal :=
  if !sideUp s || msg.length < 2 || !bit (le msg 0 1) 7 then .next s
  else match le msg 1 1 with
    | 1 =>
      let op := le msg 2 1 % 4
      if op == 2 then fin (mctpOut msg 0 (pay [(0, 1), (0, 1), (0, 1)]) (endBmcSession { s with telem := { s.telem with eid := 0 } }))
      else .next (mctpOut msg 0 (pay [(0, 1), (le msg 3 1, 1), (0, 1)]) { s with telem := { s.telem with eid := le msg 3 1 } })
    | 2 => .next (mctpOut msg 0 (pay [(s.telem.eid, 1), (0, 1), (0, 1)]) s)
    | 3 | 4 => let x := sideFree 0 msg s; .next (mctpOut msg 0 x.1 x.2)
    | 5 => .next (mctpOut msg 0 (pay [(5, 1), (0, 1), (1, 1), (5, 1), (6, 1), (0x7E, 1)]) s)
    | _ => .next (mctpOut msg 5 [] s)

end Sys2Proof.Machine
end

