-- ==== Sys2Proof/Machine/UpdProg.lean ====
section
/-! DEFINITION. The instructions of update programs (10 R371) as the engine runs them on one element after another of a
group in pass 2. An instruction that is not the next one of the group's program does not run. -/

namespace Sys2Proof.Machine

/-- R371: the group of a parcel whose program runs. -/
def progRun (s : State) (p : Nat) : Option (Item × GroupRun) :=
  ((s.parcel p).items.filter (fun i => i.kind == .update)).findSome? (fun i =>
    (i.groups.find? (fun r => r.phase == .pass2 && !r.elem.isEmpty)).map (fun r => (i, r)))

/-- R371: goes on to the operand registers of the next element. -/
def nextElem (p : Nat) (i : Item) (r : GroupRun) (s : State) : State :=
  modRun p i.seq r.group (fun q => { q with elem := elemLoad p i r (nth r.elem 0 0 + 1) s }) s

/-- R371: one instruction on the operand registers of the element in hand; after the sixteenth the next element
follows. -/
def upCmd (op : Nat) (p : Nat) (f : UpF) (s : State) : Host.Outcome State Fault Refusal :=
  match progRun s p with
  | none => .next s
  | some (i, r) =>
    let g := (s.parcel p).group r.group
    let pc := nth r.elem 1 0
    let w := nth (progOf (s.parcel p) g) pc 0
    if upOp w != op || (op != 0x3F && upF w != f) then .next s
    else if op == 0x3F then .next (nextElem p i r s)
    else
      let x := upStep (upCodes g (upConst g r.cf r.tr).1) op f (r.elem.drop 2)
      let s := addExcItem p i.seq (countExc x.2) s
      let r := { r with elem := nth r.elem 0 0 :: (pc + 1) :: x.1 }
      let s := modRun p i.seq r.group (fun _ => r) s
      .next (if pc == 15 then nextElem p i r s else s)

/-- R371: UP_ADD. -/
def execUpAdd (parcel : Nat) (f : UpF) (s : State) : Host.Outcome State Fault Refusal := upCmd 1 parcel f s

/-- R371: UP_SUB. -/
def execUpSub (parcel : Nat) (f : UpF) (s : State) : Host.Outcome State Fault Refusal := upCmd 2 parcel f s

/-- R371: UP_MUL. -/
def execUpMul (parcel : Nat) (f : UpF) (s : State) : Host.Outcome State Fault Refusal := upCmd 3 parcel f s

/-- R371: UP_FMA. -/
def execUpFma (parcel : Nat) (f : UpF) (s : State) : Host.Outcome State Fault Refusal := upCmd 4 parcel f s

/-- R371: UP_DIV. -/
def execUpDiv (parcel : Nat) (f : UpF) (s : State) : Host.Outcome State Fault Refusal := upCmd 5 parcel f s

/-- R371: UP_SQRT. -/
def execUpSqrt (parcel : Nat) (f : UpF) (s : State) : Host.Outcome State Fault Refusal := upCmd 6 parcel f s

/-- R371: UP_RSQRT. -/
def execUpRsqrt (parcel : Nat) (f : UpF) (s : State) : Host.Outcome State Fault Refusal := upCmd 7 parcel f s

/-- R371: UP_MIN. -/
def execUpMin (parcel : Nat) (f : UpF) (s : State) : Host.Outcome State Fault Refusal := upCmd 8 parcel f s

/-- R371: UP_MAX. -/
def execUpMax (parcel : Nat) (f : UpF) (s : State) : Host.Outcome State Fault Refusal := upCmd 9 parcel f s

/-- R371: UP_ABS. -/
def execUpAbs (parcel : Nat) (f : UpF) (s : State) : Host.Outcome State Fault Refusal := upCmd 10 parcel f s

/-- R371: UP_NEG. -/
def execUpNeg (parcel : Nat) (f : UpF) (s : State) : Host.Outcome State Fault Refusal := upCmd 11 parcel f s

/-- R371: UP_SIGN. -/
def execUpSign (parcel : Nat) (f : UpF) (s : State) : Host.Outcome State Fault Refusal := upCmd 12 parcel f s

/-- R371: UP_SEL. -/
def execUpSel (parcel : Nat) (f : UpF) (s : State) : Host.Outcome State Fault Refusal := upCmd 13 parcel f s

/-- R371: UP_EXP2. -/
def execUpExp2 (parcel : Nat) (f : UpF) (s : State) : Host.Outcome State Fault Refusal := upCmd 14 parcel f s

/-- R371: UP_LOG2. -/
def execUpLog2 (parcel : Nat) (f : UpF) (s : State) : Host.Outcome State Fault Refusal := upCmd 15 parcel f s

/-- R371: UP_END: the element takes u4 as d, u2 as the new m and u3 as the new v; the next one follows. -/
def execUpEnd (parcel : Nat) (s : State) : Host.Outcome State Fault Refusal := upCmd 0x3F parcel {} s

end Sys2Proof.Machine
end

