-- ==== Sys2Proof/Machine/Dispatch.lean ====
section
/-! DEFINITION. The dispatch: one arm per command, each one direct call of its meaning. -/

namespace Sys2Proof.Machine

/-- The effect of a command on everything but the queue. -/
def exec (i : Instr) (s : State) : Host.Outcome State Fault Refusal :=
  match i with
  | .frameTick => Sys2Proof.Machine.execFrameTick s
  | .frameBoundaryChangeApply => Sys2Proof.Machine.execFrameBoundaryChangeApply s
  | .segmentStart parcel seq start => Sys2Proof.Machine.execSegmentStart parcel seq start s
  | .sequencerFillStart core => Sys2Proof.Machine.execSequencerFillStart core s
  | .sequencerFillComplete core at_ => Sys2Proof.Machine.execSequencerFillComplete core at_ s
  | .holdResume core at_ => Sys2Proof.Machine.execHoldResume core at_ s
  | .holdBoundExceeded core at_ => Sys2Proof.Machine.execHoldBoundExceeded core at_ s
  | .mmNop e => Sys2Proof.Machine.execMmNop e s
  | .mmPass e f => Sys2Proof.Machine.execMmPass e f s
  | .mmLds e f => Sys2Proof.Machine.execMmLds e f s
  | .mmMode e array quarter => Sys2Proof.Machine.execMmMode e array quarter s
  | .mmWake e mask => Sys2Proof.Machine.execMmWake e mask s
  | .mmRest e mask => Sys2Proof.Machine.execMmRest e mask s
  | .vxNop e => Sys2Proof.Machine.execVxNop e s
  | .vxAdd e f => Sys2Proof.Machine.execVxAdd e f s
  | .vxSub e f => Sys2Proof.Machine.execVxSub e f s
  | .vxMul e f => Sys2Proof.Machine.execVxMul e f s
  | .vxFma e f => Sys2Proof.Machine.execVxFma e f s
  | .vxMin e f => Sys2Proof.Machine.execVxMin e f s
  | .vxMax e f => Sys2Proof.Machine.execVxMax e f s
  | .vxMov e f => Sys2Proof.Machine.execVxMov e f s
  | .vxAbs e f => Sys2Proof.Machine.execVxAbs e f s
  | .vxNeg e f => Sys2Proof.Machine.execVxNeg e f s
  | .vxMovi e f imm => Sys2Proof.Machine.execVxMovi e f imm s
  | .vxCmp e f => Sys2Proof.Machine.execVxCmp e f s
  | .vxGsum e f => Sys2Proof.Machine.execVxGsum e f s
  | .vxGmax e f => Sys2Proof.Machine.execVxGmax e f s
  | .vxGmin e f => Sys2Proof.Machine.execVxGmin e f s
  | .vxExp2 e f => Sys2Proof.Machine.execVxExp2 e f s
  | .vxLog2 e f => Sys2Proof.Machine.execVxLog2 e f s
  | .vxRcp e f => Sys2Proof.Machine.execVxRcp e f s
  | .vxRsqrt e f => Sys2Proof.Machine.execVxRsqrt e f s
  | .vxSqrt e f => Sys2Proof.Machine.execVxSqrt e f s
  | .vxTanh e f => Sys2Proof.Machine.execVxTanh e f s
  | .vxSigm e f => Sys2Proof.Machine.execVxSigm e f s
  | .vxCvt e f => Sys2Proof.Machine.execVxCvt e f s
  | .vxQmx e f => Sys2Proof.Machine.execVxQmx e f s
  | .vxDqmx e f => Sys2Proof.Machine.execVxDqmx e f s
  | .vxMand e f => Sys2Proof.Machine.execVxMand e f s
  | .vxMor e f => Sys2Proof.Machine.execVxMor e f s
  | .vxMxor e f => Sys2Proof.Machine.execVxMxor e f s
  | .vxMnot e f => Sys2Proof.Machine.execVxMnot e f s
  | .vxMfirst e f => Sys2Proof.Machine.execVxMfirst e f s
  | .vxLd e f => Sys2Proof.Machine.execVxLd e f s
  | .vxSt e f => Sys2Proof.Machine.execVxSt e f s
  | .stNop e => Sys2Proof.Machine.execStNop e s
  | .stArm e f => Sys2Proof.Machine.execStArm e f s
  | .stStash e f => Sys2Proof.Machine.execStStash e f s
  | .stUnstash e f => Sys2Proof.Machine.execStUnstash e f s
  | .spMov e sreg rmode dreg => Sys2Proof.Machine.execSpMov e sreg rmode dreg s
  | .spFill e dreg pattern => Sys2Proof.Machine.execSpFill e dreg pattern s
  | .spGate e mask => Sys2Proof.Machine.execSpGate e mask s
  | .gateGrant core quarter => Sys2Proof.Machine.execGateGrant core quarter s
  | .spUngate e mask => Sys2Proof.Machine.execSpUngate e mask s
  | .ctStep e f => Sys2Proof.Machine.execCtStep e f s
  | .ctBlk e delta body count => Sys2Proof.Machine.execCtBlk e delta body count s
  | .ctSeta e delta dst imm => Sys2Proof.Machine.execCtSeta e delta dst imm s
  | .ctAdda e delta dst src imm => Sys2Proof.Machine.execCtAdda e delta dst src imm s
  | .ctEnd e => Sys2Proof.Machine.execCtEnd e s
  | .descriptorLanded core slot completeAt landedAt => Sys2Proof.Machine.execDescriptorLanded core slot completeAt landedAt s
  | .streamDeadlock core at_ => Sys2Proof.Machine.execStreamDeadlock core at_ s
  | .hbmReadComplete cycle rs => Sys2Proof.Machine.execHbmReadComplete cycle rs s
  | .hbmWriteComplete w => Sys2Proof.Machine.execHbmWriteComplete w s
  | .stackFatalError stack channel => Sys2Proof.Machine.execStackFatalError stack channel s
  | .foldApply => Sys2Proof.Machine.execFoldApply s
  | .retrainWindow stack ok => Sys2Proof.Machine.execRetrainWindow stack ok s
  | .tempSample t => Sys2Proof.Machine.execTempSample t s
  | .powerSample inputW dieW => Sys2Proof.Machine.execPowerSample inputW dieW s
  | .thermalHoldEnter => Sys2Proof.Machine.execThermalHoldEnter s
  | .thermalHoldExit => Sys2Proof.Machine.execThermalHoldExit s
  | .itemAdmit block => Sys2Proof.Machine.execItemAdmit block s
  | .itemReissue parcel => Sys2Proof.Machine.execItemReissue parcel s
  | .updateGroupTakeUp parcel group => Sys2Proof.Machine.execUpdateGroupTakeUp parcel group s
  | .updatePass2Start parcel group => Sys2Proof.Machine.execUpdatePass2Start parcel group s
  | .updatePass2Complete parcel group => Sys2Proof.Machine.execUpdatePass2Complete parcel group s
  | .sealWaitExpiry parcel group => Sys2Proof.Machine.execSealWaitExpiry parcel group s
  | .sealCommitApply parcel group => Sys2Proof.Machine.execSealCommitApply parcel group s
  | .inDoubtQuery parcel group => Sys2Proof.Machine.execInDoubtQuery parcel group s
  | .upAdd parcel f => Sys2Proof.Machine.execUpAdd parcel f s
  | .upSub parcel f => Sys2Proof.Machine.execUpSub parcel f s
  | .upMul parcel f => Sys2Proof.Machine.execUpMul parcel f s
  | .upFma parcel f => Sys2Proof.Machine.execUpFma parcel f s
  | .upDiv parcel f => Sys2Proof.Machine.execUpDiv parcel f s
  | .upSqrt parcel f => Sys2Proof.Machine.execUpSqrt parcel f s
  | .upRsqrt parcel f => Sys2Proof.Machine.execUpRsqrt parcel f s
  | .upMin parcel f => Sys2Proof.Machine.execUpMin parcel f s
  | .upMax parcel f => Sys2Proof.Machine.execUpMax parcel f s
  | .upAbs parcel f => Sys2Proof.Machine.execUpAbs parcel f s
  | .upNeg parcel f => Sys2Proof.Machine.execUpNeg parcel f s
  | .upSign parcel f => Sys2Proof.Machine.execUpSign parcel f s
  | .upSel parcel f => Sys2Proof.Machine.execUpSel parcel f s
  | .upExp2 parcel f => Sys2Proof.Machine.execUpExp2 parcel f s
  | .upLog2 parcel f => Sys2Proof.Machine.execUpLog2 parcel f s
  | .upEnd parcel => Sys2Proof.Machine.execUpEnd parcel s
  | .collectiveBegin parcel seq => Sys2Proof.Machine.execCollectiveBegin parcel seq s
  | .sliceExpiry parcel => Sys2Proof.Machine.execSliceExpiry parcel s
  | .sliceEnd parcel => Sys2Proof.Machine.execSliceEnd parcel s
  | .tenancyRestore parcel => Sys2Proof.Machine.execTenancyRestore parcel s
  | .heldCommandPerform parcel => Sys2Proof.Machine.execHeldCommandPerform parcel s
  | .reservePromotion core => Sys2Proof.Machine.execReservePromotion core s
  | .parcelSealApply parcel => Sys2Proof.Machine.execParcelSealApply parcel s
  | .maintDrainEffect => Sys2Proof.Machine.execMaintDrainEffect s
  | .parcelCreateDone parcel => Sys2Proof.Machine.execParcelCreateDone parcel s
  | .parcelResetDone parcel => Sys2Proof.Machine.execParcelResetDone parcel s
  | .parcelReleaseDone parcel => Sys2Proof.Machine.execParcelReleaseDone parcel s
  | .sealedDelivery parcel => Sys2Proof.Machine.execSealedDelivery parcel s
  | .hello r => Sys2Proof.Machine.execHello r s
  | .capsGet r => Sys2Proof.Machine.execCapsGet r s
  | .parcelCreateNew r => Sys2Proof.Machine.execParcelCreateNew r s
  | .parcelCreateRestore r => Sys2Proof.Machine.execParcelCreateRestore r s
  | .parcelCreateRestoreDone r => Sys2Proof.Machine.execParcelCreateRestoreDone r s
  | .parcelDestroyReset r => Sys2Proof.Machine.execParcelDestroyReset r s
  | .parcelDestroyRelease r => Sys2Proof.Machine.execParcelDestroyRelease r s
  | .parcelSeal r => Sys2Proof.Machine.execParcelSeal r s
  | .parcelQuery r => Sys2Proof.Machine.execParcelQuery r s
  | .tenancySetWrite r => Sys2Proof.Machine.execTenancySetWrite r s
  | .tenancySetDeactivate r => Sys2Proof.Machine.execTenancySetDeactivate r s
  | .planLoad r => Sys2Proof.Machine.execPlanLoad r s
  | .planUnload r => Sys2Proof.Machine.execPlanUnload r s
  | .weightsLoad r => Sys2Proof.Machine.execWeightsLoad r s
  | .weightsLoadWrapped r => Sys2Proof.Machine.execWeightsLoadWrapped r s
  | .tensorWrite r => Sys2Proof.Machine.execTensorWrite r s
  | .tensorRead r => Sys2Proof.Machine.execTensorRead r s
  | .ringSetupEnable r => Sys2Proof.Machine.execRingSetupEnable r s
  | .ringSetupDisable r => Sys2Proof.Machine.execRingSetupDisable r s
  | .itemSubmit r => Sys2Proof.Machine.execItemSubmit r s
  | .groupSetWriteGroup r => Sys2Proof.Machine.execGroupSetWriteGroup r s
  | .groupSetReadGroup r => Sys2Proof.Machine.execGroupSetReadGroup r s
  | .groupSetWriteProgram r => Sys2Proof.Machine.execGroupSetWriteProgram r s
  | .groupSetReadProgram r => Sys2Proof.Machine.execGroupSetReadProgram r s
  | .stepCommitUpdate r => Sys2Proof.Machine.execStepCommitUpdate r s
  | .stepCommitResolveAbort r => Sys2Proof.Machine.execStepCommitResolveAbort r s
  | .stepCommitClearHold r => Sys2Proof.Machine.execStepCommitClearHold r s
  | .deedGetParcel r => Sys2Proof.Machine.execDeedGetParcel r s
  | .deedGetPackage r => Sys2Proof.Machine.execDeedGetPackage r s
  | .surveyRead r => Sys2Proof.Machine.execSurveyRead r s
  | .manifestOpAdd r => Sys2Proof.Machine.execManifestOpAdd r s
  | .manifestOpPause r => Sys2Proof.Machine.execManifestOpPause r s
  | .manifestOpResume r => Sys2Proof.Machine.execManifestOpResume r s
  | .manifestOpRemove r => Sys2Proof.Machine.execManifestOpRemove r s
  | .manifestOpRead r => Sys2Proof.Machine.execManifestOpRead r s
  | .manifestOpRegister r => Sys2Proof.Machine.execManifestOpRegister r s
  | .manifestOpUnregister r => Sys2Proof.Machine.execManifestOpUnregister r s
  | .telemetryGet r => Sys2Proof.Machine.execTelemetryGet r s
  | .periodSet r => Sys2Proof.Machine.execPeriodSet r s
  | .maintDrainBegin r => Sys2Proof.Machine.execMaintDrainBegin r s
  | .maintDrainEnd r => Sys2Proof.Machine.execMaintDrainEnd r s
  | .hbmRepairList r => Sys2Proof.Machine.execHbmRepairList r s
  | .hbmRepairRow r => Sys2Proof.Machine.execHbmRepairRow r s
  | .hbmRepairLane r => Sys2Proof.Machine.execHbmRepairLane r s
  | .hbmMargin r => Sys2Proof.Machine.execHbmMargin r s
  | .fenceQuery r => Sys2Proof.Machine.execFenceQuery r s
  | .reservePromote r => Sys2Proof.Machine.execReservePromote r s
  | .eventRead r => Sys2Proof.Machine.execEventRead r s
  | .fwStage r => Sys2Proof.Machine.execFwStage r s
  | .fwActivate r => Sys2Proof.Machine.execFwActivate r s
  | .linkQuery r => Sys2Proof.Machine.execLinkQuery r s
  | .linkConfigCourier r => Sys2Proof.Machine.execLinkConfigCourier r s
  | .linkConfig8023 r => Sys2Proof.Machine.execLinkConfig8023 r s
  | .linkConfigDisable r => Sys2Proof.Machine.execLinkConfigDisable r s
  | .fedForm r => Sys2Proof.Machine.execFedForm r s
  | .fedJoin datumPostmark => Sys2Proof.Machine.execFedJoin datumPostmark s
  | .fedLeave r => Sys2Proof.Machine.execFedLeave r s
  | .routeSet r => Sys2Proof.Machine.execRouteSet r s
  | .memberRestore r => Sys2Proof.Machine.execMemberRestore r s
  | .channelSet r => Sys2Proof.Machine.execChannelSet r s
  | .channelFree r => Sys2Proof.Machine.execChannelFree r s
  | .channelQuery r => Sys2Proof.Machine.execChannelQuery r s
  | .collectiveSubmit r => Sys2Proof.Machine.execCollectiveSubmit r s
  | .getVersion r => Sys2Proof.Machine.execGetVersion r s
  | .getCapabilities r => Sys2Proof.Machine.execGetCapabilities r s
  | .negotiateAlgorithms r => Sys2Proof.Machine.execNegotiateAlgorithms r s
  | .getDigests r => Sys2Proof.Machine.execGetDigests r s
  | .getCertificate r => Sys2Proof.Machine.execGetCertificate r s
  | .challenge r => Sys2Proof.Machine.execChallenge r s
  | .getMeasurements r => Sys2Proof.Machine.execGetMeasurements r s
  | .keyExchange r => Sys2Proof.Machine.execKeyExchange r s
  | .finish r => Sys2Proof.Machine.execFinish r s
  | .keyUpdate r => Sys2Proof.Machine.execKeyUpdate r s
  | .heartbeat r => Sys2Proof.Machine.execHeartbeat r s
  | .endSession r => Sys2Proof.Machine.execEndSession r s
  | .keySet r => Sys2Proof.Machine.execKeySet r s
  | .keyClear r => Sys2Proof.Machine.execKeyClear r s
  | .signerSet r => Sys2Proof.Machine.execSignerSet r s
  | .deedParcel r => Sys2Proof.Machine.execDeedParcel r s
  | .deedPackage r => Sys2Proof.Machine.execDeedPackage r s
  | .stopInterface r => Sys2Proof.Machine.execStopInterface r s
  | .pldmRequest msg => Sys2Proof.Machine.execPldmRequest msg s
  | .mctpControl msg => Sys2Proof.Machine.execMctpControl msg s
  | .sensorUpdate => Sys2Proof.Machine.execSensorUpdate s
  | .telemetryWindowUpdate => Sys2Proof.Machine.execTelemetryWindowUpdate s
  | .mbxDoorbellInline fn block value => Sys2Proof.Machine.execMbxDoorbellInline fn block value s
  | .reqTailWrite fn block value => Sys2Proof.Machine.execReqTailWrite fn block value s
  | .envTailWrite fn block value => Sys2Proof.Machine.execEnvTailWrite fn block value s
  | .cplHeadWrite fn block value => Sys2Proof.Machine.execCplHeadWrite fn block value s
  | .dlrHeadWrite fn block value => Sys2Proof.Machine.execDlrHeadWrite fn block value s
  | .mbxCtrlWrite fn block value => Sys2Proof.Machine.execMbxCtrlWrite fn block value s
  | .mbxIrqStatusWrite fn block value => Sys2Proof.Machine.execMbxIrqStatusWrite fn block value s
  | .mbxIrqMaskWrite fn block value => Sys2Proof.Machine.execMbxIrqMaskWrite fn block value s
  | .evlogHeadWrite value => Sys2Proof.Machine.execEvlogHeadWrite value s
  | .registerWrite fn offset width value => Sys2Proof.Machine.execRegisterWrite fn offset width value s
  | .bar2Read addr len => Sys2Proof.Machine.execBar2Read addr len s
  | .bar2Write addr data => Sys2Proof.Machine.execBar2Write addr data s
  | .atsInvalidate fn addr => Sys2Proof.Machine.execAtsInvalidate fn addr s
  | .flrPf => Sys2Proof.Machine.execFlrPf s
  | .flrVf vf => Sys2Proof.Machine.execFlrVf vf s
  | .perstAssert => Sys2Proof.Machine.execPerstAssert s
  | .hotReset => Sys2Proof.Machine.execHotReset s
  | .perstDeassert => Sys2Proof.Machine.execPerstDeassert s
  | .configReady => Sys2Proof.Machine.execConfigReady s
  | .powerOn millivolts => Sys2Proof.Machine.execPowerOn millivolts s
  | .undervoltage millivolts microseconds => Sys2Proof.Machine.execUndervoltage millivolts microseconds s
  | .overvoltage millivolts microseconds => Sys2Proof.Machine.execOvervoltage millivolts microseconds s
  | .powerOverdraw watts => Sys2Proof.Machine.execPowerOverdraw watts s
  | .modResetL => Sys2Proof.Machine.execModResetL s
  | .coldBoot b => Sys2Proof.Machine.execColdBoot b s
  | .bootHbmStep b => Sys2Proof.Machine.execBootHbmStep b s
  | .bootCoreSelfTest b => Sys2Proof.Machine.execBootCoreSelfTest b s
  | .refclkLoss => Sys2Proof.Machine.execRefclkLoss s
  | .refclkReturn => Sys2Proof.Machine.execRefclkReturn s
  | .quadPortFail quad => Sys2Proof.Machine.execQuadPortFail quad s
  | .dieLost die => Sys2Proof.Machine.execDieLost die s
  | .edgeFail dieA dieB => Sys2Proof.Machine.execEdgeFail dieA dieB s
  | .laneFail port lane => Sys2Proof.Machine.execLaneFail port lane s
  | .portDown port => Sys2Proof.Machine.execPortDown port s
  | .portRetrain port => Sys2Proof.Machine.execPortRetrain port s
  | .courierFrameForward fr => Sys2Proof.Machine.execCourierFrameForward fr s
  | .data fr => Sys2Proof.Machine.execData fr s
  | .credit fr => Sys2Proof.Machine.execCredit fr s
  | .reset fr => Sys2Proof.Machine.execReset fr s
  | .abort fr => Sys2Proof.Machine.execAbort fr s
  | .skew fr => Sys2Proof.Machine.execSkew fr s
  | .hold fr => Sys2Proof.Machine.execHold fr s
  | .tick fr => Sys2Proof.Machine.execTick fr s
  | .vote fr => Sys2Proof.Machine.execVote fr s
  | .decision fr => Sys2Proof.Machine.execDecision fr s
  | .query fr => Sys2Proof.Machine.execQuery fr s
  | .answer fr => Sys2Proof.Machine.execAnswer fr s
  | .norm fr => Sys2Proof.Machine.execNorm fr s
  | .tally fr => Sys2Proof.Machine.execTally fr s
  | .holdSend => Sys2Proof.Machine.execHoldSend s
  | .peerLost member channel => Sys2Proof.Machine.execPeerLost member channel s
  | .tickLost offset => Sys2Proof.Machine.execTickLost offset s
  | .alignedRestore => Sys2Proof.Machine.execAlignedRestore s
  | .granuleService g => Sys2Proof.Machine.execGranuleService g s
  | .updatePass1Complete parcel group => Sys2Proof.Machine.execUpdatePass1Complete parcel group s
  | .portUp port member peerPort => Sys2Proof.Machine.execPortUp port member peerPort s
  | .flit port flit => Sys2Proof.Machine.execFlit port flit s
  | .hubLinkLost row => Sys2Proof.Machine.execHubLinkLost row s
  | .lockInterface r => Sys2Proof.Machine.execLockInterface r s
  | .startInterface r => Sys2Proof.Machine.execStartInterface r s
  | .ideKm r => Sys2Proof.Machine.execIdeKm r s
  | .configurationWrite fn offset value => Sys2Proof.Machine.execConfigurationWrite fn offset value s
  | .modResetLDeassert => Sys2Proof.Machine.execModResetLDeassert s
  | .warmReset b => Sys2Proof.Machine.execWarmReset b s
  | .debugToken token valid => Sys2Proof.Machine.execDebugToken token valid s

end Sys2Proof.Machine
end

