-- ==== Sys2Proof/Machine/RegRead.lean ====
section
/-! DEFINITION. What the host reads (00 R10, R11; 12 R451; 13 R466, R469; 14 R494, R496, R498, R502; 15 R554; 16 R586): the
registers of BAR0 of the functions and the identifiers in their configuration spaces. A read changes nothing: no register
of the manual is of type RC, so the table of commands has no row for it. Reserved fields and fields of type WO read
zero. -/

namespace Sys2Proof.Machine

/-- R494: the Vendor ID, Device ID and Class Code that a function reports. -/
def functionId (fn : Nat) : Nat × Nat × Nat := (0x1FD4, if fn == 0 then 0x0A20 else 0x0A21, 0x120000)

/-- R466, R496: whether a function answers the host: the PF, and the enabled VFs. -/
def fnOpen (s : State) (fn : Nat) : Bool := hostUp s && decide (fn < 64) && (fn == 0 || blockFn s fn == fn)

/-- R493: the registers of a function's capabilities that read as a constant, at offsets that the manual does not give (log entry
43). Every function: 512 B payloads, function-level reset and, on a VF, TDISP in Device Capabilities; the MSI-X table size; the
extended capabilities AER, ATS (whose queue depth 32 and smallest unit of 4 KiB read 0), DOE and 14-bit tags. The PF also: the
link of 16 lanes at 64 GT/s, readiness messages, SR-IOV with 63 VFs, offset 1 and stride 1, and 64 selective IDE streams beside
one link stream. -/
def configCaps (fn : Nat) : Tbl Nat :=
  let vf := fn != 0
  [(0x044, 2 + 2 ^ 28 + b2n vf * 2 ^ 30), (0x0B2, if vf then 31 else 2047), (0x100, 0x0001), (0x300, 0x000F), (0x304, 0),
    (0x400, 0x002E), (0x480, 0x002F), (0x484, 6)]
  ++ (if vf then [] else
    [(0x04C, 6 + 16 * 16), (0x06C, 2 ^ 31), (0x200, 0x0010), (0x20C, 63), (0x20E, 63), (0x214, 1), (0x216, 1), (0x21A, 0x0A21),
      (0x440, 0x0030), (0x444, 3 + 63 * 2 ^ 16)])

/-- The answer to a read of a function's configuration space: Request Retry Status, no answer, or the register's value. -/
inductive CfgReply where
  | retry
  | nobody
  | value (v : Nat)
  deriving DecidableEq, Repr

/-- R493, R494, R496: a read of configuration space: the identifiers, and the Class Code above a revision that the manual does not
give; the capabilities; SR-IOV and ATS control; at another offset what was written last. Before the configuration space is
ready the answer is Request Retry Status. -/
def configRead (s : State) (fn offset : Nat) : CfgReply :=
  let x := functionId fn
  if hostRetry s && decide (fn < 64) then .retry
  else if !fnOpen s fn then .nobody
  else .value (if offset == 0 then x.1 + 65536 * x.2.1
    else if offset == 8 then 256 * x.2.2 + Config.revisionId.toNat
    else if fn == 0 && offset == cfgNumVfs then s.pcie.numVfs
    else if fn == 0 && offset == cfgSriovControl then b2n s.pcie.vfEnable
    else if offset == cfgAtsControl then b2n (s.pcie.atsOn.contains fn) * 2 ^ 15
    else match tblGet (configCaps fn) offset with
      | some v => v
      | none => (tblGet s.pcie.cfg (4096 * fn + offset)).getD 0)

/-- R469: MBX_ID of a block: its number, its function, and the tenancy it is bound to. -/
def mbxId (s : State) (n : Nat) : Nat :=
  n + 2 ^ 8 * blockFn s n + (match boundTo s n with
    | some (p, t) => 2 ^ 16 * p + 2 ^ 22 + 2 ^ 24 * t
    | none => 0)

/-- R469: MBX_VERSION: the highest baseline that the firmware offers. -/
def mbxVersion : Nat := 0x00010002

/-- R469: the registers of a ring, at offsets from its base register. -/
def ringReg (r : Ring) (o : Nat) : Nat :=
  match o with
  | 0x00 => r.base % 2 ^ 32
  | 0x04 => r.base / 2 ^ 32
  | 0x08 => r.log2
  | 0x0C => r.head
  | 0x10 => r.tail
  | _ => 0

/-- R469, R496: the 32-bit word at an offset of a mailbox block: MBX_ID and MBX_VERSION, and the registers that `b` and
MBX_STATUS hold. -/
def blockWord (id status : Nat) (b : MBlock) (o : Nat) : Nat :=
  match o with
  | 0x00 => id
  | 0x04 => mbxVersion
  | 0x08 => b2n b.enable
  | 0x0C => status
  | 0x14 => b.irqStatus
  | 0x18 => b.irqMask
  | 0x1C => (b.session.map (·.baseline)).getD 0
  | _ =>
    if 0x20 ≤ o && decide (o < 0xA0) then
      ringReg (match (o - 0x20) / 32 with
        | 0 => b.req
        | 1 => b.cpl
        | 2 => b.dlr
        | _ => b.env) ((o - 0x20) % 32)
    else if 0x100 ≤ o && decide (o < 0x500) then le b.inlineReq (o - 0x100) 4
    else if 0x500 ≤ o && decide (o < 0x900) then le b.inlineRpl (o - 0x500) 4
    else 0

/-- R451, R466, R469, R496: what a function that maps a block reads in it: before READY the reset values; the PF reads no more
than MBX_ID and MBX_VERSION of a block that a VF has, or that a tenancy of a sealed or seal-pending parcel has. -/
def blockRead (s : State) (fn n o : Nat) : Nat :=
  if !s.power.ready then blockWord (n + 2 ^ 8 * blockFn s n) 0 {} o
  else if fn == 0 && (blockFn s n != 0 || blockSealed s n) && decide (8 ≤ o) then 0
  else blockWord (mbxId s n) (mbxStatus s n) (s.block n) o

/-- R503: the 32-bit word of an MSI-X table, entries of 16 bytes. -/
def msixWord (s : State) (fn o : Nat) : Nat := le ((tblGet s.pcie.msix (4096 * fn + o / 16)).getD msixEntry) (o % 16) 4

/-- R498, R502: a word of a pending bit array: vectors 8 × o on, one bit each. -/
def pbaWord (s : State) (fn o : Nat) : Nat :=
  mapOf ((List.range 32).filter (fun k => s.pcie.msixPending.contains (fn, 8 * o + k)))

/-- R550, R554: a word of the event log window: TAIL, HEAD and LOST, and the records, NUMBER n at 64 × ((n − 1) mod 4,096). -/
def evlogWord (s : State) (o : Nat) : Nat :=
  let l := s.pfLog
  let half (x : Nat) : Nat := if o % 8 == 0 then x % 2 ^ 32 else x / 2 ^ 32
  if o < 8 then half l.tail
  else if o < 16 then half l.head
  else if o < 24 then half l.lost
  else if o < 0x1000 || 0x41000 ≤ o then 0
  else match l.recs.find? (fun r => (r.1 + 4095) % 4096 == (o - 0x1000) / 64) with
    | some r => le (eventBytes r.1 r.2) (o % 64) 4
    | none => 0

/-- R498, R586: the 32-bit word at an offset of PF BAR0. -/
def pfWord (s : State) (o : Nat) : Nat :=
  let half (x : Nat) : Nat := if o % 8 == 0 then x % 2 ^ 32 else x / 2 ^ 32
  if o == 0 then (functionId 0).1 + 65536 * (functionId 0).2.1
  else if o == 4 then s.store.stepping % 65536
  else if o == 0x1000 then globalStatus s
  else if o == 0x1004 then b2n s.pcie.bar2En
  else if 0x2000 ≤ o && decide (o < 0x2200) then half ((tblGet s.pcie.windows ((o - 0x2000) / 8)).getD 0)
  else if 0x10000 ≤ o && decide (o < 0x50000) then blockRead s 0 ((o - 0x10000) / 4096) (o % 4096)
  else if 0x100000 ≤ o && decide (o < 0x100038) then half (nth s.telem.window ((o - 0x100000) / 8) 0)
  else if 0x200000 ≤ o && decide (o < 0x241000) then evlogWord s (o - 0x200000)
  else if 0x300000 ≤ o && decide (o < 0x308000) then msixWord s 0 (o - 0x300000)
  else if 0x308000 ≤ o && decide (o < 0x308100) then pbaWord s 0 (o - 0x308000)
  else 0

/-- R502: the 32-bit word at an offset of a VF's BAR0. -/
def vfWord (s : State) (fn o : Nat) : Nat :=
  if o < 0x1000 then blockRead s fn fn o
  else if 0xC000 ≤ o && decide (o < 0xC200) then msixWord s fn (o - 0xC000)
  else if 0xD000 ≤ o && decide (o < 0xD008) then pbaWord s fn (o - 0xD000)
  else 0

/-- R10, R11, R466, R498, R502: a read of n bytes at an offset of a function's BAR0; none where the function does not
answer. -/
def bar0Read (s : State) (fn offset n : Nat) : Option (List Byte) :=
  let word (o : Nat) : Nat := if fn == 0 then pfWord s o else vfWord s fn o
  if fnOpen s fn then
    some ((List.range n).map (fun k => BitVec.ofNat 8 (word ((offset + k) / 4 * 4) / 2 ^ (8 * ((offset + k) % 4)))))
  else none

end Sys2Proof.Machine
end

