-- ==== Sys2Proof/Safety.lean ====
section
/-! DEFINITION. What counts as a safe run, in the terms the claims use: every memory of the block keeps its canonical
form. -/

namespace Sys2Proof.Machine

/-- Every memory of a state is in canonical form (log entry 6). -/
def memsWf (s : State) : Bool :=
  memWf s.hbm.mem && memWf s.host.mem && s.cores.all (fun c => memWf c.2.sp) && s.dies.all (fun d => memWf d.2.store)

end Sys2Proof.Machine
end

