-- ==== Sys2Proof/Certificates/Slice0/Obligations.lean ====
section
/-! DEFINITION. The statements for the provers. A statement about a command has as its conclusion the next state that the
command's own effect gives, under conditions on the state and the operands alone; what a shared operation does (a reply, a
cadastre change, the read of a parcel's memory) is named by its function of the model, and has statements of its own. The
rules that a docstring names are those the statement rests on; OBLIGATIONS.json says which of them it states whole. -/

namespace Sys2Proof.Claims

open Sys2Proof.Machine

/-- The core of a slot's command after the errors that the command names have struck it (R540, R591; log entry 9). -/
def struck (e : CoreEnv) (s : State) : Core := e.upsets.foldl Core.strike (s.core e.core)

/-- The state in which a control slot's command is taken: the errors have struck, and the core's intra-frame cycle has come. -/
def slotStart (e : CoreEnv) (s : State) : State := (strikeCore e s).atCycle (struck e s).frameCycle

/-- The scratchpad words that an operation reads at its issue. -/
def readsOf (c : Core) : SlotOp → List Nat
  | .ld f => ldWords c f
  | .mov sreg rmode _ => movWords c sreg rmode
  | _ => []

/-- R139, R140: the core issues, and its bundle reads sound from sequencer memory (R540). -/
def issuesSound (e : CoreEnv) (s : State) : Bool :=
  issuing (struck e s) && (bundleBad (struck e s) (s.core e.core).seq.nextIdx).isNone

/-- R137, R139, R140, R227, R237, R591: the core takes the operation: it issues, the bundle has no operation in that slot
yet, and no read of the bundle or of the operation's operands finds an error or a quarter that is off. -/
def takes (e : CoreEnv) (op : SlotOp) (s : State) : Bool :=
  let c := struck e s
  issuesSound e s && !c.seq.bundle.any (fun x => slotNo x == slotNo op) && (opFault c op).isNone &&
    (c.spBad (readsOf c op).contains).isNone && (readsOf c op).all (fun w => !quarterOff c (quarterOf (8 * w)))

/-- What an operation of a bundle leaves of its core, but for its own effect: it joins the bundle, and the corrected reads of
the scratchpad are counted (R226). Everything else of the core is as before. -/
def joined (e : CoreEnv) (op : SlotOp) (s : State) : Core :=
  let c := struck e s
  let n := c.spFixed (readsOf c op).contains
  { c with
    seq := { c.seq with bundle := c.seq.bundle ++ [op] }
    spCorrected := if n = 0 then c.spCorrected else add48 c.spCorrected n }

/-- Nothing outside core k changes but the time, the logs and interrupts that count events, and parcels. -/
def besideCore (k : Nat) (s t : State) : Prop :=
  (∀ j, j ≠ k → t.core j = s.core j) ∧ t.metas = s.metas ∧ t.hbm = s.hbm ∧ t.dies = s.dies ∧ t.host = s.host ∧
    t.store = s.store ∧ t.hs = s.hs ∧ t.power = s.power ∧ t.sec = s.sec ∧ t.ports = s.ports ∧ t.fed = s.fed ∧
    t.copyA = s.copyA ∧ t.copyB = s.copyB ∧ t.recovery = s.recovery ∧ t.fails = s.fails ∧ t.changes = s.changes ∧ t.passed = s.passed ∧
    t.sessions = s.sessions ∧ t.bmcSession = s.bmcSession ∧ t.telem = s.telem ∧ t.free = s.free ∧ t.pending = s.pending ∧
    t.time.postmark = s.time.postmark

/-- A command answers a next state in which its core is `c`, and nothing else and no parcel has changed. -/
def leaves (cmd : Instr) (e : CoreEnv) (c : Core) (s : State) : Prop :=
  ∃ t, exec cmd s = .next t ∧ t.core e.core = c ∧ besideCore e.core s t ∧ t.parcels = s.parcels

/-- A command whose core takes it answers a next state in which the operation has joined the bundle and the given effects
fall due. -/
def dues (cmd : Instr) (e : CoreEnv) (op : SlotOp) (new : List (Nat × Due)) (s : State) : Prop :=
  takes e op s = true → leaves cmd e { joined e op s with due := (s.core e.core).due ++ new } s

/-- A command whose core takes it answers a next state in which a pass or load begins with the address registers of its
issue. -/
def begins (cmd : Instr) (e : CoreEnv) (op : SlotOp) (isPass : Bool) (f : MatF) (s : State) : Prop :=
  let c := s.core e.core
  takes e op s = true → leaves cmd e { joined e op s with ops := c.ops ++ [{
    isPass := isPass, issue := c.seq.plan, f := f, addr := c.addr f.vreg, stride := c.stride f.vreg, saddr := c.addr f.sreg
    qoff := c.addr f.qreg }] } s

/-- A parcel but for its items, whose exception counters may have grown, and its tenancies, whose logs may show it. -/
def bare (x : Parcel) : Parcel := { x with items := [], tenancies := [] }

/-- A vector command whose core takes it answers a next state in which the given writes of registers fall due at the end of
plan cycle T + latency − 1 (R193). -/
def writesDue (cmd : Instr) (e : CoreEnv) (op : SlotOp) (lat : Nat) (new : List Due) (s : State) : Prop :=
  takes e op s = true → ∃ t, exec cmd s = .next t ∧ besideCore e.core s t ∧ (∀ p, bare (t.parcel p) = bare (s.parcel p)) ∧
    t.core e.core = { joined e op s with
      due := (s.core e.core).due ++ new.map (fun d => ((s.core e.core).seq.plan + lat - 1, d)) }

/-- R198: a write of VD: lane i takes `res i` where it is active, zero where it is not and ZERO is set, and stays where it is
not and ZERO is clear. -/
def lanesWritten (f : VecF) (c : Core) (res : Core → Nat → Nat) (m v : Nat) : Prop :=
  ∀ i, i < lanes f.width →
    (laneActive c f i = true →
      laneOf m f.width i = 2 ^ laneBits f.width - 1 ∧ laneOf v f.width i = res c i % 2 ^ laneBits f.width) ∧
    (laneActive c f i = false → f.zero = true → laneOf m f.width i = 2 ^ laneBits f.width - 1 ∧ laneOf v f.width i = 0) ∧
    (laneActive c f i = false → f.zero = false → laneOf m f.width i = 0)

/-- R193, R198: a vector command whose core takes it answers a next state in which one write of the lanes of VD falls due. -/
def lanesDue (cmd : Instr) (e : CoreEnv) (op : SlotOp) (f : VecF) (lat : Nat) (res : Core → Nat → Nat) (s : State) : Prop :=
  ∃ m v, lanesWritten f (s.core e.core) res m v ∧ writesDue cmd e op lat [.vreg f.vd m v] s

/-- R191, R192: the value of operand A, B or C of a lane. -/
def valA (f : VecF) (c : Core) (i : Nat) : FVal := decodeF (laneFmt f.width) (opA c f i)
def valB (f : VecF) (c : Core) (i : Nat) : FVal := decodeF (laneFmt f.width) (opB c f i)
def valC (f : VecF) (c : Core) (i : Nat) : FVal := decodeF (laneFmt f.width) (opC c f i)

/-- R74: a result rounded once to the lanes' format. -/
def rounded (f : VecF) (r : Raw) : Nat := (finish (laneFmt f.width) r).1

/-- R197, R199: what writes of mask registers leave of the bit of lane i of the mask destination MD: bit i of register MD, or at
BF16 width bit i mod 128 of register MD + i div 128; none where they keep it. -/
def maskLane (d : List Due) (md i : Nat) : Option Bool :=
  match d[i / 128]? with
  | some (.mreg r m v) => if r = md + i / 128 ∧ bit m (i % 128) = true then some (bit v (i % 128)) else none
  | _ => none

/-- The commands of R482 and R532: opcode, form, and the command that a request makes. -/
def zRows : List (Nat × Option Nat × (ZReq → Instr)) := [
  (0x01, none, .hello), (0x02, none, .capsGet), (0x10, some 0, .parcelCreateNew), (0x10, some 1, .parcelCreateRestore),
  (0x10, some 2, .parcelCreateRestoreDone), (0x11, some 0, .parcelDestroyReset), (0x11, some 1, .parcelDestroyRelease),
  (0x12, none, .parcelSeal), (0x13, none, .parcelQuery), (0x14, some 0, .tenancySetWrite),
  (0x14, some 1, .tenancySetDeactivate), (0x20, none, .planLoad), (0x21, none, .planUnload)] ++ [
  (0x30, some 0, .weightsLoad), (0x30, some 1, .weightsLoadWrapped), (0x31, none, .tensorWrite), (0x32, none, .tensorRead),
  (0x40, some 0, .ringSetupEnable), (0x40, some 1, .ringSetupDisable), (0x41, none, .itemSubmit),
  (0x50, some 0, .groupSetWriteGroup), (0x50, some 1, .groupSetReadGroup), (0x50, some 2, .groupSetWriteProgram),
  (0x50, some 3, .groupSetReadProgram), (0x51, some 0, .stepCommitUpdate), (0x51, some 1, .stepCommitResolveAbort),
  (0x51, some 2, .stepCommitClearHold)] ++ [
  (0x60, some 1, .deedGetParcel), (0x60, some 2, .deedGetPackage), (0x70, none, .surveyRead), (0x80, some 0, .manifestOpAdd),
  (0x80, some 1, .manifestOpPause), (0x80, some 2, .manifestOpResume), (0x80, some 3, .manifestOpRemove),
  (0x80, some 4, .manifestOpRead), (0x80, some 5, .manifestOpRegister), (0x80, some 6, .manifestOpUnregister),
  (0x90, none, .telemetryGet), (0x91, none, .periodSet), (0xA0, some 0, .maintDrainBegin), (0xA0, some 1, .maintDrainEnd),
  (0xA1, some 0, .hbmRepairList), (0xA1, some 1, .hbmRepairRow), (0xA1, some 2, .hbmRepairLane)] ++ [
  (0xA2, none, .hbmMargin), (0xB0, none, .fenceQuery), (0xB1, none, .reservePromote), (0xC0, none, .eventRead),
  (0xD0, none, .linkQuery), (0xD1, some 0, .linkConfigCourier), (0xD1, some 1, .linkConfig8023),
  (0xD1, some 2, .linkConfigDisable), (0xD2, none, .fedForm), (0xD3, none, .fedLeave), (0xD4, none, .routeSet),
  (0xD5, none, .memberRestore), (0xD6, some 0, .channelSet), (0xD6, some 1, .channelFree), (0xD7, none, .channelQuery),
  (0xD8, none, .collectiveSubmit), (0xF0, none, .fwStage), (0xF1, none, .fwActivate)]

/-- A request of an opcode and form arrives where it can be taken. -/
def arrives (op : Nat) (form : Option Nat) (r : ZReq) (s : State) : Bool :=
  le r.env 4 2 == op && (form.isNone || formOf r s == form) && served r s

/-- R480, R418: such a request passes every check, as a command on a parcel and tenancy with a payload, and is performed
now. -/
def passes (op : Nat) (form : Option Nat) (r : ZReq) (p t : Nat) (b : List Byte) (s : State) : Bool :=
  arrives op form r s && (match zCheck r s with
    | .ok z _ p1 t1 b1 => p1 == p && t1 == t && b1 == b &&
        (!z.held || (mayPerform s p t && ((s.parcel p).ten t).held.isEmpty))
    | .refused _ => false)

/-- R471, R476: a command answers a next state: its request is taken, its effect leads to x, and it is replied to with a
status and a payload. -/
def answers (cmd : Instr) (r : ZReq) (st : RStatus) (body : List Byte) (x s : State) : Prop :=
  exec cmd s = .next (refresh (reply (ticketOf r s) st body x))

end Sys2Proof.Claims

open Sys2Proof Sys2Proof.Machine Sys2Proof.Claims

/-- A step takes the command at the front of the queue and performs it with the queue's rest; on an empty queue the block
idles (the model's choice, log entry 1). -/
def Obligations.StepPerformsTheFrontCommand : Prop :=
  (∀ (c : Instr) (s : State), step { s with pending := c :: s.pending } = exec c s) ∧
    ∀ s : State, s.pending = [] → step s = .next s

/-- No command ends in a fault or a refusal: the manual gives every command an effect, and a fault of the hardware ends
an item with a status (R534), not the machine. -/
def Obligations.EveryCommandAnswersANextState : Prop :=
  ∀ (c : Instr) (s : State), ∃ t, exec c s = .next t

/-- A command performs its effect on everything but the queue of commands, which is the model's own (log entry 1). -/
def Obligations.CommandsLeaveTheQueue : Prop :=
  ∀ (c : Instr) (s t : State), exec c s = .next t → t.pending = s.pending

/-- Every step keeps the canonical form of every memory: the HBM, the host's, the scratchpads and the die stores (log
entry 6). -/
def Obligations.StepsKeepMemoriesCanonical : Prop :=
  ∀ s t : State, memsWf s = true → step s = .next t → memsWf t = true

/-- R102, R112, R125, R130, R132, R140, R144, R226: the matrix slot: a pass or load begins with the address registers of
its issue; a mode change, the k-th wake and a rest take effect at the end of T + 7, T + 8k + 15 and T + 7. A slot without an
operation, of any of the three slots, leaves its core as it is. -/
def Obligations.MatrixSlotCompletes : Prop :=
  (∀ (e : CoreEnv) (s : State), issuesSound e s = true →
    ∀ cmd, cmd = Instr.mmNop e ∨ cmd = Instr.vxNop e ∨ cmd = Instr.stNop e → leaves cmd e (struck e s) s) ∧
  ∀ (e : CoreEnv) (s : State),
    (∀ f, begins (.mmPass e f) e (.pass f) true f s) ∧
    (∀ f, begins (.mmLds e f) e (.lds f) false f s) ∧
    (∀ a q, dues (.mmMode e a q) e (.mode a q) [((s.core e.core).seq.plan + 7, .mode a q)] s) ∧
    (∀ m, dues (.mmWake e m) e (.wake m)
      ((bitsSet m 12).mapIdx (fun k a => ((s.core e.core).seq.plan + 8 * k + 15, .awake a))) s) ∧
    (∀ m, dues (.mmRest e m) e (.rest m) ((bitsSet m 12).map (fun a => ((s.core e.core).seq.plan + 7, .rest a))) s)

/-- R73, R103 to R105, R107, R108, R137: accumulators: the products of an INT8 pass are summed exactly, an INT32 addition saturates
and counts OVERFLOW exactly when it does, and an addition to a word that an error has struck fences the core; vector i of a pass over a whole array is multiplied in column j in cycle entry(i) + j, and its
result reaches the accumulator word of its row D cycles later. -/
def Obligations.AccumulatorsTakeColumnResults : Prop :=
  (∀ a b : Nat, a < 2 ^ 32 → b < 2 ^ 32 → let x := toSigned a 32 + toSigned b 32
    toSigned (addInt32 a b).1 32 = max (-2147483648) (min 2147483647 x) ∧
      ((addInt32 a b).2 = .overflow ↔ x < -2147483648 ∨ 2147483647 < x)) ∧
  (∀ (fs sa sb : Nat) (xs ss : List Nat), xs.length ≤ 32 → let r := dot 3 fs xs ss sa sb
    toSigned r.1 32 = (List.zipWith (fun x s => toSigned x 8 * toSigned s 8) xs ss).foldl (· + ·) 0 ∧ r.2 = .none) ∧
  (∀ (k a key val : Nat) (g : Nat × Nat × Nat) (s : State), (s.core k).seq.item = some g →
    let r := addInt32 ((tblGet ((s.core k).array a).acc key).getD 0) val
    (Upset.acc a key ∉ (s.core k).upsets → ∃ c, (tblGet (c.array a).acc key).getD 0 = r.1 ∧
      applyDue k (.acc a key val .none true true) s =
        excOn k (if r.2 = .overflow then [0, 0, 1, 0] else [0, 0, 0, 0]) (s.setCore k c)) ∧
    (Upset.acc a key ∈ (s.core k).upsets →
      applyDue k (.acc a key val .none true true) s = coreFault k { cause := 1, array := a } s)) ∧
  ∀ (o : MatOp) (a : MArray) (i j : Nat), o.isPass = true → o.f.qset = 0 → i ≤ o.f.nvec → j < 32 →
    let c := colOf a ⟨0, 0, 0, 0, 32⟩ j
    let r := dot o.f.fmt c.2.1 (dataOf o 0 i) c.1 (scaleOf o 0 i) c.2.2
    let row := o.f.row + i
    let d := if o.f.fmt = 4 ∨ o.f.fmt = 5 then 7 else 6
    (entryAt o i + j + d, Due.acc o.f.array (1024 * (if row < 32 then o.f.bank else 1 - o.f.bank) + 32 * (row % 32) + j)
      r.1 r.2 o.f.add (o.f.fmt == 3)) ∈ mulStep (entryAt o i + j) o a

/-- R74, R202, R203, R205: instructions on lanes. Arithmetic: one rounding of the exact result, 4 cycles. Moves: A as it is; its
sign cleared or inverted, a NaN to the canonical NaN; the immediate in every lane, 2 cycles. Functions: at BF16 width
computed in FP32 and rounded once, 12 cycles; VX_SQRT is correctly rounded, the others have their exact cases and free
values within their bounds (log entry 11). -/
def Obligations.VectorLanesComplete : Prop :=
  (∀ (e : CoreEnv) (f : VecF) (s : State),
    lanesDue (.vxAdd e f) e (.vec .add f) f 4 (fun c i => rounded f (rawAdd (valA f c i) (valB f c i))) s ∧
    lanesDue (.vxSub e f) e (.vec .sub f) f 4 (fun c i => rounded f (rawAdd (valA f c i) (negV (valB f c i)))) s ∧
    lanesDue (.vxMul e f) e (.vec .mul f) f 4 (fun c i => rounded f (rawMul (valA f c i) (valB f c i))) s ∧
    lanesDue (.vxFma e f) e (.vec .fma f) f 4 (fun c i => rounded f
      (rawFma (if f.negp then negV (valA f c i) else valA f c i) (valB f c i)
        (if f.negc then negV (valC f c i) else valC f c i))) s ∧
    lanesDue (.vxMin e f) e (.vec .min f) f 4 (fun c i => rounded f (rawMin (valA f c i) (valB f c i))) s ∧
    lanesDue (.vxMax e f) e (.vec .max f) f 4 (fun c i => rounded f (rawMax (valA f c i) (valB f c i))) s) ∧
  (∀ (e : CoreEnv) (f : VecF) (s : State),
    lanesDue (.vxMov e f) e (.vec .mov f) f 2 (fun c i => opA c f i) s ∧
    lanesDue (.vxAbs e f) e (.vec .abs f) f 2 (fun c i => if (valA f c i).isNan then (laneFmt f.width).nanCode
      else opA c f i % 2 ^ ((laneFmt f.width).width - 1)) s ∧
    lanesDue (.vxNeg e f) e (.vec .neg f) f 2 (fun c i => if (valA f c i).isNan then (laneFmt f.width).nanCode
      else opA c f i ^^^ 2 ^ ((laneFmt f.width).width - 1)) s ∧
    ∀ imm : Word, lanesDue (.vxMovi e f imm) e (.movi f imm) f 2 (fun _ i =>
      if f.width = 0 then imm.toNat else imm.toNat / 2 ^ (16 * (i % 2)) % 2 ^ 16) s) ∧
  (∀ (e : CoreEnv) (f : VecF) (s : State),
    let at32 (t : Nat → Nat × Exc) (c : Core) (i : Nat) : Nat :=
      if f.width = 0 then (t (opA c f i)).1
      else (finish fmtBF16 (exact (f32 (t (to32 (exact (decodeF fmtBF16 (opA c f i))))).1))).1
    lanesDue (.vxExp2 e f) e (.vec .exp2 f) f 12 (at32 tExp2) s ∧
    lanesDue (.vxLog2 e f) e (.vec .log2 f) f 12 (at32 tLog2) s ∧
    lanesDue (.vxRcp e f) e (.vec .rcp f) f 12 (at32 tRcp) s ∧
    lanesDue (.vxRsqrt e f) e (.vec .rsqrt f) f 12 (at32 tRsqrt) s ∧
    lanesDue (.vxSqrt e f) e (.vec .sqrt f) f 12 (at32 (fun a => finish fmtFP32 (rawSqrt (f32 a)))) s ∧
    lanesDue (.vxTanh e f) e (.vec .tanh f) f 12 (at32 tTanh) s ∧
    lanesDue (.vxSigm e f) e (.vec .sigm f) f 12 (at32 tSigm) s)

/-- R81, R197 to R199, R201: comparisons and mask instructions write mask registers, available from T + 2: VX_CMP bit i of
register MD, or at BF16 width of the pair starting at MD, the comparison's result where lane i is active, zero where it is not
and ZERO is set, the old bit where it is not and ZERO is clear; VX_MFIRST the first N bits of MD or of the pair set and the others
clear; the others the and, or, exclusive or and complement of whole registers. -/
def Obligations.VectorMasksComplete : Prop :=
  ∀ (e : CoreEnv) (f : VecF) (s : State),
    (∃ new, writesDue (.vxCmp e f) e (.vec .cmp f) 2 new s ∧ ∀ i, i < lanes f.width → maskLane new (f.vd % 8) i =
      (if laneActive (s.core e.core) f i then
        some (cmpLane f.width f.cond (opA (s.core e.core) f i) (opB (s.core e.core) f i))
      else if f.zero then some false else none)) ∧
    (∃ new, writesDue (.vxMfirst e f) e (.vec .mfirst f) 2 new s ∧
      ∀ i, i < lanes f.width → maskLane new (f.vd % 8) i = some (decide (i < f.n))) ∧
    writesDue (.vxMand e f) e (.vec .mand f) 2
      [.mreg (f.vd % 8) (2 ^ 128 - 1) ((s.core e.core).mreg (f.va % 8) &&& (s.core e.core).mreg (f.vb % 8))] s ∧
    writesDue (.vxMor e f) e (.vec .mor f) 2
      [.mreg (f.vd % 8) (2 ^ 128 - 1) ((s.core e.core).mreg (f.va % 8) ||| (s.core e.core).mreg (f.vb % 8))] s ∧
    writesDue (.vxMxor e f) e (.vec .mxor f) 2
      [.mreg (f.vd % 8) (2 ^ 128 - 1) ((s.core e.core).mreg (f.va % 8) ^^^ (s.core e.core).mreg (f.vb % 8))] s ∧
    writesDue (.vxMnot e f) e (.vec .mnot f) 2
      [.mreg (f.vd % 8) (2 ^ 128 - 1) (2 ^ 128 - 1 - (s.core e.core).mreg (f.va % 8))] s

/-- R204: a group reduction: a balanced tree over the group's lanes in order; an inactive lane counts as +0 in a sum and
takes no part in a maximum or minimum; every lane of the group that is written takes the result, 8 cycles. -/
def Obligations.VectorReductionsComplete : Prop :=
  ∀ (e : CoreEnv) (f : VecF) (s : State), f.width = 0 →
    ∀ g, g = (if f.gs = 0 then 32 else 16) →
      let lane (sum : Bool) (c : Core) (j : Nat) : Option (Nat × Exc) :=
        if laneActive c f j then some (opA c f j, .none) else if sum then some (0, .none) else none
      let group (op : VOp) (sum : Bool) (c : Core) (i : Nat) : Nat :=
        ((treeFold (gNode op) none 8 ((List.range g).map (fun j => lane sum c (g * (i / g) + j)))).getD (0, .none)).1
      lanesDue (.vxGsum e f) e (.vec .gsum f) f 8 (group .gsum true) s ∧
      lanesDue (.vxGmax e f) e (.vec .gmax f) f 8 (group .gmax false) s ∧
      lanesDue (.vxGmin e f) e (.vec .gmin f) f 8 (group .gmin false) s

/-- R78, R206 to R209: conversions: VX_CVT as `cvtOp` gives it, with the generators of the converted lanes stepped once
exactly when SR is set; VX_DQMX an element times its block's scale, rounded to FP32; VX_QMX four blocks of 32 into part
PART of VD and four scales into VB at SPOS, 6 cycles. -/
def Obligations.VectorConversionsComplete : Prop :=
  ∀ (e : CoreEnv) (f : VecF) (s : State),
    (takes e (.vec .cvt f) s = true → ∃ t, exec (.vxCvt e f) s = .next t ∧ besideCore e.core s t ∧
      (∀ p, bare (t.parcel p) = bare (s.parcel p)) ∧
      t.core e.core = { joined e (.vec .cvt f) s with
        due := (s.core e.core).due ++ vecDue (s.core e.core).seq.plan 4 (cvtOp (s.core e.core) f)
        rng := if f.sr then (s.core e.core).rng.mapIdx (fun i w =>
          if i < lanes f.width && laneActive (s.core e.core) f i then rngStep w else w) else (s.core e.core).rng }) ∧
    (f.width = 0 → lanesDue (.vxDqmx e f) e (.vec .dqmx f) f 4 (fun c i =>
      let w := if f.sf = 8 then 4 else 8
      let el := c.vreg f.va / 2 ^ (128 * w * f.part + w * i) % 2 ^ w
      let sc := c.vreg f.vb / 2 ^ (32 * f.spos + 8 * (i / 32)) % 256
      (finish fmtFP32 (exact (scaled (decodeF (cvtFmt f.sf) el) sc))).1) s) ∧
    writesDue (.vxQmx e f) e (.vec .qmx f) 6
      (let w := if f.tf = 8 then 4 else 8
       let blocks := (List.range 4).map (fun k =>
         quantBlock (cvtFmt f.tf) ((List.range 32).map (fun i => f32 (opA (s.core e.core) f (32 * k + i)))))
       let el := packFields w ((blocks.flatMap (·.2.1)).map some)
       let sc := packFields 8 (blocks.map (fun b => some b.1))
       [.vreg f.vd (el.1 * 2 ^ (128 * w * f.part)) (el.2 * 2 ^ (128 * w * f.part)),
        .vreg f.vb (sc.1 * 2 ^ (32 * f.spos)) (sc.2 * 2 ^ (32 * f.spos))]) s

/-- R161, R162, R210 to R212, R225, R278: loads and stores between vector registers and the scratchpad, moves and fills: what is
read is read now, a vector load is available from T + 8, a vector store and a fill are written in T + 1, a move in T + 8. An
arm of any kind goes to the stream engine, which receives it in plan cycle T + 1, with the base register and the cycles of its
issue. -/
def Obligations.ScratchpadAndArmsComplete : Prop :=
  ∀ (e : CoreEnv) (s : State), let c := s.core e.core
    (∀ f : LdF,
      dues (.vxLd e f) e (.ld f) [(c.seq.plan + 7,
        .vreg f.vr ((2 ^ (8 * ldBytes f.size) - 1) * 2 ^ (8 * ldBytes f.size * f.part))
          (leNat ((ldWords c f).flatMap (fun w => memReadN c.sp (8 * w) 8)) * 2 ^ (8 * ldBytes f.size * f.part)))] s ∧
      dues (.vxSt e f) e (.st f) [(c.seq.plan + 1,
        .sp (8 * c.addr f.areg) (leBytes (c.vreg f.vr / 2 ^ (8 * ldBytes f.size * f.part)) (ldBytes f.size)))] s) ∧
    (∀ sreg rmode dreg, dues (.spMov e sreg rmode dreg) e (.mov sreg rmode dreg) [(c.seq.plan + 8,
      .sp (8 * c.addr dreg) ((movWords c sreg rmode).flatMap (fun w => memReadN c.sp (8 * w) 8)))] s) ∧
    (∀ dreg (pat : Word), dues (.spFill e dreg pat) e (.fill dreg pat) [(c.seq.plan + 1,
      .sp (8 * c.addr dreg) ((List.range 64).flatMap (fun _ => leBytes pat.toNat 4)))] s) ∧
    ∀ f : ArmF,
      let due (kind : Nat) : List (Nat × Due) :=
        [(c.seq.plan, .accept f.slot f.entry (c.addr f.breg) kind c.frameCycle c.seq.plan)]
      dues (.stArm e f) e (.arm 0 f) (due 0) s ∧ dues (.stStash e f) e (.arm 1 f) (due 1) s ∧
        dues (.stUnstash e f) e (.arm 2 f) (due 2) s

/-- R233 to R235: gates: SP_GATE requests a gate on every quarter of its mask; a request is granted once no write to the
quarter is in flight and no armed descriptor maps it, in a hold too, and a granted quarter is off from the next cycle on, when no
write of a stream reaches it any more; SP_UNGATE cancels the request, one that would be granted in the same cycle included
(log entry 22), and powers the quarter up, usable from T + 32, with undefined contents where it was off. Quarters outside the
mask stay. -/
def Obligations.ScratchpadGatingCompletes : Prop :=
  (∀ (e : CoreEnv) (m : Nat) (s : State), let c := s.core e.core
    (takes e (.gate m) s = true → ∃ t qs, exec (.spGate e m) s = .next t ∧ besideCore e.core s t ∧ t.parcels = s.parcels ∧
      t.core e.core = { joined e (.gate m) s with quarters := qs } ∧
      ∀ q, (t.core e.core).quarter q = if q < 16 ∧ bit m q = true then
        { c.quarter q with pendingGate := true, gateAt := c.seq.plan + 1 } else c.quarter q) ∧
    (takes e (.ungate m) s = true → ∃ t qs sp us, exec (.spUngate e m) s = .next t ∧ (∀ j, j ≠ e.core → t.core j = s.core j) ∧
      t.hbm = s.hbm ∧ t.dies = s.dies ∧ t.host = s.host ∧ t.parcels = s.parcels ∧
      t.core e.core = { joined e (.ungate m) s with quarters := qs, sp := sp, upsets := us } ∧
      (∀ a, bit m (quarterOf a) = false ∨ ((c.quarter (quarterOf a)).off || (c.quarter (quarterOf a)).granted) = false →
        memRead (t.core e.core).sp a = memRead c.sp a) ∧
      ∀ q, (t.core e.core).quarter q = if q < 16 ∧ bit m q = true then { usableAt := c.seq.plan + 32 } else c.quarter q)) ∧
  (∀ (k q : Nat) (s : State), let c := s.core k
    (c.quarter q).pendingGate = true → (c.quarter q).gateAt ≤ c.seq.plan →
    (∀ d ∈ c.due, ∀ a bs, d.2 = .sp a bs → quarterOf a ≠ q) →
    (∀ x ∈ c.descs, x.2.landedBy (gateCycle s c) = true ∨ q ∉ x.2.quarters) →
    exec (.gateGrant k q) s = .next (s.setCore k (if c.seq.st = .issuing
      then c.setQuarter q { c.quarter q with pendingGate := false, granted := true } else gateOff [q] c))) ∧
  (∀ (c : Core) (q : Nat), let d := gateOff [q] c
    d.quarter q = { c.quarter q with pendingGate := false, granted := false, off := true } ∧
      (∀ r, r ≠ q → d.quarter r = c.quarter r) ∧ d.sp = c.sp ∧ d.slots = c.slots ∧ d.seq = c.seq ∧
      (∀ x ∈ d.due, ∀ l, x.2 = .near l → ∀ y ∈ l, quarterOf y.1 ≠ q) ∧
      ∀ u a bs, (u, Due.sp a bs) ∈ d.due ↔ (u, Due.sp a bs) ∈ c.due) ∧
  ∀ (k q : Nat) (qs : List Nat) (s : State), (s.core k).seq.item.isSome = true → (s.core k).due = [] → q ∈ qs →
    (((finishTick k qs s).core k).quarter q).off = true ∧ ((finishTick k qs s).core k).seq.plan = (s.core k).seq.plan + 1

/-- R142 to R146, R148, R591: a control slot completes its bundle: the address registers take their new values (both sums of
CT_STEP from the values before it; a0 stays zero) and are sound, the bundle joins the open blocks, and the core goes on to its
next issue: DELTA cycles for each repeat, and the iterations of blocks whose body is complete. -/
def Obligations.ControlSlotsComplete : Prop :=
  ∀ (e : CoreEnv) (s : State), issuesSound e s = true →
    let c := struck e s
    let s1 := slotStart e s
    let goes (cmd : Instr) (ctl : CtlOp) (writes : List Nat) (regs : Core) (blocks : List Block) (first : List Todo) : Prop :=
      ctlFault c ctl = none → ∃ us,
      let r := recordBlocks blocks [replayForm ⟨c.seq.bundle, ctl, c.seq.nextIdx⟩]
      let done := s1.setCore e.core { regs with
        upsets := us
        seq := { regs.seq with
          bundle := [], nextIdx := c.seq.nextIdx + 1, blocks := r.1, todo := first ++ r.2.map Todo.issue } }
      exec cmd s = .next (runCore e.core done) ∧
        ∀ u, u ∈ us ↔ u ∈ c.upsets ∧ ∀ x b, u = .addr x b → x ∉ writes
    (∀ f : StepF, goes (.ctStep e f) (.step f) [f.incaDst, f.incbDst]
      ((c.setAreg f.incaDst (c.areg f.incaDst + c.areg f.incaSrc)).setAreg f.incbDst (c.areg f.incbDst + c.areg f.incbSrc))
      c.seq.blocks (.wait f.delta :: if f.repeat_ = 0 then []
        else [.issue ⟨c.seq.bundle, .step { f with repeat_ := f.repeat_ - 1 }, c.seq.nextIdx⟩])) ∧
    (∀ delta body count, goes (.ctBlk e delta body count) (.blk delta body count) [] c (⟨body, count, []⟩ :: c.seq.blocks)
      [.wait delta]) ∧
    (∀ delta dst imm, goes (.ctSeta e delta dst imm) (.seta delta dst imm) [dst] (c.setAreg dst imm) c.seq.blocks
      [.wait delta]) ∧
    (∀ delta dst src imm, goes (.ctAdda e delta dst src imm) (.adda delta dst src imm) [dst]
      (c.setAreg dst (c.areg src + imm)) c.seq.blocks [.wait delta])

/-- R129, R147, R171, R173, R175: CT_END: the core's last plan cycle passes and it is IDLE; when every core of the item has ended,
the segment ends: every array of its cores is OFF with registers and accumulators zero, and the item is one segment
further, with the largest hold count of its cores. -/
def Obligations.SegmentEndCompletes : Prop :=
  (∀ (e : CoreEnv) (s : State) (p seq seg : Nat), issuesSound e s = true →
    let s1 := coreTick e.core (slotStart e s)
    (s1.core e.core).seq.item = some (p, seq, seg) →
    let s2 := s1.setCore e.core { s1.core e.core with
      seq := { (s1.core e.core).seq with st := .idle, ended := true, bundle := [], blocks := [], todo := [] } }
    exec (.ctEnd e) s = .next (if (coresOf s2 p seq).all (fun k => (s2.core k).seq.ended) then segmentEnd p seq s2 else s2)) ∧
  (∀ (p seq : Nat) (i : Item) (s : State), (s.parcel p).item seq = some i →
    (∀ v, s.planFor p i = some v → i.seg + 1 < v.segments) →
    (∀ k ∈ coresOf s p seq, ∀ a, ((segmentEnd p seq s).core k).array a = arrayOff) ∧
      ∃ j, ((segmentEnd p seq s).parcel p).item seq = some j ∧ j.seg = i.seg + 1 ∧ j.segRunning = false ∧
        j.segsRun = i.segsRun + 1 ∧
        j.held = i.held + ((coresOf s p seq).map (fun k => (s.core k).seq.hold.cycles)).foldl max 0)

/-- R44, R46, R78, R110, R149, R150, R167: SEGMENT_START: every core of the item's unit stands at plan cycle 0 of the segment in
the given intra-frame cycle, its vector and mask registers zero, its arrays OFF and its generators loaded from the plan's
seed; it issues, with its address registers loaded, where it holds the segment whole and nothing of the item's last segment
is late, and holds otherwise. -/
def Obligations.SegmentStartCompletes : Prop :=
  ∀ (p seq start : Nat) (i : Item) (v : Plan) (lcs : List Nat) (s : State),
    (s.parcel p).item seq = some i → s.planFor p i = some v → mayStart s p i v start = true →
    (i.kind = .plan ∨ ∃ r, i.kind = .batch r) → unitCores (s.parcel p) v.unit = some lcs →
    (∀ c ∈ lcs, coreUp s ((s.parcel p).phys c) = true) →
    (i.begun = true ∨ (batchStart p i (s.atCycle start)).1 = .ok) →
    ∃ t, exec (.segmentStart p seq start) s = .next t ∧
      (∀ c ∈ lcs, let k := (s.parcel p).phys c
        let d := t.core k
        d.seq.item = some (p, seq, i.seg) ∧ d.seq.start = start ∧ d.seq.plan = 0 ∧ d.arrays = [] ∧ d.ops = [] ∧ d.due = [] ∧
          d.vregs = List.replicate 64 0 ∧ d.mregs = List.replicate 8 0 ∧
          ((∀ c' ∈ lcs, (s.parcel p).phys c' = k → c' = c) →
            d.rng = (List.range 256).map (rngInit (BitVec.ofNat 32 v.seed) i.seg c)) ∧
          (let ready := (readyFrom t k (p, seq, i.seg)).any (fun r => decide (r ≤ start));
            d.seq.st = (if ready then .issuing else .hold true start) ∧
            ∀ h, ready = true → fullHalf d (p, seq, i.seg) = some h → d.slots = [] ∧
              ∀ a, a < 32 → d.areg a = if a = 0 then 0 else nth h.aregs a 0)) ∧
      ∃ j, (t.parcel p).item seq = some j ∧ j.begun = true ∧ j.segRunning = true ∧ j.segStart = start ∧ j.seg = i.seg ∧
        j.segFrame = s.time.postmark

/-- R165, R166, R167: a free half of a core begins to fill with the core's next segment, read whole from the plan's storage now
(the model's choice, log entry 65), and is sound; a fill's end notes the cycle from which one half, of two under way the one
that began first, holds it whole. -/
def Obligations.SequencerFillsComplete : Prop :=
  (∀ (k : Nat) (g : Nat × Nat × Nat) (i : Item) (v : Plan) (s : State),
    nextFill s k = some g → (s.core k).seq.h0.seg ≠ some g → (s.core k).seq.h1.seg ≠ some g →
    ((s.core k).seq.h0.seg = none ∨ (s.core k).seq.h1.seg = none) →
    (s.parcel g.1).item g.2.1 = some i → s.planFor g.1 i = some v →
    let r := readSegment g.1 i v (((s.parcel g.1).logical k).getD 0xFFFF) g.2.2 s
    r.1 = .ok →
    let c := r.2.2.2.core k
    ∃ us, exec (.sequencerFillStart k) s = .next (r.2.2.2.setCore k { c with
        upsets := us
        seq := if c.seq.h0.seg = none then { c.seq with h0 := r.2.2.1, h1 := { c.seq.h1 with later := false } }
          else { c.seq with h1 := r.2.2.1 } }) ∧
      ∀ u, u ∈ us ↔ u ∈ c.upsets ∧ ∀ n, u ≠ .bundle c.seq.h0.seg.isSome n ∧ u ≠ .entry c.seq.h0.seg.isSome n) ∧
  ∀ (k at_ : Nat) (s : State),
    let full (h : SeqHalf) : SeqHalf := if h.filling then { h with filling := false, fullAt := (s.time.postmark, at_) } else h
    let q := (s.core k).seq
    let first : Prop := q.h0.filling = true ∧ (q.h1.filling = false ∨ q.h1.later = true)
    (first → exec (.sequencerFillComplete k at_) s =
      .next ((s.atCycle at_).setCore k { s.core k with seq := { q with h0 := full q.h0 } })) ∧
    (¬ first → exec (.sequencerFillComplete k at_) s =
      .next ((s.atCycle at_).setCore k { s.core k with seq := { q with h1 := full q.h1 } }))

/-- R49, R167 to R171, R174: holds: a core whose hold ends within the bound issues on from the same plan cycle, the held
cycles added; one that reaches H + 1 cycles fails its item with FRAME_OVERRUN in that cycle. A hold that waited for nothing
late is no hold (log entry 7). -/
def Obligations.HoldsComplete : Prop :=
  ∀ (k at_ : Nat) (fill : Bool) (since : Nat) (p : Nat) (i : Item) (v : Plan) (g : Nat × Nat × Nat) (s : State),
    (s.core k).seq.st = .hold fill since → runOf s k = some (p, i, some v) → (s.core k).seq.item = some g →
    (resumeAt s k (s.core k) = some at_ → (s.core k).seq.hold.cycles + (at_ - since) ≤ imgH v.image i.seg →
      let c := s.core k
      let hold := if at_ = since then dropEpisode c.seq.hold else { c.seq.hold with cycles := c.seq.hold.cycles + (at_ - since) }
      let c := { c with seq := { c.seq with st := .issuing, hold := hold } }
      exec (.holdResume k at_) s = .next (refresh (runCore k (checkDeadline k
        ((s.atCycle at_).setCore k (if fill then loadAregs g c else c)))))) ∧
    (realHold s k (s.core k) = true → since ≤ at_ →
      (s.core k).seq.hold.cycles + (at_ + 1 - since) = imgH v.image i.seg + 1 →
      exec (.holdBoundExceeded k at_) s = .next (refresh (failOn k .frameOverrun 0xFF 0xFF 0 (s.atCycle at_))))

/-- R169, R264, R265, R267, R269, R282: DESCRIPTOR_LANDED: the active descriptor of a slot moves its bytes once no earlier one must
come first, and is complete and landed in the given cycles, the first of them after the landing of the slot's descriptor before
it; an inbound one lands as it completes. The slot's next descriptor is active at once, in a hold too. -/
def Obligations.DescriptorsLand : Prop :=
  ∀ (k slot completeAt landedAt p : Nat) (i : Item) (v : Plan) (d : Desc) (s : State),
    runOf s k = some (p, i, some v) → completeAt ≤ landedAt → (d.inbound = true → landedAt = completeAt) →
    ((s.core k).slot slot).active = some d →
    (∀ g ∈ (s.core k).gone, g.1 = slot → ∀ l, g.2.landedAt = some l → l < completeAt) →
    let lc := ((s.parcel p).logical k).getD 0xFFFF
    blocked s p k lc v d = false →
    let r := moveDesc p k lc slot i v d (s.atCycle landedAt)
    r.1 = .done → exec (.descriptorLanded k slot completeAt landedAt) s =
        .next (refresh (markLanded k slot completeAt landedAt r.2)) ∧
      ∀ g j, (r.2.core k).seq.item = some g → (r.2.parcel g.1).item g.2.1 = some j → j.segRunning = true →
        ((markLanded k slot completeAt landedAt r.2).core k).slot slot =
          { active := ((r.2.core k).slot slot).next, next := none }

/-- R275, R276: STREAM_DEADLOCK: a core that has held for W cycles for descriptors of kind CORE alone, whose partner sides
are not accepted while their cores hold too, fails its item with STREAM_DEADLOCK; W is the smallest WAIT_BOUND. -/
def Obligations.DeadlocksEndItems : Prop :=
  ∀ (k at_ since p : Nat) (i : Item) (v : Plan) (slot : Nat) (d : Desc) (s : State),
    (s.core k).seq.st = .hold false since → runOf s k = some (p, i, some v) → lowest (awaited (s.core k)) = some (slot, d) →
    (∀ x ∈ awaited (s.core k), x.2.far = 2 ∧ x.2.moved = false ∧ partnerOf s p (((s.parcel p).logical k).getD 0xFFFF) x.2 = none ∧
      ∃ f u, (s.core ((s.parcel p).phys x.2.partner)).seq.st = .hold f u) →
    since + ((awaited (s.core k)).map (fun x => x.2.waitBound)).foldl min (2 ^ 32 - 1) ≤ at_ + 1 →
    ((coresOf s p i.seq).map (fun j => heldAt (s.core j) at_)).foldl max 0 ≤ imgH v.image i.seg →
    ∃ body bodyTen, let s1 := recordP evStreamDeadlock p i.tenancy i.seq 12 body bodyTen (s.atCycle at_)
      exec (.streamDeadlock k at_) s = .next (refresh (failOn k .streamDeadlock 5 slot (tenTail s1 p i.tenancy) s1))

/-- R290: bytes are what was written last: a write of a memory in canonical form is read back at its addresses, and every
other address reads as before, an undefined one included. -/
def Obligations.MemoriesReadBackWhatIsWritten : Prop :=
  ∀ (m : Mem) (a x : Nat) (bs : List Byte), memWf m = true →
    memRead (memWriteN m a bs) x = (if h : a ≤ x ∧ x - a < bs.length then bs[x - a]'h.2 else memRead m x)

/-- R293, R315: the address hash (R292) is one to one: every granule of the HBM has its own pseudo-channel of 768 and its own
index below 4,063,232 in it, which the inverse leads back from. A fold (R314) gives every granule of the folded channel a place of
its own: in the surviving pseudo-channel of rank row mod 62 of its stack, above every index that the hash uses. -/
def Obligations.HashAndFoldsGiveEveryGranuleAPlace : Prop :=
  (∀ a : Nat, a < 744 * 2 ^ 30 →
    (hashOf a).1 < 768 ∧ (hashOf a).2 < 4063232 ∧ granOf (hashOf a).1 (hashOf a).2 = a / 256) ∧
  (∀ pc row : Nat, pc < 768 → row < 4063232 →
    let t := (pc / 256 + 3 - row % 3) % 3
    let low := (pc % 256) ^^^ (row % 256 ^^^ row / 256 % 256 ^^^ row / 65536 % 64)
    granOf pc row = (3 * row + t) * 256 + low ∧ 768 * row ≤ granOf pc row ∧ granOf pc row ≤ 768 * row + 767 ∧
      ∀ x : Nat, x < 256 → hashOf (256 * granOf pc row + x) = (pc, row)) ∧
  (∀ k b row : Nat, k < 32 → b < 2 → row < 4063232 →
    ((List.range 64).filter (fun i => i / 2 != k))[row % 62]? = some (foldPlace k b row).1 ∧
      (foldPlace k b row).2 = 4063232 + 65536 * b + row / 62 ∧ (foldPlace k b row).2 < 4194304 ∧
      ∀ b' row' : Nat, b' < 2 → row' < 4063232 → foldPlace k b' row' = foldPlace k b row → b' = b ∧ row' = row)

/-- R297, R316: storing a whole granule makes it readable: its bytes are what was stored, its lost mark and its stored
errors are gone, and every byte outside it and every other granule's mark is as before. -/
def Obligations.WholeGranuleStoresClearLostMarks : Prop :=
  ∀ (a : Nat) (d : List Byte) (s : State), d.length = 256 → memWf s.hbm.mem = true →
    granData (putGran a d s) a = d ∧ granMarked (putGran a d s) (a / 256) = false ∧
      tblGet (putGran a d s).hbm.errs (a / 256) = none ∧
      ∀ x, x / 256 ≠ a / 256 → memRead (putGran a d s).hbm.mem x = memRead s.hbm.mem x ∧
        granMarked (putGran a d s) (x / 256) = granMarked s (x / 256) ∧
        tblGet (putGran a d s).hbm.errs (x / 256) = tblGet s.hbm.errs (x / 256)

/-- R283 to R285, R297 to R301, R329: HBM bursts: the reads that end in one cycle are checked; a fault that a core shows in
that cycle comes first, and of the failures of one item the first in the order of R283 counts (what fails by other commands of
the same cycle is log entry 70); a write burst of a core's outbound descriptor is stored for its parcel in the lot's line, once
no earlier write must come first; a burst of no core belongs to an engine by its address (the model's choice, log entry
56). -/
def Obligations.HbmBurstsComplete : Prop :=
  (∀ (cycle : Nat) (rs : List HbmRead) (s : State), s.power.good = true →
    let x := rs.foldl readOne ([], s.atCycle cycle)
    let y := (x.1.filterMap (·.fault)).foldl (fun s f => coreFault f.1 f.2 s) x.2
    exec (.hbmReadComplete cycle rs) s = .next (refresh
      ((firstOfItem (sortBy (fun (a b : FailedBurst) => decide (a.rank < b.rank)) x.1) []).foldl (fun s f =>
        failItem f.parcel f.seq
          ⟨f.res.item, f.res.desc, f.core, f.seg, f.slot, 0xFFFF, f.vaddr / 256 * 256, f.vaddr / 2 ^ 30⟩ f.ev s) y))) ∧
  (∀ l : List FailedBurst, (firstOfItem l []).Pairwise (fun a b => (a.parcel, a.seq) ≠ (b.parcel, b.seq)) ∧
    ∀ f ∈ l, ∃ g ∈ firstOfItem l [], (g.parcel, g.seq) = (f.parcel, f.seq)) ∧
  (∀ (w : HbmWrite) (q slot : Nat) (i : Item) (v : Plan) (d : Desc) (s : State), s.power.good = true →
    ownerOf s w.addr = some (q, slot) → agentOf (s.atCycle w.cycle) w.core w.slot = some (q, i, v, d) → d.inbound = false →
    (∃ r ∈ d.runs, r.1 ≤ slot * 2 ^ 30 + w.addr % 2 ^ 30 ∧ slot * 2 ^ 30 + w.addr % 2 ^ 30 + w.data.length ≤ r.1 + d.n0) →
    (∃ e, lotAt s (w.addr / 2 ^ 30) = some e ∧ e.2.2.owner = i.tenancy) → w.addr % 256 + w.data.length ≤ 256 →
    w.exhausted = false → blocked (s.atCycle w.cycle) q w.core (((s.parcel q).logical w.core).getD 0xFFFF) v d = false →
    let c : MCtx := { ten := i.tenancy, seq := i.seq, quiet := true }
    let x := wrLine q w.addr w.data (d.policy == 0) (q, i.seq) c (writeReplays w c (s.atCycle w.cycle))
    x.1 = .ok → exec (.hbmWriteComplete w) s = .next (refresh x.2)) ∧
  ∀ (w : HbmWrite) (q slot : Nat) (s : State), s.power.good = true → ownerOf s w.addr = some (q, slot) → w.core = 0xFFFF →
    agentOf (s.atCycle w.cycle) w.core w.slot = none → (∀ x ∈ s.fails.cores, x.1 ≠ 0xFFFF) →
    let x := writeReplays w (engineCtx true (s.atCycle w.cycle) w.addr) (s.atCycle w.cycle)
    exec (.hbmWriteComplete w) s =
      .next (refresh (if w.exhausted then collFault q slot w.addr .lost (updFault true q slot w.addr .lost x) else x))

/-- R310 to R315, R329: channels: a fatal error declares a channel dead; the folds of channels declared dead in earlier frames
are applied in a frame head; in the one retraining window of a stack in a frame a success, or a channel that is dead already,
passes the turn to the next channel, a failure repeats it, and the third in a row declares the channel dead (the turn then
passes on: log entry 16). -/
def Obligations.ChannelFailuresComplete : Prop :=
  (∀ (k ch : Nat) (s : State), s.power.good = true → k < 12 → ch < 32 →
    exec (.stackFatalError k ch) s = .next (refresh (channelDead k ch 4 s))) ∧
  (∀ s : State, s.time.cycle < 1024 →
    exec .foldApply s = .next (refresh ((List.range 12).foldl (fun s k => foldStack s.time.postmark k s) s))) ∧
  (∀ (k : Nat) (s : State), (s.stack k).unmapDue = [] →
    (∀ d, (s.stack k).foldDue = some d → s.time.postmark ≤ d.at_.1) → foldStack s.time.postmark k s = s) ∧
  ∀ (k : Nat) (s : State), s.power.good = true → k < 12 → (s.stack k).unreachable = false → s.power.drainOn = false →
    (s.stack k).window ≠ some s.time.postmark →
    let x := { s.stack k with window := some s.time.postmark }
    let dead : Prop := foldCh s k = some x.nextCh ∨ chanDead s k x.nextCh = true
    (∀ ok, ok = true ∨ dead → exec (.retrainWindow k ok) s =
      .next ((s.atCycle 1024).setStack k { x with nextCh := (x.nextCh + 1) % 32, fails := 0 })) ∧
    (¬ dead → x.fails ≠ 2 → ∃ t, exec (.retrainWindow k false) s = .next t ∧
      t.stack k = { x with fails := x.fails + 1 } ∧ t.hbm = s.hbm ∧ t.parcels = s.parcels) ∧
    (¬ dead → x.fails = 2 →
      let s1 := chanErr 7 k x.nextCh 0xFFFF 0 3 (s.atCycle 1024)
      exec (.retrainWindow k false) s = .next (refresh (channelDead k x.nextCh 3
        (s1.setStack k { x with fails := 0, nextCh := (x.nextCh + 1) % 32 }))))

/-- R242, R243, R250: an access that a granule serves, of a core that no failure of this cycle has stopped (log entry 70): a cache
hit becomes the set's most recently used line; a corrected error is counted; an uncorrectable one has the result of its line's
class, or the item fails. -/
def Obligations.GranuleServiceCompletes : Prop :=
  ∀ (g : GranReq) (s : State) (o : Nat), s.power.good = true → g.die < 8 → g.granule < 16 → (s.die g.die).lost = false →
    (s.gran (g.die, g.granule)).owner = some o → reviveAt g.core g.cycle s = none →
    let s1 := s.atCycle g.cycle
    let counted (x : State) : State := if g.corrected then dsCorrected g.die x else x
    ((s.gran (g.die, g.granule)).cache = false →
      exec (.granuleService g) s = .next (refresh (if g.uncorrectable && !g.write then
        granFail g .detect none [] (dsUndef g.die (g.addr / 32 * 32) 32 (counted s1)) else counted s1))) ∧
    ∀ w, (s.gran (g.die, g.granule)).cache = true →
      findWay (s.gran (g.die, g.granule)) (g.addr / 256 % 4096) (g.addr / 256 / 4096) = some w →
      let key := 16 * (g.addr / 256 % 4096) + w
      let s2 := counted (touch (g.die, g.granule) key s1)
      (g.uncorrectable = false → exec (.granuleService g) s = .next (refresh s2)) ∧
      ∀ l, g.uncorrectable = true → tblGet (s.gran (g.die, g.granule)).lines key = some l →
        exec (.granuleService g) s = .next (refresh (lineError g key l s2))

/-- R305 to R309, R578 to R581: TEMP_SAMPLE: the hub's and regulator's readings are taken, and those of the dies and stacks
that can be reached; a shutdown temperature of a die, a stack or the regulator removes power until the input has fallen;
otherwise a refresh factor only rises in a sample, to at least what the stack's temperature asks for, and a hold
temperature calls for a thermal hold where no earlier frame has called for one. -/
def Obligations.TemperatureSamplesComplete : Prop :=
  ∀ (x : Temps) (s : State), s.power.good = true →
    let die (lim : Nat) : Prop := lim < x.hub ∨ ∃ d, d < 8 ∧ (s.die d).lost = false ∧ lim < nth x.cd d 0
    let hbm (lim : Nat) : Prop := ∃ k, k < 12 ∧ (s.stack k).unreachable = false ∧ lim < nth x.hs k 0
    ∃ t, exec (.tempSample x) s = .next t ∧
      (die 440 ∨ hbm 460 ∨ 500 < x.regulator →
        t.power.good = false ∧ t.power.latchOff = true ∧ t.power.ready = false) ∧
      (¬ (die 440 ∨ hbm 460 ∨ 500 < x.regulator) →
        t.power.good = true ∧ t.power.hubTemp = x.hub ∧ t.power.regTemp = x.regulator ∧
        (∀ k, k < 12 → (s.stack k).unreachable = false → (t.stack k).temp = nth x.hs k 0 ∧
          (t.stack k).refresh = max (s.stack k).refresh (refreshAt (nth x.hs k 0))) ∧
        (∀ k, k < 12 → (s.stack k).unreachable = true → t.stack k = s.stack k) ∧
        (∀ d, d < 8 → t.die d = if (s.die d).lost then s.die d else { s.die d with
          temp := nth x.cd d 0, hot := (s.die d).hot || decide (380 < nth x.cd d 0)
          below := (s.die d).below && decide (nth x.cd d 0 ≤ 368) }) ∧
        (let older : Prop := s.power.holdDue ≠ 0 ∧ s.power.holdAt ≠ s.time.postmark;
          ((die 400 ∨ hbm 420) ∧ ¬ older → t.power.holdDue = 1 ∧ t.power.holdAt = s.time.postmark) ∧
          (¬ (die 400 ∨ hbm 420) ∨ older → t.power.holdDue = s.power.holdDue ∧ t.power.holdAt = s.power.holdAt)))

/-- R562 to R566, R572, R585: power: an input average above 3,400 W, or above 290 W of a die in service, calls for a hold where
nothing else does, and the input voltage is sampled with it (log entry 45); an input average above 4,000 W over 10 ms removes
power until the input has fallen. The input starts the module above 49.0 V unless a latched cause or MOD_RESET_L keeps it off: the
rails rise stage by stage, PWR_GOOD is asserted, and step 1 of the boot begins. It removes power below 47.0 V for 1 ms, above 62 V for 1 ms or
above 65 V at once, and a fall below 47.0 V clears the latch. -/
def Obligations.PowerEventsComplete : Prop :=
  ((∀ (w : Nat) (dies : List Nat) (s : State), s.power.good = true →
    let high : Prop := 3400 < w ∨ ∃ d, d < 8 ∧ (s.die d).lost = false ∧ 290 < nth dies d 0
    ∃ t, exec (.powerSample w dies) s = .next t ∧ t.power.inputW = w ∧
      (∀ d, d < 8 → t.die d = { s.die d with powerW := nth dies d 0 }) ∧
      (s.power.holdDue = 0 ∧ high → t.power.holdDue = 2) ∧
      (¬ (s.power.holdDue = 0 ∧ high) → t.power.holdDue = s.power.holdDue) ∧
      (let a := (tblGet s.telem.acc 2).getD (0, 0); tblGet t.telem.acc 2 = some (a.1 + s.power.inputMv, a.2 + 1)) ∧
      t.parcels = s.parcels ∧ t.cores = s.cores ∧ t.hbm = s.hbm) ∧
  ∀ (w : Nat) (s : State), s.power.good = true → 4000 < w → exec (.powerOverdraw w) s = .next (powerOff true s)) ∧
  (∀ (mv us : Nat) (s : State),
    (s.power.good = false → s.power.latchOff = false → s.power.modResetL = false → 49000 < mv →
      exec (.powerOn mv) s = .next (powerUp { s with power := { s.power with inputMv := mv } })) ∧
    (s.power.rails = [] → let all : List Rail := [.hotSwap, .aux, .hub, .hbm] ++ (List.range 8).map .cd
      powerUp s = { s with
        power := { s.power with rails := all, good := true, bootStage := 1 }
        outputs := s.outputs ++ all.map (.rail · true) ++ [.pwrGood true, .bootStage 1] }) ∧
    (mv < 47000 → 1000 ≤ us → s.power.good = true →
      let off := powerOff false { s with power := { s.power with inputMv := mv } }
      exec (.undervoltage mv us) s = .next { off with power := { off.power with latchOff := false } }) ∧
    (mv < 47000 → (us < 1000 ∨ s.power.good = false) → exec (.undervoltage mv us) s =
      .next { s with power := { s.power with inputMv := mv, latchOff := false } }) ∧
    (s.power.good = true → (65000 < mv ∨ (62000 < mv ∧ 1000 ≤ us)) →
      exec (.overvoltage mv us) s = .next (powerOff true { s with power := { s.power with inputMv := mv } })))

/-- R308, R519, R579, R580: thermal hold: in a frame head it begins when a reading of an earlier frame called for it, ends what R308 names, and
its HOLD frames go out; it ends at the first frame head after a whole frame within every limit; while a condition lasts its
HOLD frames are sent again. -/
def Obligations.ThermalHoldsComplete : Prop :=
  (∀ s : State, s.time.cycle < 1024 → s.power.holdOn = false → s.power.holdDue ≠ 0 → s.power.holdAt < s.time.postmark →
    let s1 := stateEvent 1 1 { s with power := { s.power with holdOn := true, holdCause := s.power.holdDue, holdDue := 0 } }
    exec .thermalHoldEnter s = .next (refresh (sendHold 100 1 (setAlert ((liveParcels s1).foldl (fun s p => holdParcel p s) s1))))) ∧
  (∀ s : State, s.time.cycle < 1024 → s.power.holdOn = true → s.power.coolLast = true →
    ∃ t, exec .thermalHoldExit s = .next t ∧ t.power.holdOn = false ∧ t.power.holdCause = 0 ∧ t.parcels = s.parcels ∧
      t.cores = s.cores ∧ t.hbm = s.hbm ∧ t.dies = s.dies) ∧
  ∀ s : State,
    let a := if s.power.holdOn then sendHold 100 1 s else s
    let b := if s.power.drainOn then sendHold 500 2 a else a
    exec .holdSend s = .next (refresh (if s.recovery then sendHold 500 3 b else b))

/-- R561, R566, R568, R569: what the removal of power leaves: everything at its value after a cold reset but fuses and boot storage,
the input's voltage, its latch and the pins, the host's own memory, and what is waiting or has been shown outside. A warm reset
begins, unless one is at its write-back already: READY falls, no core issues, every stack is in self-refresh, no item and no
session is left, the PCIe side is reset, and thermal hold and drain are over and nothing is delayed any more (what a warm reset
does to these is log entry 39). -/
def Obligations.ResetsClearTheModule : Prop :=
  (∀ (latch : Bool) (s : State), let t := powerOff latch s
    t.cores = [] ∧ t.metas = [] ∧ t.dies = [] ∧ t.hs = [] ∧ t.hbm = {} ∧ t.parcels = [] ∧ t.copyA = {} ∧ t.copyB = {} ∧
      t.blocks = [] ∧ t.bmcSession = none ∧ t.ports = [] ∧ t.fed = {} ∧ t.pfLog = {} ∧ t.bmcLog = {} ∧ t.sec = {} ∧
      t.time = {} ∧ t.recovery = false ∧ t.changes = [] ∧ t.passed = (0, 0) ∧ t.delayed = [] ∧ t.sessions = 0 ∧ t.bmcOpen = 0 ∧
      t.telem = {} ∧ t.fails = {} ∧ t.power = {
        inputMv := s.power.inputMv, latchOff := latch || s.power.latchOff, modResetL := s.power.modResetL
        refclk := s.power.refclk, sbSel := s.power.sbSel, slotId := s.power.slotId } ∧
      t.pcie = { perst := s.pcie.perst } ∧ t.store = { s.store with rowSeen := [], laneReplays := [] } ∧ t.store.svn = s.store.svn ∧
      t.store.folds = s.store.folds ∧ t.store.fenceRec = s.store.fenceRec ∧ t.store.repairs = s.store.repairs ∧
      t.store.sets = s.store.sets ∧ t.store.activeSet = s.store.activeSet ∧ t.host = s.host) ∧
  (∀ (perst : Bool) (s : State), writingBack s = false →
    let t := warmBegin perst s
    t.power.ready = false ∧ t.power.selfRefresh = true ∧ t.power.bootWarm = true ∧ t.power.holdOn = false ∧
      t.power.holdDue = 0 ∧ t.power.drainOn = false ∧ (∀ k, (t.core k).seq.st = .idle ∧ (t.core k).seq.item = none ∧ (t.core k).slots = []) ∧
      (∀ p ∈ liveParcels s, (t.parcel p).items = []) ∧ (∀ n, (t.block n).session = none) ∧
      t.bmcSession = none ∧ t.pcie = { perst := perst } ∧ t.delayed = [])

/-- R496, R565 to R569, R577, R589: pins and resets. MOD_RESET_L removes power, and its release begins the cold boot where the
last input voltage was above 49.0 V (log entry 37). PERST# asserted once READY has first been 1, or a Hot Reset over a link that is
up, READY or not, begins a warm reset: READY falls, no core has an item, no item is left, every stack is in self-refresh, and the
PCIe side is reset; during the write-back of a warm reset, and for PERST# before READY has first been 1, the PCIe side alone is
reset, and everything else stays. The link trains at the release of PERST# and at the return of the reference clock, where power,
the clock and that write-back allow it. When the configuration space is ready one Device Readiness Status message goes out.
The loss of the clock takes the link down and records an INTERNAL event of code 0x101 (log entry 37); cores and items stay. -/
def Obligations.PinsAndResetsComplete : Prop :=
  ∀ s : State,
    let warm (perst : Bool) (t : State) : Prop :=
      t.power.ready = false ∧ t.power.selfRefresh = true ∧ t.power.bootWarm = true ∧ t.power.good = true ∧
        (∀ k, (t.core k).seq.st = .idle ∧ (t.core k).seq.item = none) ∧ (∀ p ∈ liveParcels s, (t.parcel p).items = []) ∧
        t.pcie = { perst := perst } ∧ t.time.postmark = s.time.postmark
    (let t := powerOff false s;
      exec .modResetL s = .next { t with power := { t.power with modResetL := true } } ∧
        t.power.good = false ∧ t.power.ready = false ∧ t.power.bootStage = 0) ∧
    (s.power.modResetL = true → s.power.latchOff = false → 49000 < s.power.inputMv → exec .modResetLDeassert s =
      .next (powerUp { s with power := { s.power with modResetL := false } })) ∧
    (s.power.modResetL = false ∨ s.power.latchOff = true ∨ s.power.inputMv ≤ 49000 → exec .modResetLDeassert s =
      .next { s with power := { s.power with modResetL := false } }) ∧
    (s.power.good = true → s.power.readyOnce = true → writingBack s = false →
      ∃ t, exec .perstAssert s = .next t ∧ t = warmBegin true s ∧ warm true t) ∧
    (s.power.good = true → (s.power.readyOnce = false ∨ writingBack s = true) →
      exec .perstAssert s = .next { s with pcie := { perst := true } }) ∧
    (s.power.good = false → exec .perstAssert s = .next { s with pcie := { s.pcie with perst := true } }) ∧
    (s.power.good = true → s.pcie.linkUp = true → writingBack s = false →
      ∃ t, exec .hotReset s = .next t ∧ t = warmBegin s.pcie.perst s ∧ warm s.pcie.perst t) ∧
    exec .perstDeassert s = .next { s with pcie := { s.pcie with
      perst := false, linkUp := s.power.good && s.power.refclk && !writingBack s } } ∧
    (writingBack s = true ↔ s.power.bootWarm = true ∧ s.power.selfRefresh = true ∧ s.power.bootStage = 0) ∧
    (s.power.good = true → s.pcie.linkUp = true → s.pcie.cfgReady = false → exec .configReady s =
      .next { s with pcie := { s.pcie with cfgReady := true }, outputs := s.outputs ++ [.drs] }) ∧
    (s.power.refclk = true → s.power.good = true → ∃ t, exec .refclkLoss s = .next t ∧
      t = refresh (internalEvent 0x101 { s with
        power := { s.power with refclk := false }, pcie := { s.pcie with linkUp := false, cfgReady := false } }) ∧
      t.power.refclk = false ∧ t.pcie.linkUp = false ∧ t.cores = s.cores ∧ t.parcels = s.parcels ∧
      s.pfLog.tail < t.pfLog.tail) ∧
    exec .refclkReturn s = .next { s with
      power := { s.power with refclk := true }
      pcie := { s.pcie with linkUp := s.pcie.linkUp || (s.power.good && !s.pcie.perst && !writingBack s) } }

/-- R431 to R434, R572 to R575: boots: the active image set boots, else the other; without one the boot stops at step 2. The steps
run on to READY, or wait for a temperature: step 3 for the stacks, step 4 for the compute dies. What the last steps leave:
READY is 1 and every port trains; a boot whose hub die fails stops at step 4. -/
def Obligations.BootsComplete : Prop :=
  (∀ (b : BootEnv) (s : State), s.power.good = true → s.power.stopped = false →
    (s.power.bootWarm = false → s.power.bootStage = 1 →
      (∀ x, bootChoice b s = some x → exec (.coldBoot b) s = .next (refresh (bootFrom3 b (bootVerify b x false s)))) ∧
      (bootChoice b s = none → ∃ t, exec (.coldBoot b) s = .next t ∧ t.power.stopped = true ∧ t.power.bootStage = 2 ∧
        t.power.ready = s.power.ready)) ∧
    (s.power.waitBoot = true → s.power.bootStage = 2 → exec (.bootHbmStep b) s = .next (refresh (bootFrom3 b s))) ∧
    (s.power.waitBoot = true → s.power.bootStage = 3 → exec (.bootCoreSelfTest b) s = .next (refresh (bootFrom4 b s))) ∧
    (s.power.bootWarm = true → s.power.selfRefresh = true → ∀ x, bootChoice b s = some x →
      let kept := !b.hubMemoryBad && x.digests == s.power.bootSet.digests
      exec (.warmReset b) s = .next (refresh (bootFrom3 b (bootVerify b x kept (warmClear kept s))))) ∧
    (s.power.bootWarm = true → s.power.selfRefresh = true → bootChoice b s = none → ∃ t, exec (.warmReset b) s = .next t ∧
      t.power.stopped = true ∧ t.power.bootStage = 2)) ∧
  (∀ (b : BootEnv) (s : State),
    (s.power.bootWarm = true ∨ (diesHot s = false ∧ b.hubFail = false) →
      (bootFrom4 b s).power.ready = true ∧ (bootFrom4 b s).power.readyOnce = true ∧ (bootFrom4 b s).power.bootStage = 0 ∧
        ∀ k, k < 8 → ((bootFrom4 b s).port k).st = .training) ∧
    (s.power.bootWarm = false → diesHot s = true → bootFrom4 b s = { s with power := { s.power with bootStage := 3, waitBoot := true } }) ∧
    (s.power.bootWarm = false → diesHot s = false → b.hubFail = true →
      (bootFrom4 b s).power.stopped = true ∧ (bootFrom4 b s).power.bootStage = 4) ∧
    (stacksHot s = true → bootFrom3 b s = { s with power := { s.power with bootStage := 2, waitBoot := true } }))

/-- R38 to R42, R50, R517, R532: FRAME_TICK: the postmark counts one frame more, the frame begins at cycle 0 with the period
that takes effect, and no segment of the frame before issues any more; the one frame in which a package that forms a federation
lines up with the datum is longer by the δ of step 4 (log entry 79). The datum member of a federation that forms adopts its
START_POSTMARK and FRAME_PERIOD with the tick, and its FED_FORM is answered; a start that the count has passed already is not
gone back to. -/
def Obligations.FrameTicksComplete : Prop :=
  (∀ s : State, s.power.good = true → (s.fed.forming = none ∨ s.fed.upstream ≠ 0xFF) →
    ∃ t, exec .frameTick s = .next t ∧ t.time.postmark = (s.time.postmark + 1) % 2 ^ 64 ∧ t.time.cycle = 0 ∧
      t.time.period = s.time.nextPeriod.getD s.time.period ∧ t.time.nextPeriod = none ∧
      t.time.base = s.time.base + s.time.period + (joinStretch s).getD 0 ∧
      (s.fed.forming = none → t.time.base = s.time.base + s.time.period) ∧
      ∀ p ∈ liveParcels s, ∀ i ∈ (t.parcel p).items, i.segRunning = false) ∧
  (∀ (tk : Ticket) (start per : Nat) (s : State), s.power.good = true → s.fed.forming = some (tk, start, per) →
    s.fed.upstream = 0xFF → ∃ t, exec .frameTick s = .next t ∧
      t.time.postmark = max ((s.time.postmark + 1) % 2 ^ 64) start ∧ t.time.cycle = 0 ∧ t.time.period = per ∧
      t.time.nextPeriod = none ∧ t.time.base = s.time.base + s.time.period ∧ t.fed.forming = none ∧ t.fed.federated = true ∧
      t.fed.aligned = true ∧ t.fed.member = s.fed.member ∧ t.fed.number = s.fed.number ∧
      ∀ p ∈ liveParcels s, ∀ i ∈ (t.parcel p).items, i.segRunning = false) ∧
  (∀ (tk : Ticket) (start per : Nat) (s : State), s.fed.forming = some (tk, start, per) → s.fed.upstream = 0xFF →
    let n := max s.time.postmark start
    let x := jumpTo n s
    datumAdopt s = reply tk .ok (leBytes n 8) { x with
      time := { s.time with postmark := n, period := per }
      fed := { s.fed with forming := none, federated := true, aligned := true } })

/-- R36, R43, R51, R231, R323, R532, R545, R546: in a frame head, once every fold that is due is applied (R314), the change
accepted first in an earlier frame is applied: a period (from the next tick on), the begin of a drain once no parcel has
segments outstanding, its end, a promotion, the leaving of a federation; a change is never applied in the frame of its
acceptance (log entry 59), nor before one accepted earlier whose own condition holds; a period that a plan loaded since no
longer fits is answered BUSY (log entry 59). A command to promote waits while the hardware's own promotion of a core that
was fenced in an earlier frame is due (R560). The lowest reserve core of the die is promoted for a fenced core. A promoted core
starts from cleared units in the fenced core's place, and the parcel's core map names it in each place of the fenced one. -/
def Obligations.FrameHeadChangesComplete : Prop :=
  (∀ (pm : Nat) (c : Change) (rest : List (Nat × Change)) (s : State), s.changes = (pm, c) :: rest → s.time.cycle < 1024 →
    pm < s.time.postmark → foldWaits s = false → (s.passed.1 ≠ s.time.postmark ∨ s.passed.2 = 0) →
    let s1 := { s with changes := rest, passed := (s.time.postmark, 0) }
    (∀ n tk, c = .period n tk → exec .frameBoundaryChangeApply s = .next (refresh
      (if s.fed.federated || periodBusy s n then reply tk .busy [] s1
       else reply tk .ok [] { s1 with time := { s.time with nextPeriod := some n } }))) ∧
    (∀ tk, c = .drainBegin tk → (∀ p ∈ liveParcels s, outstanding s p = false) → exec .maintDrainEffect s =
      .next (refresh (reply tk .ok [] (sendHold 500 2 (stateEvent 2 1 { s1 with power := { s.power with drainOn := true } }))))) ∧
    (∀ tk, c = .drainEnd tk → exec .frameBoundaryChangeApply s =
      .next (refresh (reply tk .ok [] (stateEvent 2 0 { s1 with power := { s.power with drainOn := false } })))) ∧
    (∀ tk, c = .fedLeave tk → exec .frameBoundaryChangeApply s = .next (refresh (reply tk .ok [] (leaveFed s1)))) ∧
    (∀ f r tk, c = .promote f r tk → (parcelOfCore s f).isSome = true → (s.cmeta f).state = .fenced → r < 224 →
      r ∈ reserves s (f / 28) → promotionWaits s = false → exec .frameBoundaryChangeApply s =
        .next (refresh (reply tk .ok (leBytes r 2) (promote f r s1))))) ∧
  (∀ (kind : Change → Bool) (k : Nat) (s : State), turnOf s kind = some k → s.time.cycle < 1024 ∧ foldWaits s = false ∧
    ∃ c, s.changes[k]? = some c ∧ kind c.2 = true ∧ c.1 < s.time.postmark ∧
      ∀ j d, j < k → s.changes[j]? = some d → d.1 < s.time.postmark → changeReady s d.2 = false ∧ kind d.2 = false) ∧
  (∀ (k r : Nat) (rest : List Nat) (s : State), s.time.cycle < 1024 → (s.cmeta k).state = .fenced →
    (s.cmeta k).promoteDue = true → (s.cmeta k).fencedAt < s.time.postmark → reserves s (k / 28) = r :: rest →
    exec (.reservePromotion k) s = .next (refresh (promote k r s))) ∧
  (∀ (f r : Nat) (s : State), r ≠ f → let t := promote f r s
    t.cmeta r = { s.cmeta r with state := .promoted, replaces := some f } ∧
      t.cmeta f = { s.cmeta f with promoteDue := false } ∧ (∀ k, k ≠ r → k ≠ f → t.cmeta k = s.cmeta k) ∧
      t.core r = { spCorrected := (s.core r).spCorrected } ∧ (∀ k, k ≠ r → t.core k = s.core k) ∧
      ∀ p, (t.parcel p).coreMap = if parcelOfCore s f = some p
        then (s.parcel p).coreMap.map (fun k => if k = f then r else k) else (s.parcel p).coreMap)

/-- R168, R231, R280, R412 to R421: slices: a slice expires at the frame head after its last frame; at its end the next
tenancy with work is switched to, or the same one begins a new slice, with the length and the end rule that its descriptor has
then (R413, R420), and its batch items; a deactivated one is always switched away from; a switched tenancy runs from a later frame head on; the
held command accepted first is performed in its tenancy's slice, and the end of a slice may suspend one that is in progress
(R419): a TENSOR_WRITE stops at a granule boundary with its bytes up to there written, and goes on from there. A switch leaves nothing of the outgoing tenancy in the
parcel: no tenancy runs, every core of the parcel has a zero scratchpad and free sequencer halves, its stash cursors are
gone; cores of no parcel or of another are as before. -/
def Obligations.SlicesComplete : Prop :=
  (∀ (p : Nat) (s : State), let x := s.parcel p
    (s.time.cycle < 1024 → inService x = true → x.slice.expired = false →
      x.slice.first + x.slice.len ≤ s.time.postmark → exec (.sliceExpiry p) s = .next (s.setParcel p { x with
        slice := { x.slice with expired := true, expiredAt := x.slice.first + x.slice.len, updateDone := false } })) ∧
    (s.time.cycle < 1024 → inService x = true → sliceOver s p = true →
      (x.slice.deactivated = false →
        (∀ n, nextTen s p x.running = some n → n ≠ x.running →
          exec (.sliceEnd p) s = .next (refresh (beginSwitch p n (suspendHeld p s)))) ∧
        (nextTen s p x.running = none ∨ nextTen s p x.running = some x.running →
          exec (.sliceEnd p) s = .next (refresh (startSlice p x.running (suspendHeld p s))))) ∧
      (x.slice.deactivated = true → ∀ y n, turnIn s (Change.deactivates p) = some y →
        nextTen s p x.running = some n ∨ (nextTen s p x.running = none ∧ nextUsed s p x.running = some n) →
        exec (.sliceEnd p) s = .next (refresh (beginSwitch p n (suspendHeld p y))))) ∧
    (∀ t, let y := ((beginSlice p t s).parcel p).slice
      y.sliceEnd = (x.ten t).sliceEnd ∧ y.maxExtend = (x.ten t).maxExtend ∧ y.len = sliceLen s (x.ten t) ∧
        y.first = s.time.postmark ∧ y.expired = false) ∧
    ((x.ten x.running).held = [] → suspendHeld p s = s) ∧
    (∀ n since, x.work = .switching n since → s.time.cycle < 1024 → since < s.time.postmark →
      x.state = .active ∨ x.state = .isSealed → n ∈ x.inUse →
      exec (.tenancyRestore p) s = .next (refresh (restoreTen p n s))) ∧
    ∀ h rest, (x.ten x.running).held = h :: rest → inService x = true → (s.time.cycle < 1024 → sliceDue s x = false) →
      let y := s.modTen p x.running (fun y => { y with held := rest })
      (h.susp = none → staleTicket s h.tk = false → exec (.heldCommandPerform p) s = .next (refresh
        (dispatch h.tk.op h.form h.tk p x.running h.payload y))) ∧
      (∀ u d, h.tk.op = 0x31 → h.form = 0 → h.susp = some u → let b := h.payload
        hostRead y h.tk.block (le b 0 8 + u.done) (le b 8 8 - u.done) = some d →
        let w := pvWrite p x.running (le b 16 8 + u.done) d false (p, 0xFFFFFFFF) { ten := x.running } y
        w.1 = .ok → exec (.heldCommandPerform p) s = .next (refresh
          (reply h.tk .ok (leBytes (u.done + w.2.2.1) 8) (tenCount p x.running 4 w.2.2.2))))) ∧
  (∀ (tk : Ticket) (p t n : Nat) (b d : List Byte) (u : Susp) (s : State), tk.op = 0x31 → let a := le b 16 8
    let c := stopAt 256 a u.done n (le b 8 8)
    c ≠ le b 8 8 → hostRead s tk.block (le b 0 8 + u.done) (c - u.done) = some d →
    let w := pvWrite p t (a + u.done) d false (p, 0xFFFFFFFF) { ten := t } s
    (w.1 = .ok → onePart tk 0 p t b u (some n) s = .stops { u with done := c } w.2.2.2) ∧ (n ≠ 0 → (a + c) % 256 = 0)) ∧
  (∀ (p n : Nat) (s : State), let t := beginSwitch p n s
    (t.parcel p).running = 0xFF ∧ (t.parcel p).work = .switching n s.time.postmark ∧ (t.parcel p).cursors = [] ∧
      (∀ k ∈ (s.parcel p).coreMap, (t.core k).sp = {} ∧ (t.core k).seq.h0 = {} ∧ (t.core k).seq.h1 = {}) ∧
      (∀ k, k ∉ (s.parcel p).coreMap → t.core k = s.core k) ∧ ∀ q, q ≠ p → bare (t.parcel q) = bare (s.parcel q))

/-- R394, R395, R408, R410, R411, R417, R449, R460, R461: what ends the work on a parcel: the lots of a new parcel are zero and it
runs; a reset parcel, all its items ended, returns to its prior state, seal-pending where every position in use has asked; a
released one is FREE; a seal-pending one is SEALED with its totals of that frame head; a sealed parcel's entries and replies
of earlier frames go out. A copy of the cadastre is 270,400 bytes: the magic, format, count, generation and CRC of its header,
and 48 entries of 5,632 bytes; a tenancy's saved state is 256. -/
def Obligations.ParcelEventsComplete : Prop :=
  (∀ (p : Nat) (s : State), let x := s.parcel p
    (∀ tk, x.work = .creating tk → exec (.parcelCreateDone p) s = .next (refresh (reply tk .ok (leBytes p 2)
      (cad (parcelStarts p s.time.postmark ((x.lots.map (fun e => e.2.lot)).foldl (fun s l => zeroLot l s) s)))))) ∧
    (∀ tk prior inc y, x.work = .resetting tk prior inc → turnIn s (Change.resets p) = some y → x.items = [] →
      let z := askSeal p ((resetClears p y).modParcel p (fun y => { y with state := prior, work := .none }))
      (inc = none → x.running ∈ x.inUse → exec (.parcelResetDone p) s =
        .next (refresh (reply tk .ok [] (cad (startSlice p x.running z))))) ∧
      (∀ n, inc = some n → n ∈ x.inUse → exec (.parcelResetDone p) s =
        .next (refresh (reply tk .ok [] (restoreTen p n z))))) ∧
    (∀ tk y, x.work = .releasing tk → turnIn s (Change.releases p) = some y → x.items = [] →
      ∃ t, exec (.parcelReleaseDone p) s = .next t ∧ t.parcel p = {} ∧ ∀ q, q < 48 → q ≠ p → (t.parcel q).state = (s.parcel q).state) ∧
    (∀ y, x.sealPending = true → x.state = .active → operatorHeld x = false → turnIn s (Change.seals p) = some y →
      ∃ t, exec (.parcelSealApply p) s = .next t ∧ (t.parcel p).state = .isSealed ∧ (t.parcel p).sealPending = false ∧
        (t.parcel p).sealedAt = s.time.postmark ∧ (t.parcel p).coarse = parcelTotals x) ∧
    (s.time.cycle < 1024 →
      let due (d : Nat × Nat × Delayed) : Bool := d.1 == p && decide (d.2.1 < s.time.postmark)
      exec (.sealedDelivery p) s = .next (refresh (deliverAll p ((s.delayed.filter due).map (·.2.2))
        { s with delayed := s.delayed.filter (fun d => !due d) })))) ∧
  (∀ (k : Change → Bool) (s : State), s.time.cycle < 1024 → foldWaits s = false → (∀ c ∈ s.changes, k c.2 = false) →
    turnIn s k = some s) ∧
  (∀ c : CadCopy, (∀ e ∈ c.image, e.2.length = 5632) → let b := cadBytes c
    b.length = 270400 ∧ le b 0 4 = 0x41444143 ∧ le b 4 2 = 1 ∧ le b 6 2 = c.image.length % 65536 ∧
      le b 8 8 = c.generation % 2 ^ 64 ∧ le b 16 4 = crc32c (b.take 16 ++ b.drop 20) % 2 ^ 32) ∧
  ∀ (s : State) (p t : Nat), (savedState s p t).length = 256

/-- R331, R332, R348, R351, R354, R485, R486, R526: items: the next entry of a submission ring is admitted with the next
sequence number, which is written into the entry; an item for re-issue comes first in its parcel; a collective item whose
gate has completed begins its first operation once every item of its tenancy that was admitted before it has completed. -/
def Obligations.ItemsAreAdmitted : Prop :=
  (∀ (n p t : Nat) (e : List Byte) (s : State), boundTo s n = some (p, t) → s.power.ready = true → mayAdmit s p t = true →
    (s.block n).readStopped = false → (s.block n).req.head ≠ (s.block n).req.tail → roomFor s p t = true →
    (tenItems s p t).length < 16 → hostRead s n ((s.block n).req.addr (s.block n).req.head 64) 64 = some e →
    let k := ((s.parcel p).ten t).nextSeq
    let s1 := s.modTen p t (fun x => { x with nextSeq := k + 1, failed := x.failed.filter (· != wrap32 k) })
    let s2 := s1.setBlock n { s.block n with req := { (s.block n).req with head := wrap32 ((s.block n).req.head + 1) } }
    exec (.itemAdmit n) s = .next (refresh (admitItem p
      { seq := wrap32 k, tenancy := t, itemId := le e 0 4, length := le e 4 4, userTag := le e 8 8 }
      (writeAdmitted n (s.block n).req.head (wrap32 k) s2)))) ∧
  (∀ (p : Nat) (i : Item) (s : State), (s.parcel p).items.find? (fun i => i.reissuePending && i.begun) = some i →
    s.time.cycle < 1024 → i.segFrame < s.time.postmark → s.power.holdOn = false →
    exec (.itemReissue p) s = .next (s.modParcel p (fun x => { x with
      items := { i with begun := false, seg := 0, exc := [0, 0, 0, 0] } :: x.items.filter (fun y => y.seq != i.seq) }))) ∧
  ∀ (p seq : Nat) (i : Item) (s : State), (s.parcel p).item seq = some i → i.kind = .coll → i.begun = false →
    s.power.holdOn = false → s.power.drainOn = false → inService (s.parcel p) = true →
    (∀ j ∈ (s.parcel p).items.takeWhile (fun j => j.seq != seq), j.tenancy ≠ i.tenancy) →
    (gateState s p i.tenancy i.gate).isSome = true →
    let s1 := s.modItem p seq (fun i => { i with begun := true, coll := {} })
    let s2 := collAdvance p seq (collFuel (s1.parcel p) i) s1
    exec (.collectiveBegin p seq) s = .next (refresh (collPump p seq ((s2.parcel p).inbox.length + 1) s2))

/-- R351, R353, R364, R366 to R369, R377, R380, R383, R384, R386, R387: the steps of an update item's group: it is taken up
with step t = STEP + 1 once its gate is satisfied; its sums are formed; its factors are formed, their exceptions counted, and
pass 2 begins; its new state is
written, and it is done at STEP t, or votes as a shard; a decision is applied in a frame head, after the folds that are due and the changes accepted before it; an IN_DOUBT group asks once in
a frame. -/
def Obligations.UpdateStepsComplete : Prop :=
  (∀ (p g : Nat) (i : Item) (r : GroupRun) (s : State), runOfGroup s p g = some (i, r) →
    let ge := (s.parcel p).group g
    (r.phase = .wait → (i.groups.find? (fun q => q.phase == .wait)).any (fun q => q.group == g) = true → gFrozen ge = false →
      tblGet (s.parcel p).doomed g ≠ some (gStep ge + 1) → gateState s p i.tenancy r.gate = some true → s.power.holdOn = false → gSkew ge = false → gStep ge ≠ 0xFFFFFFFF →
      exec (.updateGroupTakeUp p g) s = .next (refresh (absorb p g
        (modRun p i.seq g (fun q => { q with phase := .pass1, step := gStep ge + 1 }) s)))) ∧
    (r.phase = .pass1 → (gSharded ge && gSkew ge) = false →
      let x := pass1 (whoOf p i) ge s
      let q := x.2.2.1
      x.1 = .ok → exec (.updatePass1Complete p g) s = .next (refresh (enterNorm p i g (modRun p i.seq g (fun r => { r with
        sw := q.sw, sg := q.sg, swAll := q.sw, sgAll := q.sg, rows := q.rows, cols := q.cols, elements := q.elements })
        (addExcItem p i.seq (countExc q.exc) x.2.2.2))))) ∧
    (∀ sum, r.phase = .norm → governing (s.parcel p) i r = some sum →
      let cf := if gPolicy ge = 1 ∨ gPolicy ge = 2 then clipFactorX ge sum else xLit one32
      let tr := trustRatioX ge cf.1 r.swAll r.sgAll
      let r1 := { r with
        phase := .pass2, cf := cf.1, tr := tr.1
        clipped := !(f32 cf.1).isNan && decide (cmpV (f32 cf.1) (f32 one32) < 0) }
      exec (.updatePass2Start p g) s = .next (refresh (addExcItem p i.seq (countExc (cf.2 ++ tr.2)) (modRun p i.seq g
        (fun _ => { r1 with elem := if gRule ge = 4 then elemLoad p i r1 0 s else [] }) s)))) ∧
    (r.phase = .pass2 → (gSharded ge && gSkew ge) = false →
      let x := pass2 (whoOf p i) r s
      let q := x.2.2.1
      let s1 := modRun p i.seq g (fun r => { r with
        sdw := orderedSum add64 0 q.dw, tally := q.tally, clipped := r.clipped || q.clipped })
        (flushItem p i.seq (addExcItem p i.seq (countExc q.exc) x.2.2.2))
      x.1 = .ok → exec (.updatePass2Complete p g) s = .next (refresh (if gSharded ge then voteReady p i g s1
        else finishGroup p i.seq g .done 0 true (modGroup p g (fun b => overlay b 4 (leBytes (gStep b + 1) 4)) s1)))) ∧
    (∀ missing : List Nat, gSharded ge = true → r.phase = .voted → gShard ge = 0 →
      missing = (List.range (gShards ge)).filter (fun k => k != gShard ge && !(r.votes.map (·.1)).contains k) →
      sealWaitOver s p (8192 + g) i r ge missing = true →
      exec (.sealWaitExpiry p g) s = .next (refresh (finishGroup p i.seq g .stepAborted 2 false s))) ∧
    (r.phase = .inDoubt → r.votedAt ≠ s.time.postmark + 1 →
      let ks := (List.range (gShards ge)).filter (fun k => k != gShard ge &&
        !s.fed.lostMembers.contains (shardMember (s.parcel p) ge k % 16384))
      exec (.inDoubtQuery p g) s = .next (modRun p i.seq g (fun r => { r with votedAt := s.time.postmark + 1 })
        (ks.foldl (fun s k => sendShard p g k ftQuery 0 (gStep ge + 1) s) s)))) ∧
  ∀ (p g : Nat) (j : Journal) (s : State), journalOf (s.parcel p) g = some j → j.decision = some true → j.applied = false → j.at_ < s.time.postmark →
    s.time.cycle < 1024 → (∀ k ∈ (s.parcel p).journal, k.decision = some true → k.applied = false → g ≤ k.group) →
    (∀ c ∈ s.changes, c.1 < s.time.postmark → c.1 ≤ j.at_ → changeReady s c.2 = false) → foldWaits s = false →
    exec (.sealCommitApply p g) s = .next (refresh (applyCommit p g j s))

/-- R371: an instruction of the program of the group in pass 2 runs on the operand registers of the element in hand when it
is the program's next one: they become what it computes, its exceptions are counted, and after the sixteenth or UP_END the
next element follows. -/
def Obligations.UpdateProgramsRun : Prop :=
  ∀ (p : Nat) (f : UpF) (i : Item) (r : GroupRun) (s : State), progRun s p = some (i, r) →
    let g := (s.parcel p).group r.group
    let pc := nth r.elem 1 0
    let w := nth (progOf (s.parcel p) g) pc 0
    (∀ op cmd, (op, cmd) ∈ [(1, Instr.upAdd p f), (2, .upSub p f), (3, .upMul p f), (4, .upFma p f), (5, .upDiv p f),
        (6, .upSqrt p f), (7, .upRsqrt p f), (8, .upMin p f), (9, .upMax p f), (10, .upAbs p f), (11, .upNeg p f),
        (12, .upSign p f), (13, .upSel p f), (14, .upExp2 p f), (15, .upLog2 p f)] → upOp w = op → upF w = f →
      let x := upStep (upCodes g (upConst g r.cf r.tr).1) op f (r.elem.drop 2)
      let r1 := { r with elem := nth r.elem 0 0 :: (pc + 1) :: x.1 }
      let s1 := modRun p i.seq r.group (fun _ => r1) (addExcItem p i.seq (countExc x.2) s)
      exec cmd s = .next (if pc = 15 then nextElem p i r1 s1 else s1)) ∧
    (upOp w = 0x3F → exec (.upEnd p) s = .next (nextElem p i r s))

/-- R418, R480, R484: a request that a check refuses is answered with the status of that check, a HELLO of BAD_BASELINE with
its 44 bytes (R477); one of class S whose tenancy's slice is
not there, or behind another, is held. The order of the first checks: the header, the baseline, the opcode, its minimum
baseline, the privilege. -/
def Obligations.RequestsAreCheckedInOrder : Prop :=
  (∀ row ∈ zRows, ∀ (r : ZReq) (s : State), arrives row.1 row.2.1 r s = true →
    (∀ st, zCheck r s = .refused st → exec (row.2.2 r) s = .next (refresh (zRefuse (ticketOf r s) st (taken r s)))) ∧
    ∀ z fm p t b, zCheck r s = .ok z fm p t b → z.held = true →
      (mayPerform s p t = false ∨ ((s.parcel p).ten t).held ≠ []) →
      exec (row.2.2 r) s = .next (refresh ((taken r s).modTen p t (fun x => { x with
        held := x.held ++ [{ tk := ticketOf r s, form := fm, payload := b }] })))) ∧
  (∀ (tk : Ticket) (st : RStatus) (s : State),
    (tk.op ≠ 1 ∨ st ≠ .badBaseline → zRefuse tk st s = reply tk st [] s) ∧
    (tk.op = 1 → zRefuse tk .badBaseline s = replyWith tk .badBaseline true (helloBody 0 0) s)) ∧
  (∀ m n, (helloBody m n).length = 44 ∧ le (helloBody m n) 0 4 = m % 2 ^ 32) ∧
  (∀ (r : ZReq) (s : State), let b := r.env; let op := le b 4 2
    (le b 0 2 ≠ 0x5A45 ∨ le b 2 1 ≠ 1 ∨ 960 < le b 12 4 ∨ (le b 3 1 ≠ 0 ∧ le b 3 1 ≠ 2) ∨ (le b 3 1 = 2 ∧ le b 12 4 ≠ 32) ∨ le b 6 2 ≠ 0 ∨ allZero b 24 40 = false →
      zCheck r s = .refused .badLength) ∧
    (le b 0 2 = 0x5A45 → le b 2 1 = 1 → (le b 3 1 = 0 ∧ le b 12 4 ≤ 960 ∨ le b 3 1 = 2 ∧ le b 12 4 = 32) → le b 6 2 = 0 →
      allZero b 24 40 = true → 64 + le b 12 4 ≤ b.length →
      (op = 1 → le b 20 4 ≠ 0 → zCheck r s = .refused .badBaseline) ∧
      (op ≠ 1 → (∀ x, sessionOf s r.block = some x → x.baseline ≠ le b 20 4) → zCheck r s = .refused .badBaseline) ∧
      ∀ x, op ≠ 1 → sessionOf s r.block = some x → x.baseline = le b 20 4 →
        (specOf op = none → zCheck r s = .refused .badOpcode) ∧
        ∀ z, specOf op = some z →
          (x.baseline % 65536 < z.minor → zCheck r s = .refused .badBaseline) ∧
          (z.minor ≤ x.baseline % 65536 → privileged z (ticketOf r s) s = false → zCheck r s = .refused .notPrivileged)))

/-- R481: a command refused at a check of R480 changes nothing in the module but the mailbox that carries its reply, the
replies that wait, and what goes outside. Of the PCIe side only the MSI-X messages that wait and the shown status may change; of
the host's memory only what a reply into it writes; of every other mailbox block only what follows from the shown status; and of the
partner's own block nothing but what carries the request and its reply. -/
def Obligations.RefusedRequestsChangeNothing : Prop :=
  ∀ row ∈ zRows, ∀ (r : ZReq) (s t : State) (st : RStatus), zCheck r s = .refused st → exec (row.2.2 r) s = .next t →
    t.parcels = s.parcels ∧ t.cores = s.cores ∧ t.metas = s.metas ∧ t.dies = s.dies ∧ t.hs = s.hs ∧ t.hbm = s.hbm ∧
      t.store = s.store ∧ t.copyA = s.copyA ∧ t.copyB = s.copyB ∧ t.recovery = s.recovery ∧ t.changes = s.changes ∧ t.passed = s.passed ∧
      t.sessions = s.sessions ∧ t.bmcSession = s.bmcSession ∧
      t.time = s.time ∧ t.power = s.power ∧ t.sec = s.sec ∧ t.ports = s.ports ∧ t.fed = s.fed ∧ t.pfLog = s.pfLog ∧
      t.bmcLog = s.bmcLog ∧ t.telem = s.telem ∧ t.free = s.free ∧ t.fails = s.fails ∧ t.pending = s.pending ∧
      t.pcie = { s.pcie with msixPending := t.pcie.msixPending, statusShown := t.pcie.statusShown } ∧
      t.host = { s.host with mem := t.host.mem } ∧ (r.slot = none → le r.env 3 1 = 0 → t.host.mem = s.host.mem) ∧
      t.bmcOpen = s.bmcOpen ∧
      (∀ n, n ≠ r.block → t.block n =
        { s.block n with irqStatus := (t.block n).irqStatus, stateShown := (t.block n).stateShown }) ∧
      let b := t.block r.block
      b = { s.block r.block with
        inlineBusy := b.inlineBusy, inlineReq := b.inlineReq, inlineRpl := b.inlineRpl, env := b.env, envNext := b.envNext
        envAnswered := b.envAnswered, irqStatus := b.irqStatus, stateShown := b.stateShown, open_ := b.open_ } ∧
        b.env = { (s.block r.block).env with head := b.env.head, tail := b.env.tail }

/-- R471, R474, R475, R460: where a reply lands: inline in the block's reply area, with INLINE_BUSY cleared; in its slot of
the envelope ring; at the board management controller's endpoint; for a block of a sealed parcel it waits for the frame
head; and a session that has ended gets none. -/
def Obligations.RepliesLandWhereTheyBelong : Prop :=
  ∀ (tk : Ticket) (st : RStatus) (body : List Byte) (s : State), tk.dead = false → tk.indirect = none →
    let data := if st = .ok ∨ st = .okPartial then body else []
    let env := envHeader 1 tk.op st.code tk.seq data.length tk.parcel tk.tenancy tk.baseline s.time.postmark ++ data
    let now : Prop := ∀ p t, boundTo s tk.block = some (p, t) → isSealed s p = false
    (staleTicket s tk = true → reply tk st body s = dropReply tk s) ∧
    (staleTicket s tk = false →
      (tk.block = 64 → now → reply tk st body s =
        { s with outputs := s.outputs ++ [.bmcReply env], bmcOpen := s.bmcOpen - b2n (ofSession s tk) }) ∧
      (tk.block ≠ 64 → now → tk.slot = none →
        ((reply tk st body s).block tk.block).inlineBusy = false ∧
        ((reply tk st body s).block tk.block).inlineRpl = (env ++ (s.block tk.block).inlineRpl.drop env.length).take 1024 ∧
        bit ((reply tk st body s).block tk.block).irqStatus 0 = true) ∧
      (∀ k l, tk.block ≠ 64 → now → tk.slot = some k →
        hostReach s tk.block ((s.block tk.block).env.addr k 2048 + 1024) env.length = some l →
        (reply tk st body s).host.mem = spansWrite l env s.host.mem ∧
        bit ((reply tk st body s).block tk.block).irqStatus 1 = true) ∧
      (∀ p t, tk.block ≠ 64 → boundTo s tk.block = some (p, t) → isSealed s p = true → reply tk st body s =
        { s with delayed := s.delayed ++ [(p, s.time.postmark, .reply tk st data)] }))

/-- R397 to R412, R420, R448, R449, R477, R478, R483: sessions, parcels and tenancies: HELLO begins a session, of the board
management controller too, and is BUSY while a command of its session is open; CAPS_GET counts cores and
lots; PARCEL_CREATE holds everything for a new parcel, or restores one; the two forms of PARCEL_DESTROY take the parcel out of
service and note the change that a frame head completes; PARCEL_SEAL is pending until every position in use has asked;
PARCEL_QUERY reads the entry; TENANCY_SET writes a position, or deactivates it, and its lots are zero. (That a deactivated
position keeps its signer alone, and which tenancy of a new parcel runs first, are log entry 48.) -/
def Obligations.ParcelCommandsComplete : Prop :=
  ∀ (r : ZReq) (p t : Nat) (b : List Byte) (s : State), let x := taken r s; let tk := ticketOf r s
    (passes 0x01 none r p t b s = true → r.block = 64 → x.bmcOpen = 0 → le b 2 2 ≠ 0xFFFF →
      let base := 65536 + min (le b 2 2) 2
      exec (.hello r) s = .next (refresh (reply { tk with baseline := base } .ok (helloBody base (x.sessions + 1))
        { x with sessions := x.sessions + 1, bmcOpen := 0, bmcSession := some ⟨x.sessions + 1, base⟩ }))) ∧
    (passes 0x01 none r p t b s = true → (if r.block = 64 then x.bmcOpen else (x.block r.block).open_) ≠ 0 →
      answers (.hello r) r .busy [] x s) ∧
    (passes 0x01 none r p t b s = true → r.block ≠ 64 → (x.block r.block).open_ = 0 → le b 2 2 ≠ 0xFFFF →
      let base := 65536 + min (le b 2 2) 2
      let y := { endSession r.block x with sessions := x.sessions + 1 }
      exec (.hello r) s = .next (refresh (reply { tk with baseline := base } .ok (helloBody base (x.sessions + 1))
        (y.modBlock r.block (fun z => { z with session := some ⟨x.sessions + 1, base⟩ }))))) ∧
    (passes 0x02 none r p t b s = true → ∃ body, answers (.capsGet r) r .ok body x s ∧
      le body 0 2 = (activeCores x).length ∧ le body 2 2 = (reserveCores x).length ∧ le body 4 2 = (freeLots x).length ∧
      le body 12 4 = x.time.period % 2 ^ 32 ∧ le body 16 4 = x.store.svn % 2 ^ 32 ∧ body.length = 20) ∧
    (∀ id, passes 0x10 (some 0) r p t b s = true → x.recovery = false →
      (List.range 48).find? (fun q => (x.parcel q).state == .free && (x.parcel q).work == .none) = some id →
      noRoom x (askedNew b) = false → (askedNew b).slots.length ≤ (freeLots x).length → badAsk x (askedNew b) = false →
      x.power.drainOn = false → x.power.holdOn = false →
      ∃ y, exec (.parcelCreateNew r) s = .next (refresh y) ∧ y = x.setParcel id (y.parcel id) ∧
        (y.parcel id).state = .free ∧ (y.parcel id).work = .creating tk ∧ (y.parcel id).quads = (askedNew b).quads ∧
        (y.parcel id).tenancies = (askedNew b).tens ∧
        (y.parcel id).lots.map (fun e => e.2.lot) = (freeLots x).take (askedNew b).slots.length) ∧
    (passes 0x10 (some 1) r p t b s = true → x.recovery = true → x.power.drainOn = false → x.power.holdOn = false →
      let e := b.drop 8
      let id := le e 0 2
      let a := askedEntry e
      let lots := (List.range 1024).filterMap (fun j => let w := le e (512 + 4 * j) 4
        if bit w 31 then some (j, ({ lot := w % 1024, classA := bit w 30, owner := le e (4608 + j) 1 } : LotEnt)) else none)
      let gs := (bitsSet (le e 16 16) 128).map (fun g => (g / 16, g % 16, bit (le e 32 16) g))
      id < 48 → le e 2 1 = 1 → le e 3 1 = 0 → (x.parcel id).state = .free → noRoom x a = false →
      (∀ g ∈ gs, (g.1, g.2.1) ∉ usedGrans x) → (∀ l ∈ lots, l.2.lot ∉ usedLots x ∧ l.2.lot < 744) → badAsk x a = false →
      answers (.parcelCreateRestore r) r .ok (leBytes id 2) (cad (restoreJournal id (x.parcel id).journal (parcelStarts id
        (le e 56 8) (x.setParcel id { quads := a.quads, granules := gs, tenancies := a.tens, lots := lots })))) s) ∧
    (passes 0x10 (some 2) r p t b s = true → x.recovery = true →
      ∃ y, answers (.parcelCreateRestoreDone r) r .ok [0xFF, 0xFF] y s ∧ y.recovery = false) ∧
    (passes 0x11 (some 0) r p t b s = true → (x.parcel p).state = .active → (x.parcel p).sealPending = false →
      sealOpen x p = false → ∃ inc, exec (.parcelDestroyReset r) s = .next (refresh (cad
        { x.modParcel p (fun y => { y with state := .resetting, work := .resetting tk .active inc }) with
          changes := x.changes.filter (fun c => !c.2.ofParcel p) ++ [(x.time.postmark, .reset p)] }))) ∧
    (passes 0x11 (some 1) r p t b s = true → (x.parcel p).state = .active → (x.parcel p).sealPending = false →
      sealOpen x p = false → exec (.parcelDestroyRelease r) s = .next (refresh (cad
        { x.modParcel p (fun y => { y with state := .releasing, work := .releasing tk }) with
          changes := x.changes.filter (fun c => !c.2.ofParcel p) ++ [(x.time.postmark, .release p)] }))) ∧
    (passes 0x12 none r p t b s = true → mayAskSeal x r.block = true → x.sec.error = false → (x.parcel p).state = .active →
      let y := x.modTen p t (fun z => { z with seals := z.seals ++ [tk] })
      (x.parcel p).sealPending = false → (y.parcel p).inUse ≠ [] → exec (.parcelSeal r) s = .next (refresh
        (if (y.parcel p).inUse.all (fun k => !((y.parcel p).ten k).seals.isEmpty)
         then { y.modParcel p (fun z => { z with sealPending := true }) with
           changes := y.changes ++ [(y.time.postmark, .sealed p)] } else y))) ∧
    (passes 0x13 none r p t b s = true → ∃ body, answers (.parcelQuery r) r .ok body x s ∧
      body.take 512 = (parcelEntry x p (lotLost x)).take 512 ∧ body.length = 5632) ∧
    (passes 0x14 (some 0) r p t b s = true → posBusy x p (le b 0 1) = false →
      let old := (x.parcel p).ten (le b 0 1)
      old.mailbox = le b 8 1 → 1 ≤ le b 8 1 → le b 8 1 ≤ 63 →
      answers (.tenancySetWrite r) r .ok [] (cad (x.modTen p (le b 0 1) (fun y => { y with
        mailbox := le b 8 1, sliceEnd := le b 9 1, slice := le b 10 2, maxExtend := le b 12 2 }))) s) ∧
    (passes 0x14 (some 1) r p t b s = true → posBusy x p (le b 0 1) = false → (x.parcel p).inUse ≠ [le b 0 1] →
      le b 0 1 ∈ (x.parcel p).inUse → ∃ y, answers (.tenancySetDeactivate r) r .ok [] y s ∧
        (y.parcel p).ten (le b 0 1) = { signer := ((x.parcel p).ten (le b 0 1)).signer } ∧
        ∀ e ∈ (x.parcel p).lots, e.2.owner = le b 0 1 → e.2.lot < 744 →
          ∀ o, o < 2 ^ 30 → memRead y.hbm.mem (e.2.lot * 2 ^ 30 + o) = 0)

/-- R357, R372, R388 to R392, R422, R423, R428, R483, R486, R490, R550, R553, R554: a tenancy's rings, groups, programs, update
requests, survey, manifest and log. (Heads and tails of zero at RING_SETUP are log entry 34; the lowest free registration index,
the readings of the manifest and what follows a REMOVE that still waits are entry 49; SURVEY_NEXT's count is entry 73.) -/
def Obligations.TenancyCommandsComplete : Prop :=
  ∀ (r : ZReq) (p t : Nat) (b : List Byte) (s : State), let x := taken r s; let tk := ticketOf r s; let n := r.block
    (passes 0x40 (some 0) r p t b s = true → bit (le b 0 1) 0 = true → bit (le b 0 1) 1 = false →
      ringOk (x.block n).req 4 16 = true → ringOk (x.block n).cpl 4 16 = true → ringOk (x.block n).dlr 4 16 = true →
      let zero (q : Ring) : Ring := { q with head := 0, tail := 0 }
      let y := drainRings p t (x.setBlock n { x.block n with
        itemRings := true, readStopped := false, cplStopped := false, dlrStopped := false
        req := zero (x.block n).req, cpl := zero (x.block n).cpl, dlr := zero (x.block n).dlr })
      answers (.ringSetupEnable r) r .ok (reqReply n p t y) y s) ∧
    (passes 0x40 (some 1) r p t b s = true → tenItems x p t = [] → r.slot = none →
      let y := x.modBlock n (fun z => { z with
        itemRings := z.itemRings && !bit (le b 0 1) 0, envRing := z.envRing && !bit (le b 0 1) 1 })
      answers (.ringSetupDisable r) r .ok (reqReply n p t y) y s) ∧
    (∀ y, passes 0x41 none r p t b s = true → (x.block n).itemRings = true → setReqTail n (le b 0 4) x = some y →
      answers (.itemSubmit r) r .ok (reqReply n p t y) y s) ∧
    (passes 0x50 (some 0) r p t b s = true →
      let old := (x.parcel p).group (le b 2 2)
      let g := gSetFlag 10 (gSkew old) (gSetFlag 11 (gLocked old) (overlay (slice b 8 160) 34 (slice old 34 6)))
      (gValid g = true → (∀ q ∈ allRegions g ++ stageRegions g, plainRegion (x.parcel p) t q.1 q.2 = true) ∧
        groupOk (x.parcel p) (le b 2 2) g = true) → groupReserved g = true → gLocked old = false →
      answers (.groupSetWriteGroup r) r .ok [] (modGroup p (le b 2 2) (fun _ => g) x) s) ∧
    (passes 0x50 (some 1) r p t b s = true →
      answers (.groupSetReadGroup r) r .ok ((x.parcel p).group (le b 2 2)) x s) ∧
    (passes 0x50 (some 2) r p t b s = true → (∀ w ∈ runWords (progWords (slice b 8 64)), upWordOk w = true) →
      (∀ e ∈ (x.parcel p).groups, gLocked e.2 = false) →
      answers (.groupSetWriteProgram r) r .ok [] (x.modParcel p (fun y => { y with
        programs := tblPut y.programs (le b 2 2) (slice b 8 64) })) s) ∧
    (passes 0x50 (some 3) r p t b s = true →
      answers (.groupSetReadProgram r) r .ok ((tblGet (x.parcel p).programs (le b 2 2)).getD (zeros 64)) x s) ∧
    (passes 0x51 (some 0) r p t b s = true → hasDup ((namedGroups b).map (·.1)) = false → le b 4 2 = 0xFFFF →
      (∀ g ∈ namedGroups b, gLocked ((x.parcel p).group g.1) = false) → (∀ i ∈ tenItems x p t, i.kind ≠ .update) →
      (isSealed x p = true → x.sec.error = false) → roomFor x p t = true → exec (.stepCommitUpdate r) s = .next (refresh (admitUpdate tk p t b x))) ∧
    (passes 0x51 (some 1) r p t b s = true → hasDup ((namedGroups b).map (·.1)) = false →
      (∀ g ∈ namedGroups b, inDoubt x p g.1 = true) → exec (.stepCommitResolveAbort r) s = .next (refresh
        (((namedGroups b).map (·.1)).foldl (fun y g => resolveAbort p g y) (reply tk .ok (zeros 4) x)))) ∧
    (passes 0x51 (some 2) r p t b s = true →
      answers (.stepCommitClearHold r) r .ok (zeros 4) (x.modTen p t (fun y => { y with divHold := false })) s) ∧
    (passes 0x70 none r p t b s = true → ∃ y body, answers (.surveyRead r) r .ok body y s ∧
      le body 0 2 = min (min (le b 0 2) ((tk.space - 16) / 80))
        ((x.parcel p).survey.filter (fun q => le q 68 1 == t)).length % 65536 ∧
      (y.parcel p).survey.filter (fun q => le q 68 1 != t) = (x.parcel p).survey.filter (fun q => le q 68 1 != t) ∧
      ((y.parcel p).ten t).surveyNext = wrap32 (((x.parcel p).ten t).surveyNext + min (min (le b 0 2) ((tk.space - 16) / 80))
        ((x.parcel p).survey.filter (fun q => le q 68 1 == t)).length)) ∧
    (∀ reg, passes 0x80 (some 0) r p t b s = true → ((x.parcel p).manifest.filter (fun e => e.2.state != 0)).length < 4096 →
      le b 13 1 = t → tblGet (x.parcel p).regs (le b 14 2) = some reg → reg.tenancy = t → reg.kvl = 0 →
      (∀ k, k < 4 → le b (32 + 2 * k) 2 = 0xFFFF) →
      ∃ idx, idx < 4096 ∧ (∀ e ∈ (x.parcel p).manifest, e.2.state ≠ 0 → e.1 ≠ idx) ∧
        answers (.manifestOpAdd r) r .ok (leBytes idx 2) (x.modParcel p (fun y => { y with
          manifest := tblPut y.manifest idx ⟨le b 8 4, 1, t, le b 14 2, le b 16 4, 0, x.time.postmark,
            [0xFFFF, 0xFFFF, 0xFFFF, 0xFFFF], none⟩ })) s) ∧
    (∀ m, tblGet (x.parcel p).manifest (le b 2 2) = some m → m.state ≠ 0 → m.tenancy = t → m.pendingOp = some 0 →
      ∀ cmd, (passes 0x80 (some 1) r p t b s = true ∧ cmd = Instr.manifestOpPause r) ∨
          (passes 0x80 (some 2) r p t b s = true ∧ cmd = Instr.manifestOpResume r) ∨
          (passes 0x80 (some 3) r p t b s = true ∧ cmd = Instr.manifestOpRemove r) → answers cmd r .badParcel [] x s) ∧
    (∀ m, tblGet (x.parcel p).manifest (le b 2 2) = some m → m.state ≠ 0 → m.tenancy = t → m.pendingOp ≠ some 0 →
      (∀ i ∈ (x.parcel p).items, le b 2 2 ∉ i.batch) →
      let put (y : Tbl MEntry) : State := x.modParcel p (fun z => { z with manifest := y })
      (passes 0x80 (some 1) r p t b s = true → answers (.manifestOpPause r) r .ok []
        (put (tblPut (x.parcel p).manifest (le b 2 2) { m with state := 2, pendingOp := none })) s) ∧
      (passes 0x80 (some 2) r p t b s = true → m.state = 2 ∨ m.state = 3 → answers (.manifestOpResume r) r .ok []
        (put (tblPut (x.parcel p).manifest (le b 2 2) { m with state := 1, pendingOp := none })) s) ∧
      (passes 0x80 (some 3) r p t b s = true → answers (.manifestOpRemove r) r .ok []
        (put (tblDel (x.parcel p).manifest (le b 2 2))) s) ∧
      (passes 0x80 (some 4) r p t b s = true → answers (.manifestOpRead r) r .ok (manifestBytes m) x s)) ∧
    (∀ idx, passes 0x80 (some 5) r p t b s = true → (List.range 16).find? (fun k => (tblGet (x.parcel p).regs k).isNone) = some idx →
      let reg : Reg := ⟨t, le b 8 4, le b 12 2, le b 14 2, le b 16 2, le b 18 1, le b 19 1, le b 20 2⟩
      (∀ k ∈ reg.tableSlot :: reg.padSlot :: reg.window, plainSlot (x.parcel p) t k = true) →
      (∀ k ∈ reg.window, k ≠ reg.tableSlot ∧ k ≠ reg.padSlot ∧ k ∉ dataSlots (x.parcel p)) →
      answers (.manifestOpRegister r) r .ok (leBytes idx 2)
        (cad (x.modParcel p (fun y => restorePad reg { y with regs := tblPut y.regs idx reg }))) s) ∧
    (∀ reg, passes 0x80 (some 6) r p t b s = true → tblGet (x.parcel p).regs (le b 2 2) = some reg → reg.tenancy = t →
      (∀ e ∈ (x.parcel p).manifest, e.2.state ≠ 0 → e.2.reg ≠ le b 2 2) →
      (∀ i ∈ (x.parcel p).items, i.kind ≠ .batch (le b 2 2)) →
      answers (.manifestOpUnregister r) r .ok [] (cad (x.modParcel p (fun y => { y with
        regs := tblDel y.regs (le b 2 2), live := y.live.filter (fun e => !reg.window.contains e.1) }))) s) ∧
    (passes 0xC0 none r p t b s = true →
      let m := min (le b 0 2) ((tk.space - 8) / 64)
      (n = 0 → answers (.eventRead r) r .ok (logRead m (fun _ => true) x.pfLog).1
        { x with pfLog := (logRead m (fun _ => true) x.pfLog).2 } s) ∧
      (n = 64 → answers (.eventRead r) r .ok (logRead m (fun _ => true) x.bmcLog).1
        { x with bmcLog := (logRead m (fun _ => true) x.bmcLog).2 } s) ∧
      (n ≠ 0 → n ≠ 64 → let l := logRead m (fun e => !itemOpen x p e.tenancy e.seq) ((x.parcel p).ten t).log
        answers (.eventRead r) r .ok l.1 (x.modTen p t (fun y => { y with log := l.2 })) s))

/-- R177, R180, R190, R303, R443 to R446, R454 to R458, R483: plans, weights, tensors and deeds. (That TENSOR_WRITES counts a
partial write, and that an unwrapped source is read whole before anything is written, are log entry 50.) -/
def Obligations.DataCommandsComplete : Prop :=
  ∀ (r : ZReq) (p t : Nat) (b : List Byte) (s : State), let x := taken r s
    (∀ im, passes 0x20 none r p t b s = true → let a := le b 16 2 * 2 ^ 30 + le b 20 4; let n := le b 8 8
      (∀ k ∈ slotsIn a (max n 1), (tblGet (x.parcel p).lots k).any (fun e => !e.classA && e.owner == t) = true ∧
        k ∉ dataSlots (x.parcel p)) →
      (∀ v ∈ (x.parcel p).plans, a + n ≤ v.slot * 2 ^ 30 + v.offset ∨ v.slot * 2 ^ 30 + v.offset + v.image.length ≤ a) →
      n ≤ 2 ^ 28 → hostRead x r.block (le b 0 8) n = some im → 20 ≤ n → ((x.parcel p).variants t (imgItem im)).length < 8 →
      x.power.holdOn = false → x.power.drainOn = false → layoutFail im = none →
      signatureOk im ((x.parcel p).ten t).signer = true → (∀ k, k < 4 → partFail (x.parcel p) t im k = none) →
      (∃ z, (List.range (imgSegments im)).foldlM (fun y k => segmentFail x p t im k y) ([] : Tbl Int) = .ok z) →
      (pvWrite p t a im false (p, 0xFFFFFFFF) { ten := t } x).1 = .ok →
      answers (.planLoad r) r .ok (zeros 16 ++ imgDigest im) (cad ((pvWrite p t a im false (p, 0xFFFFFFFF) { ten := t }
        x).2.2.2.modParcel p (fun y => markPlans { y with
          plans := y.plans ++ [planOfImage t (le b 16 2) (le b 20 4) im] }))) s) ∧
    (passes 0x21 none r p t b s = true →
      let isIt (v : Plan) : Bool := v.tenancy == t && v.itemId == le b 0 4 && v.classMax == le b 4 4
      (x.parcel p).plans.any isIt = true → (∀ i ∈ (x.parcel p).items, i.itemId ≠ le b 0 4) →
      answers (.planUnload r) r .ok [] (cad (x.modParcel p (fun y => markPlans { y with
        plans := y.plans.filter (fun v => !isIt v) }))) s) ∧
    (∀ text, passes 0x30 (some 0) r p t b s = true → let n := le b 8 8; let dest := le b 16 8
      n % 256 = 0 → dest % 256 = 0 → rangeHeld (x.parcel p) t dest n = true → rangePlan (x.parcel p) dest n = false →
      ((x.parcel p).ten t).ledger.length < 4096 → x.power.holdOn = false → x.power.drainOn = false →
      hostRead x r.block (le b 0 8) n = some text →
      let w := pvWrite p t dest text false (p, 0xFFFFFFFF) { ten := t } x
      (w.1 = .ok → answers (.weightsLoad r) r .ok (leBytes text.length 8 ++ sha256 text)
        (ledgerAdd p t 0 dest text.length 0xFF text w.2.2.2) s) ∧
      (w.1 ≠ .ok → answers (.weightsLoad r) r .okPartial (leBytes w.2.2.1 8 ++ zeros 32) w.2.2.2 s)) ∧
    (∀ src h key text w y, passes 0x30 (some 1) r p t b s = true → let n := le b 8 8; let dest := le b 16 8
      x.sec.error = false → dest % 256 = 0 → hostRead x r.block (le b 0 8) (min n 64) = some h → wrapOk h n = true →
      rangeHeld (x.parcel p) t dest (le h 16 8) = true → rangePlan (x.parcel p) dest (le h 16 8) = false →
      tblGet ((x.parcel p).ten t).keys (le h 6 1) = some key → ((x.parcel p).ten t).ledger.length < 4096 →
      x.power.holdOn = false → x.power.drainOn = false → hostRead x r.block (le b 0 8) n = some src →
      wrapChunks p t dest key.key h (src.drop 64) (wrapCount h) 0 [] x = (some w, text, y) → w.1 = .ok →
      answers (.weightsLoadWrapped r) r .ok (leBytes text.length 8 ++ sha256 text)
        (ledgerAdd p t (le h 8 8) dest text.length (le h 6 1) text w.2.2.2) s) ∧
    (∀ d, passes 0x31 none r p t b s = true → rangeHeld (x.parcel p) t (le b 16 8) (le b 8 8) = true →
      rangePlan (x.parcel p) (le b 16 8) (le b 8 8) = false → x.power.holdOn = false → x.power.drainOn = false →
      hostRead x r.block (le b 0 8) (le b 8 8) = some d →
      let w := pvWrite p t (le b 16 8) d false (p, 0xFFFFFFFF) { ten := t } x
      answers (.tensorWrite r) r (if w.1 = .ok then .ok else .okPartial) (leBytes w.2.2.1 8) (tenCount p t 4 w.2.2.2) s) ∧
    (passes 0x32 none r p t b s = true → rangeHeld (x.parcel p) t (le b 16 8) (le b 8 8) = true →
      x.power.holdOn = false → x.power.drainOn = false →
      let d := pvRead p t (le b 16 8) (le b 8 8) false { ten := t } x
      ∀ y, hostWrite d.2.2.2 r.block (le b 0 8) d.2.2.1 = some y →
      answers (.tensorRead r) r (if d.1 = .ok then .ok else .okPartial) (leBytes d.2.2.1.length 8) y s) ∧
    (passes 0x60 (some 1) r p t b s = true → x.sec.error = false →
      answers (.deedGetParcel r) r .ok (parcelDeed x.free x p t (slice b 8 32) false) { x with free := x.free + 1 } s) ∧
    (passes 0x60 (some 2) r p t b s = true → x.sec.error = false →
      answers (.deedGetPackage r) r .ok (packageDeed x.free x (slice b 8 32)) { x with free := x.free + 1 } s)

/-- R454 to R458: deeds: a deed is a body and an ECDSA P-256 signature of its digest under the alias key, r then s, each least
significant byte first, with a secret number from the random bits of a draw; a parcel deed names the parcel, the tenancy and
the nonce, and says SEALED only when the parcel is or was; a package deed carries M0 to M7 and the nonce. -/
def Obligations.DeedsSayWhatIsTrue : Prop :=
  ∀ (s : State) (n p t : Nat) (nonce : List Byte) (inSession : Bool), nonce.length = 32 → p < 65536 → t < 256 →
    let d := parcelDeed n s p t nonce inSession
    let e := packageDeed n s nonce
    (∀ body ∈ [d, e], let g := signWith s.sec.aliasKey n (sha256 (body.take (body.length - 64)))
      body.drop (body.length - 64) = leBytes g.1 32 ++ leBytes g.2 32) ∧
      le d 6 1 = 1 ∧ le d 8 8 = s.time.postmark % 2 ^ 64 ∧ slice d 16 32 = nonce ∧ le d 48 2 = p ∧ le d 50 1 = t ∧
      (le d 51 1 = 2 ↔ (s.parcel p).sealedAt ≠ 0) ∧
      le e 6 1 = 2 ∧ slice e 16 32 = nonce ∧ (s.sec.measure.flatten.length = 256 → slice e 48 256 = s.sec.measure.flatten)

/-- R19, R51, R308, R322 to R324, R326, R434, R435, R449, R451, R461, R483, R546: telemetry, of a sealed or seal-pending parcel
with the totals of the last frame head; the period, maintenance drains and promotions, which wait for a frame head; row and lane repairs, recorded and
taken off the list, and the margin scan, a lane repair or a scan ending with a retraining of the channel; fences and
firmware. (Which row a physical row is, which lanes are data lanes and what passes a margin are free, log entry 16; that an image is
staged in the place that is not active, and that the ACTIVE map holds promoted cores, are entry 51.) -/
def Obligations.MaintenanceCommandsComplete : Prop :=
  ∀ (r : ZReq) (p t : Nat) (b : List Byte) (s : State), let x := taken r s; let tk := ticketOf r s
    (passes 0x90 none r p t b s = true → le b 0 2 = 0xFFFF → ∃ body, answers (.telemetryGet r) r .ok body x s ∧
      le body 0 4 = x.telem.inputW % 2 ^ 32 ∧ le body 32 8 = x.telem.readAt % 2 ^ 64) ∧
    (passes 0x90 none r p t b s = true → le b 0 2 < 48 → (x.parcel (le b 0 2)).state ≠ .free →
      ∃ body, answers (.telemetryGet r) r .ok body x s ∧ body.drop 40 = (if sealedOrPending x (le b 0 2) then
        (x.parcel (le b 0 2)).coarse else parcelTotals (x.parcel (le b 0 2)))) ∧
    (passes 0x91 none r p t b s = true → le b 0 4 % 64 = 0 → 66048 ≤ le b 0 4 → le b 0 4 ≤ 66000000 →
      x.fed.federated = false → periodBusy x (le b 0 4) = false → exec (.periodSet r) s = .next (refresh { x with
        changes := x.changes ++ [(x.time.postmark, .period (le b 0 4) tk)] })) ∧
    (passes 0xA0 (some 0) r p t b s = true → x.power.drainOn = false → (∀ c ∈ x.changes, c.2.drains = false) →
      exec (.maintDrainBegin r) s = .next (refresh { x with changes := x.changes ++ [(x.time.postmark, .drainBegin tk)] })) ∧
    (passes 0xA0 (some 1) r p t b s = true → x.power.drainOn = true → (∀ c ∈ x.changes, ∀ tk, c.2 ≠ .drainEnd tk) →
      exec (.maintDrainEnd r) s = .next (refresh { x with changes := x.changes ++ [(x.time.postmark, .drainEnd tk)] })) ∧
    (passes 0xA1 (some 0) r p t b s = true → x.power.holdOn = false → ∃ body, answers (.hbmRepairList r) r .ok body x s ∧
      le body 2 2 = x.store.repairs.length % 65536 ∧
      body.length = 8 + 16 * ((x.store.repairs.drop (le b 4 4)).take ((tk.space - 8) / 16)).length) ∧
    (∀ g, passes 0xA1 (some 1) r p t b s = true → x.power.drainOn = true → x.power.holdOn = false → g < 2 ^ 22 →
      (Config.rowOf (64 * le b 1 1 + 2 * le b 2 1 + le b 3 1) g).toNat = le b 4 4 → rowLeft x (le b 1 1) = true →
      answers (.hbmRepairRow r) r .ok [] (rowRepair (le b 1 1) (le b 2 1) (le b 3 1) (le b 4 4) x) s) ∧
    (passes 0xA1 (some 2) r p t b s = true → x.power.drainOn = true → x.power.holdOn = false →
      laneLeft x (le b 1 1) = true → answers (.hbmRepairLane r) r (if Config.isDataLane (le b 4 4) then .ok else .badLength) []
        (if Config.isDataLane (le b 4 4) then laneRepair (le b 1 1) (le b 2 1) (le b 3 1) (le b 4 4) x else x) s) ∧
    (passes 0xA2 none r p t b s = true → x.power.drainOn = true → x.power.holdOn = false →
      bit ((tblGet x.store.folds (le b 1 1)).getD 0) 31 = false → (x.stack (le b 1 1)).foldDue = none →
      ∃ body, answers (.hbmMargin r) r .ok body (retrainNow (le b 1 1) (le b 2 1) x) s ∧ body.length = 128 ∧
        ∀ v q, v < 32 → q < 32 → bit (le body 0 128) (32 * v + q) =
          (decide (v < le b 5 1) && decide (q < le b 4 1) && Config.marginPass (32 * le b 1 1 + le b 2 1) v q)) ∧
    (∀ (k ch ps lane : Nat) (y : State), let u := laneRepair k ch ps lane y
      tblGet u.store.lanesUsed k = some ((tblGet y.store.lanesUsed k).getD 0 + 1) ∧
      (u.stack k).fails = (if (y.stack k).nextCh = ch then 0 else (y.stack k).fails) ∧
      y.pfLog.tail < u.pfLog.tail ∧ ∀ q ∈ u.store.repairs, q ∈ y.store.repairs ∧
        ¬ (q.kind = 2 ∧ q.stack = k ∧ q.channel = ch ∧ q.row = lane)) ∧
    (passes 0xB0 none r p t b s = true → ∃ body, answers (.fenceQuery r) r .ok body x s ∧
      (le b 0 2 = 0xFFFF → body.length = 468 ∧ ∀ k, k < 224 → bit (le body 0 28) k = coreUp x k ∧
        bit (le body 28 28) k = decide ((x.cmeta k).state = .fenced) ∧ bit (le body 56 28) k = decide ((x.cmeta k).state = .reserve)) ∧
      (le b 0 2 ≠ 0xFFFF → body.length = 48 ∧ le body 0 2 = le b 0 2 ∧ le body 2 1 = (x.cmeta (le b 0 2)).state.code ∧
        le body 40 8 = (x.cmeta (le b 0 2)).fencedAt % 2 ^ 64)) ∧
    (passes 0xB1 none r p t b s = true → le b 0 2 < 224 → (x.cmeta (le b 0 2)).state = .fenced →
      (parcelOfCore x (le b 0 2)).isSome = true →
      (le b 2 2 ∈ reserves x (le b 0 2 / 28) ∨ (le b 2 2 = 0xFFFF ∧ reserves x (le b 0 2 / 28) ≠ [])) →
      exec (.reservePromote r) s = .next (refresh { x with
        changes := x.changes ++ [(x.time.postmark, .promote (le b 0 2) (le b 2 2) tk)] })) ∧
    (∀ im, passes 0xF0 none r p t b s = true → hostRead x r.block (le b 0 8) (le b 8 8) = some im →
      match (Config.fwImage im).filter (fun v => !bit x.store.revoked v.2.2.1 && decide (x.store.svn ≤ v.2.1)) with
      | some (digests, svn, _, raises) => answers (.fwStage r) r .ok [] { x with store := { x.store with
          sets := x.store.sets.set (1 - x.store.activeSet) { digests := digests, svn := svn, raises := raises }
          staged := some (1 - x.store.activeSet) } } s
      | none => answers (.fwStage r) r .signatureFailed [] x s) ∧
    (∀ k, passes 0xF1 none r p t b s = true → x.store.staged = some k → answers (.fwActivate r) r .ok []
      { x with store := { x.store with activeSet := k, staged := none } } s)

/-- R508, R510, R512, R517, R521, R522, R526, R532: ports are queried, trained in a mode, or disabled; a package waits to join a
federation, as a change of R43 that its alignment leads to, or to leave it, and the datum waits for the next tick; routes, members
and channels are set; a collective request is admitted as an item. (That the replies of LINK_CONFIG wait for their port in a queue
is log entry 51, and that frames sent before a retraining are not kept over it is entry 29.) -/
def Obligations.FederationCommandsComplete : Prop :=
  ∀ (r : ZReq) (p t : Nat) (b : List Byte) (s : State), let x := taken r s; let tk := ticketOf r s
    (passes 0xD0 none r p t b s = true → ∃ body, answers (.linkQuery r) r .ok body x s ∧ body.length = 128 ∧
      ∀ k, k < 8 → le body (16 * k) 1 = (x.port k).st.code ∧ le body (16 * k + 1) 1 = b2n (x.port k).mode8023) ∧
    (let k := le b 0 1;
      k < 8 → (x.fed.federated = true → x.fed.upstream ≠ k) →
      let trains (m : Bool) : State := portTo k .training (x.setPort k { x.port k with
        mode8023 := m, kept := [], pendingCfg := (x.port k).pendingCfg ++ [tk] });
      (passes 0xD1 (some 0) r p t b s = true → exec (.linkConfigCourier r) s = .next (refresh (trains false))) ∧
      (passes 0xD1 (some 1) r p t b s = true → exec (.linkConfig8023 r) s = .next (refresh (trains true))) ∧
      (passes 0xD1 (some 2) r p t b s = true → ∃ u, exec (.linkConfigDisable r) s = .next u ∧ (u.port k).st = .disabled ∧
        (u.port k).kept = [] ∧ (u.port k).pendingCfg = [])) ∧
    (passes 0xD2 none r p t b s = true → x.fed.federated = false → x.fed.forming = none → le b 0 2 ≤ 8191 →
      le b 2 2 ≤ 16383 → le b 4 2 ≤ 16383 → le b 2 2 ≠ le b 4 2 → le b 6 1 ≤ 7 → exec (.fedForm r) s = .next (refresh
        { x with
          fed := { number := le b 0 2, member := le b 2 2, datum := le b 4 2, upstream := le b 6 1, forming := some (tk, le b 16 8, le b 8 4) }
          changes := x.changes ++ [(x.time.postmark, .fedJoin)] })) ∧
    (passes 0xD2 none r p t b s = true → x.fed.federated = false → x.fed.forming = none → le b 0 2 ≤ 8191 →
      le b 2 2 ≤ 16383 → le b 2 2 = le b 4 2 → le b 6 1 = 0xFF → periodOk (le b 8 4) = true → x.time.postmark ≤ le b 16 8 →
      periodBusy x (le b 8 4) = false → exec (.fedForm r) s = .next (refresh { x with
        fed := { number := le b 0 2, member := le b 2 2, datum := le b 2 2, forming := some (tk, le b 16 8, le b 8 4) } })) ∧
    (passes 0xD3 none r p t b s = true → x.fed.federated = true → fedBusy x = false → exec (.fedLeave r) s =
      .next (refresh { x with changes := x.changes ++ [(x.time.postmark, .fedLeave tk)] })) ∧
    (passes 0xD4 none r p t b s = true → x.fed.federated = true → le b 0 2 + le b 2 2 ≤ 16384 → ∃ y,
      answers (.routeSet r) r .ok [] y s ∧ y = { x with fed := { x.fed with routes := y.fed.routes } } ∧
      ∀ m, tblGet y.fed.routes m = if le b 0 2 ≤ m ∧ m < le b 0 2 + le b 2 2 then some (le b (8 + (m - le b 0 2)) 1)
        else tblGet x.fed.routes m) ∧
    (passes 0xD5 none r p t b s = true → le b 0 2 ∈ x.fed.lostMembers → answers (.memberRestore r) r .ok []
      { x with fed := { x.fed with lostMembers := x.fed.lostMembers.filter (· != le b 0 2) } } s) ∧
    (passes 0xD6 (some 0) r p t b s = true → x.fed.federated = true → channelOk x p t (channelOf b) = true →
      ((x.parcel p).chan (le b 0 1)).kind = 0 ∨ ((x.parcel p).chan (le b 0 1)).tenancy = t →
      (channelOf b).keySlot = 0xFF ∨ (tblGet ((x.parcel p).ten t).keys (channelOf b).keySlot).isSome = true →
      channelUsed (x.parcel p) (le b 0 1) = false → answers (.channelSet r) r .ok [] (x.modParcel p (fun y => { y with
        channels := tblPut y.channels (le b 0 1) (channelOf b), inbox := y.inbox.filter (fun e => e.channel != le b 0 1) })) s) ∧
    (passes 0xD6 (some 1) r p t b s = true → x.fed.federated = true →
      ((x.parcel p).chan (le b 0 1)).kind = 0 ∨ ((x.parcel p).chan (le b 0 1)).tenancy = t →
      channelUsed (x.parcel p) (le b 0 1) = false → answers (.channelFree r) r .ok [] (x.modParcel p (fun y => { y with
        channels := tblDel y.channels (le b 0 1), inbox := y.inbox.filter (fun e => e.channel != le b 0 1) })) s) ∧
    (passes 0xD7 none r p t b s = true → ∃ body, answers (.channelQuery r) r .ok body x s ∧
      (((x.parcel p).chan (le b 0 1)).kind = 0 → body = zeros 82) ∧
      (((x.parcel p).chan (le b 0 1)).kind ≠ 0 → le body 0 1 = ((x.parcel p).chan (le b 0 1)).kind % 256 ∧
        le body 64 6 = ((x.parcel p).chan (le b 0 1)).sent % 2 ^ 48)) ∧
    (passes 0xD8 none r p t b s = true → (∀ o ∈ collOps b, collOk (x.parcel p) t o = true) →
      (∀ k, k < le b 0 1 → allZero b (19 + 32 * k) 1 = true ∧ allZero b (44 + 32 * k) 4 = true) →
      (∀ i ∈ tenItems x p t, i.kind ≠ .coll) →
      (isSealed x p = true → x.sec.error = false) → roomFor x p t = true → ((x.parcel p).ten t).divHold = false →
      x.fed.aligned = true →
      let q := takeSeq p t x
      answers (.collectiveSubmit r) r .ok (leBytes q.1 4) (q.2.modParcel p (fun y => { y with
        items := y.items ++ [{ seq := q.1, tenancy := t, kind := .coll, gate := le b 4 4, ops := collOps b }]
        slice := { y.slice with idleFrames := 0 } })) s)

/-- R430, R432, R436, R437, R439, R440, R441, R458: SPDM requests of a partner and vendor-defined requests inside its session:
the connection's steps, with the capabilities and algorithms of R437; the certificate chain of slot 0; challenge and
measurements with a nonce and a signature under the alias key; a session's beginning with the secrets that ECDH gives, its
completion, key update and end; and the keys, signer and deeds of the tenancy that the session is bound to. (Message codes, flags,
the key schedule and the error answers are log entries 10 and 44, PRESUMED; the 32 zero bytes that SIGNER_SET answers where the
signer is removed are entry 53; that a key slot carries the number of its setting is entry 27.) -/
def Obligations.SecurityRequestsComplete : Prop :=
  ∀ (r : SpdmReq) (s : State), let e := r.endpoint; let m := r.msg
    spdmReach s e = true →
    let req (code need : Nat) : Prop := le m 1 1 = code ∧ le m 0 1 = (if code = 0x84 then 0x10 else 0x13) ∧ need ≤ spdmConn s e
    let out (cmd : Instr) (msg : List Byte) (x : State) : Prop := exec cmd s = .next (refresh (spdmOut e msg x))
    let signed (g : Nat × Nat) : List Byte := beBytes g.1 32 ++ beBytes g.2 32
    let later (n : Nat) : State := { s with free := s.free + n }
    (req 0x84 0 → out (.getVersion r) [0x10, 0x04, 0, 0, 0, 1, 0x00, 0x13] (setConn e 1 s)) ∧
    (req 0xE1 1 → ∃ b : List Byte, out (.getCapabilities r) (spdmHead 0x61 0 0 ++ b) (setConn e 2 s) ∧ b.length = 16 ∧
      ∀ k, k ∈ [1, 2, 4, 6, 7, 8, 9, 13, 14] → bit (le b 4 4) k = true ∧ bit (le b 4 4) 3 = false ∧
        bit (le b 4 4) 10 = false ∧ bit (le b 4 4) 11 = false) ∧
    (req 0xE3 2 → bit (le m 8 4) 4 = true → bit (le m 12 4) 0 = true → ∃ b : List Byte,
      out (.negotiateAlgorithms r) (spdmHead 0x63 (le m 2 1) 0 ++ b) (setConn e 3 s) ∧
      b.length = 32 + 4 * le m 2 1 ∧ le b 4 4 = 2 ∧ le b 8 4 = 16 ∧ le b 12 4 = 1) ∧
    (req 0xE3 2 → bit (le m 8 4) 4 = false ∨ bit (le m 12 4) 0 = false → out (.negotiateAlgorithms r) (spdmHead 0x7F 1 0) s) ∧
    (let chain := certChain s.sec.aliasCert
      let o := le m 4 2
      let n := min (le m 6 2) (chain.length - o)
      (req 0x81 3 → out (.getDigests r) (spdmHead 0x01 1 1 ++ sha256 chain) s) ∧
      (req 0x82 3 → le m 2 1 % 16 = 0 → out (.getCertificate r) (if o < chain.length then
        spdmHead 0x02 0 0 ++ pay [(n, 2), (chain.length - o - n, 2)] ++ (chain.drop o).take n else spdmHead 0x7F 1 0) s) ∧
      (s.sec.error = false → req 0x83 3 → le m 2 1 = 0 → ∃ b : List Byte, out (.challenge r) (spdmHead 0x03 0 1 ++ sha256 chain
        ++ (drbgNext (drbgAt s.free)).1 ++ b ++ signed (signWith s.sec.aliasKey (s.free + 2) (Config.spdmDigest 0x83 m (s.free + 2))))
        (later 3))) ∧
    (s.sec.error = false →
      (req 0xE0 3 → le m 3 1 = 0xFF → bit (le m 2 1) 0 = true → ∃ b : List Byte, out (.getMeasurements r) (spdmHead 0x60 0 0
        ++ pay [(8, 1), (((List.range 8).flatMap (fun k => measBlock s (k + 1))).length, 3)]
        ++ (List.range 8).flatMap (fun k => measBlock s (k + 1)) ++ (drbgNext (drbgAt s.free)).1 ++ b
        ++ signed (signWith s.sec.aliasKey (s.free + 2) (Config.spdmDigest 0xE0 m (s.free + 2)))) (later 3)) ∧
      (let peer := 4 :: slice m 40 64
        let own := p256Key 64 (drbgAt s.free)
        let hand := spdmHandshake (ecdh own peer)
        let pr := spdmPair hand "hs data" (Config.spdmDigest 0xE4 m s.free)
        req 0xE4 3 → le m 3 1 = 0 → onCurve peer = true → r.ok = true → ∃ a b : List Byte, out (.keyExchange r)
          (spdmHead 0x64 0 0 ++ a ++ (p256Point own).drop 1 ++ b)
          (setSpdm e { finished := false, number := s.free, req := pr.1, rsp := pr.2, main := hand } (later 4))) ∧
      (req 0xE4 3 → le m 3 1 = 0 → onCurve (4 :: slice m 40 64) = true → r.ok = false →
        ∃ t, exec (.keyExchange r) s = .next t ∧ t.sec.error = true) ∧
      (∀ x, req 0xE5 3 → spdmOf s e = some x → x.finished = false → r.secured = true → r.ok = true →
        let main := spdmMaster x.main
        let pr := spdmPair main "app data" (Config.spdmDigest 0xE5 m s.free)
        ∃ b, out (.finish r) (spdmHead 0x65 0 0 ++ b)
          (setSpdm e { x with finished := true, req := pr.1, rsp := pr.2, main := main } (later 1))) ∧
      ∀ x, spdmOf s e = some x → x.finished = true → r.secured = true →
        (req 0xE9 3 → le m 2 1 = 1 ∨ le m 2 1 = 2 → out (.keyUpdate r) (spdmHead 0x69 (le m 2 1) (le m 3 1))
          (setSpdm e { x with
            keyGen := x.keyGen + 1, req := spdmUpdated x.req, rsp := if le m 2 1 = 2 then spdmUpdated x.rsp else x.rsp } s)) ∧
        (req 0xE8 3 → out (.heartbeat r) (spdmHead 0x68 0 0) s) ∧
        (req 0xEC 3 → out (.endSession r) (spdmHead 0x6C 0 0) (endSpdm e s)) ∧
        ∀ b : List Byte, req 0xFE 3 → le m 4 2 = 3 → le m 6 1 = 2 → le m 7 2 = 0x1FD4 → slice m 12 (le m 9 2 - 1) = b →
          (∀ p t, spdmTenancy s e = some (p, t) →
            (le m 11 1 = 1 → b.length = 49 → le b 0 1 ≤ 3 → exec (.keySet r) s = .next (refresh (vendorReply e .ok []
              (s.modTen p t (fun y => { y with keys := tblPut y.keys (le b 0 1) ⟨slice b 1 32, slice b 33 16, y.keySets⟩, keySets := y.keySets + 1 }))))) ∧
            (le m 11 1 = 2 → b.length = 1 → le b 0 1 ≤ 3 → exec (.keyClear r) s = .next (refresh (vendorReply e .ok []
              (s.modTen p t (fun y => { y with keys := tblDel y.keys (le b 0 1) }))))) ∧
            (le m 11 1 = 3 → b = [] ∨ (b.length = 65 ∧ le b 0 1 = 4) → exec (.signerSet r) s = .next (refresh (vendorReply e .ok
              (if b = [] then zeros 32 else sha256 b) (s.modTen p t (fun y => { y with signer := b }))))) ∧
            (le m 11 1 = 4 → b.length = 33 → le b 0 1 = 1 → exec (.deedParcel r) s =
              .next (refresh (vendorReply e .ok (parcelDeed s.free s p t (b.drop 1) true) (later 1))))) ∧
          (le m 11 1 = 4 → b.length = 33 → le b 0 1 = 2 → e = 0 ∨ e = 64 → exec (.deedPackage r) s =
            .next (refresh (vendorReply e .ok (packageDeed s.free s (b.drop 1)) (later 1)))))

/-- R441, R442, R453, R462, R463, R493: TDISP, IDE keys and debug tokens: a VF is locked with a fresh nonce, runs with that
nonce, and stops; a token opens debug only while no parcel is sealed. (The layout and the types of TDISP messages are log entry 44,
PRESUMED; that a TDISP or an IDE_KM message is taken inside a finished session of its function or of the PF, and that a locked
debug port stays closed, are entry 53.) -/
def Obligations.InterfacesComplete : Prop :=
  (∀ (r : TdispReq) (s : State), spdmReach s r.vf = true → vfExists s r.vf = true → tsmOpen s r.vf = true →
    let nonce := (drbgNext (drbgAt s.free)).1
    (tdispOf s r.vf = .unlocked → ∃ t, exec (.lockInterface r) s = .next t ∧ tblGet t.pcie.tdisp r.vf = some .locked ∧
      tblGet t.pcie.tdispNonce r.vf = some nonce ∧ .spdm r.vf (tdispMsg r.vf 3 nonce) ∈ t.outputs) ∧
    (tdispOf s r.vf = .locked → tblGet s.pcie.tdispNonce r.vf = some r.nonce → ∃ t, exec (.startInterface r) s = .next t ∧
      tblGet t.pcie.tdisp r.vf = some .run ∧ tblGet t.pcie.tdispNonce r.vf = none ∧
      .spdm r.vf (tdispMsg r.vf 6 []) ∈ t.outputs ∧
      ∀ p k, boundTo s r.vf = some (p, k) → ((t.parcel p).ten k).barred = false) ∧
    let y := leaveRun r.vf .unlocked s
    exec (.stopInterface r) s = .next (refresh (spdmOut r.vf (tdispMsg r.vf 7 [])
      { y with pcie := { y.pcie with tdispNonce := tblDel y.pcie.tdispNonce r.vf } }))) ∧
  (∀ (r : IdeReq) (s : State), spdmReach s r.fn = true →
    tsmOpen s r.fn = true → s.sec.error = false →
    (r.link = true → exec (.ideKm r) s = .next { s with pcie := { s.pcie with linkIde := some r.key } }) ∧
    (r.link = false → exec (.ideKm r) s = .next { s with pcie := { s.pcie with
      ide := (r.fn, r.stream, r.key) :: s.pcie.ide.filter (fun e => e.1 != r.fn) } })) ∧
  ∀ (token : List Byte) (valid : Bool) (s : State), s.power.ready = true →
    ((∃ p ∈ liveParcels s, sealedOrPending s p = true) → exec (.debugToken token valid) s =
      .next { s with outputs := s.outputs ++ [.debug 0x0105] }) ∧
    ((∀ p ∈ liveParcels s, sealedOrPending s p = false) → (s.store.production && s.store.dbgPermLock) = false → valid = true →
      exec (.debugToken token valid) s = .next { s with
        sec := { s.sec with dbgOpen := true, dbgEver := true }
        outputs := s.outputs ++ [.debug 0] })

/-- R441, R442, R453: what a VF that leaves RUN leaves behind: its TDISP state, no key of its tenancy, and, for a tenancy of
a sealed or seal-pending parcel, no SPDM session, no service of its mailbox, and no plan, batch or collective item of its. (That
the session of the VF is the one that ends, and that the keys of a tenancy that is not sealed are cleared too, are log entry 53;
that an update item of its may stay, with what has voted, is entry 42.) -/
def Obligations.LeavingRunClosesTheTenancy : Prop :=
  ∀ (vf p k : Nat) (x : Tdisp) (s : State), tdispOf s vf = .run → blockFn s vf = vf → boundTo s vf = some (p, k) →
    let t := leaveRun vf x s
    tblGet t.pcie.tdisp vf = some x ∧ ((t.parcel p).ten k).keys = [] ∧
      (sealedOrPending s p = true → tblGet t.pcie.spdm vf = none ∧ ((t.parcel p).ten k).barred = true ∧
        ∀ i ∈ tenItems t p k, i.kind = .update)

/-- R459, R467, R583 to R586: the management sideband: once per second the sensors are read, the input power to the nearest 5 W,
the input voltage, the dies and the stacks as the averages of their samples since the last reading; in a frame head the telemetry
window is written; PLDM types 0 and 2 and MCTP control are answered. (What the responses look like follows log entry 45.) -/
def Obligations.SidebandCompletes : Prop :=
  (∀ s : State, s.power.good = true → exec .sensorUpdate s = .next { s with telem := { s.telem with
    inputW := (s.power.inputW + 2) / 5 * 5, inputMv := averageOf s 2 s.power.inputMv
    dieT := (List.range 8).map (fun d => degrees (s.die d).lost (averageOf s (4 + d) (s.die d).temp))
    hubT := degrees false (averageOf s 12 s.power.hubTemp)
    hsT := (List.range 12).map (fun k => degrees (s.stack k).unreachable (averageOf s (13 + k) (s.stack k).temp))
    regT := degrees false s.power.regTemp, states := stateSensors s, readAt := s.time.postmark, acc := [] } }) ∧
  (∀ (k last : Nat) (s : State), averageOf s k last = match tblGet s.telem.acc k with
    | some (sum, n) => if n = 0 then last else sum / n
    | none => last) ∧
  (∀ s : State, s.power.ready = true → s.time.cycle < 1024 → exec .telemetryWindowUpdate s =
    .next { s with telem := { s.telem with window := windowRegs s } }) ∧
  (∀ (msg : List Byte) (s : State), sideUp s = true → 3 ≤ msg.length → bit (le msg 0 1) 7 = true →
    (le msg 1 1 % 64 = 0 → le msg 2 1 = 2 → exec (.pldmRequest msg) s = .next (pldmOut msg 0 (leBytes s.telem.tid 1) s)) ∧
    (∀ v, le msg 1 1 % 64 = 2 → le msg 2 1 = 0x11 → numericSensor s.telem (le msg 3 2) = some v → ∃ b,
      exec (.pldmRequest msg) s = .next (pldmOut msg 0 ([2, 0] ++ slice b 0 4 ++ leBytes v 2) { s with free := s.free + 1 })) ∧
    (∀ v, le msg 1 1 % 64 = 2 → le msg 2 1 = 0x21 → stateSensor s.telem (le msg 3 2) = some v → ∃ b,
      exec (.pldmRequest msg) s = .next (pldmOut msg 0 (pay [(1, 1), (0, 1), (v, 1)] ++ slice b 0 2)
        { s with free := s.free + 1 })) ∧
    (le msg 1 1 % 64 ≠ 0 → le msg 1 1 % 64 ≠ 2 → exec (.pldmRequest msg) s = .next (pldmOut msg 0x20 [] s))) ∧
  ∀ (msg : List Byte) (s : State), sideUp s = true → 2 ≤ msg.length → bit (le msg 0 1) 7 = true →
    (le msg 1 1 = 1 → le msg 2 1 % 4 ≠ 2 → exec (.mctpControl msg) s = .next (mctpOut msg 0
      (pay [(0, 1), (le msg 3 1, 1), (0, 1)]) { s with telem := { s.telem with eid := le msg 3 1 } })) ∧
    (le msg 1 1 = 1 → le msg 2 1 % 4 = 2 → ∃ t, exec (.mctpControl msg) s = .next t ∧ t.bmcSession = none ∧ t.telem.eid = 0) ∧
    (le msg 1 1 = 2 → exec (.mctpControl msg) s = .next (mctpOut msg 0 (pay [(s.telem.eid, 1), (0, 1), (0, 1)]) s))

/-- R10, R12, R467, R469, R474 to R476, R486, R490, R491, R555: writes of mailbox registers by the function that a block is
assigned to, of a block that R451 does not close: the doorbell takes an inline request; tails and heads move within their
rings and no further; ENABLE, the interrupt status (a one clears, but for a bit that hardware sets in that
cycle) and its mask; the head of the PF log. (That ENABLE takes the slots that wait, and that a write of the dead-letter head
drains both queues, are log entry 54.) -/
def Obligations.MailboxWritesComplete : Prop :=
  ∀ (fn n v : Nat) (s : State),
    (regOpen s fn n = true → let b := s.block n
      (b.enable = true → b.inlineBusy = false → bit v 0 = true → exec (.mbxDoorbellInline fn n v) s =
        .next (refresh (zRun dispatch { block := n, env := b.inlineReq } s))) ∧
      (b.enable = true → b.inlineBusy = true → bit v 0 = true → exec (.mbxDoorbellInline fn n v) s =
        .next (refresh (setIrq n 64 s))) ∧
      (∀ q, b.req.moveTail v = some q → exec (.reqTailWrite fn n v) s =
        .next (refresh (s.setBlock n { b with req := q, readStopped := false }))) ∧
      (b.req.moveTail v = none → exec (.reqTailWrite fn n v) s = .next (refresh (setIrq n 64 s))) ∧
      (∀ q, b.env.moveTail v = some q → exec (.envTailWrite fn n v) s =
        .next (refresh (takeSlots n 256 (s.setBlock n { b with env := q })))) ∧
      (∀ q p t, b.cpl.moveHead v = some q → boundTo s n = some (p, t) →
        let x := s.setBlock n { b with cpl := q, cplStopped := false }
        exec (.cplHeadWrite fn n v) s = .next (refresh (drainCpl p t n ((s.parcel p).ten t).cplQ.length x))) ∧
      (∀ q p t, b.dlr.moveHead v = some q → boundTo s n = some (p, t) → exec (.dlrHeadWrite fn n v) s =
        .next (refresh (drainRings p t (s.setBlock n { b with dlr := q, dlrStopped := false })))) ∧
      (bit v 0 = true → exec (.mbxCtrlWrite fn n v) s =
        .next (refresh (takeSlots n 256 (s.setBlock n { b with enable := true })))) ∧
      (bit v 0 = false → exec (.mbxCtrlWrite fn n v) s =
        .next (refresh ((endSession n s).modBlock n (fun b => { b with enable := false })))) ∧
      (∀ w : W1c, ∃ x, exec (.mbxIrqStatusWrite fn n w) s = .next (refresh (s.setBlock n { b with irqStatus := x })) ∧
        ∀ k, k < 8 → bit x k = (bit b.irqStatus k && (!bit w.v k || bit w.hw k))) ∧
      exec (.mbxIrqMaskWrite fn n v) s = .next (refresh (((List.range 8).filter (fun k =>
        bit b.irqMask k && !bit v k && bit b.irqStatus k)).foldl (fun s k => sendMask n k s)
          (s.setBlock n { b with irqMask := v % 256 })))) ∧
    (hostUp s = true → exec (.evlogHeadWrite v) s = .next (if s.pfLog.head ≤ v ∧ v ≤ s.pfLog.tail
      then { s with pfLog := { s.pfLog with head := v } } else s))

/-- R469, R474: a ring's tail is a free-running count: a write of it is taken exactly when it moves forward and leaves the
ring with at most 2^LOG2 entries; a head exactly when it moves forward and does not pass the tail. -/
def Obligations.RingIndicesMoveForward : Prop :=
  ∀ (q : Ring) (d : Nat), q.head < 2 ^ 32 → q.tail < 2 ^ 32 → q.log2 ≤ 16 → q.count ≤ 2 ^ q.log2 → d < 2 ^ 31 →
    (q.moveTail (wrap32 (q.tail + d)) = if q.count + d ≤ 2 ^ q.log2 then some { q with tail := wrap32 (q.tail + d) } else none) ∧
      (q.moveHead (wrap32 (q.head + d)) = if d ≤ q.count then some { q with head := wrap32 (q.head + d) } else none)

/-- R10 to R12, R14, R442, R451, R466, R467, R469, R493 to R501: the host's other accesses: register writes of any
bytes, and what reads of registers, of the identifiers and of the capabilities of configuration space return; BAR2 reads
and writes, 256 bytes at a time, through the window to the parcel; ATS invalidation; resets of functions; SR-IOV, ATS and
other configuration writes, all of them answered with Request Retry Status until the space is ready; host memory by translated
addresses where the function's ATS is enabled, and by its own otherwise. (The places and encodings of the capabilities are log
entry 43, the identifiers at 0 and 8 entry 41, how a translation comes about entry 14; the 256-byte split, what a function-level
reset keeps and what reads as zero are entry 54; that it clears the envelope ring's enable is entry 34.) -/
def Obligations.HostAccessesComplete : Prop :=
  (∀ (fn : Nat) (s : State), s.power.good = true → s.pcie.linkUp = true → s.pcie.cfgReady = false → fn < 64 →
    (∀ o, configRead s fn o = .retry) ∧
    ∀ o v, exec (.configurationWrite fn o v) s = .next { s with outputs := s.outputs ++ [.retryStatus fn] }) ∧
  (∀ (s : State) (block a n : Nat), a + n ≤ 2 ^ 64 → let fn := blockFn s block
    (fn ∉ s.pcie.atsOn → spanOk s (a, n) = true → hostRead s block a n = some (memReadN s.host.mem a n)) ∧
    ∀ t, fn ∈ s.pcie.atsOn → a % 4096 + n ≤ 4096 → 1 ≤ n → atsPage s fn (a / 4096) = some t →
      spanOk s (t * 4096 + a % 4096, n) = true → hostRead s block a n = some (memReadN s.host.mem (t * 4096 + a % 4096) n)) ∧
  ∀ s : State, hostUp s = true →
    (∀ fn o w (v : W1c), fn ≠ 0 ∨ o < 0x200008 ∨ 0x200010 ≤ o → exec (.registerWrite fn o w v) s =
      .next (refresh ((splitWords o (leBytes v.v w)).foldl (fun s x => wrWord fn x.1 x.2.1 x.2.2 v.hw s) s))) ∧
    (∀ fn o n, fn < 64 → (fn = 0 ∨ blockFn s fn = fn) → ∃ b, bar0Read s fn o n = some b ∧ b.length = n) ∧
    (∀ fn, fn < 64 → (fn = 0 ∨ blockFn s fn = fn) →
      configRead s fn 0 = .value (0x1FD4 + 65536 * (if fn = 0 then 0x0A20 else 0x0A21)) ∧
      ∃ v, configRead s fn 8 = .value v ∧ v / 256 = 0x120000) ∧
    (configRead s 0 0x20E = .value 63 ∧ configRead s 0 0x214 = .value 1 ∧ configRead s 0 0x216 = .value 1 ∧
      configRead s 0 0x21A = .value 0x0A21 ∧ configRead s 0 cfgNumVfs = .value s.pcie.numVfs ∧
      configRead s 0 cfgSriovControl = .value (b2n s.pcie.vfEnable)) ∧
    (∀ fn n, n < 64 → s.power.ready = true →
      blockRead s fn n 0 = mbxId s n ∧ blockRead s fn n 4 = 0x00010002 ∧ blockRead s fn n 0x10 = 0 ∧
      (fn ≠ 0 ∨ (blockFn s n = 0 ∧ blockSealed s n = false) →
        blockRead s fn n 8 = b2n (s.block n).enable ∧ blockRead s fn n 0xC = mbxStatus s n ∧
        blockRead s fn n 0x14 = (s.block n).irqStatus ∧ blockRead s fn n 0x18 = (s.block n).irqMask) ∧
      ∀ o, 8 ≤ o → fn = 0 → (blockFn s n ≠ 0 ∨ blockSealed s n = true) → blockRead s fn n o = 0) ∧
    (∀ w o, (wrPf 0x1000 0 (leBytes w 4) o s).pcie.bar2Miss = (s.pcie.bar2Miss && (!bit w 15 || bit o 15))) ∧
    (∀ a n p t v, a % 256 + n ≤ 256 → 1 ≤ n → bar2At s a false = .go p t v →
      let x := pvRead p t v n false { ten := t } s
      exec (.bar2Read a n) s = .next (refresh { x.2.2.2 with
        outputs := x.2.2.2.outputs ++ [.bar2 (if x.1 = .ok then some x.2.2.1 else none)] })) ∧
    (∀ a d p t v, a % 256 + d.length ≤ 256 → 1 ≤ d.length → bar2At s a true = .go p t v →
      exec (.bar2Write a d) s = .next (refresh (pvWrite p t v d false (p, 0xFFFFFFFF) { ten := t } s).2.2.2)) ∧
    (∀ fn a, fn ∈ s.pcie.atsOn → exec (.atsInvalidate fn a) s = .next { s with outputs := s.outputs ++ [.atsDone fn a] }) ∧
    (∃ t, exec .flrPf s = .next t ∧ t.pcie.vfEnable = false ∧ t.pcie.windows = [] ∧ t.pcie.bar2En = false ∧
      t.pcie.atsOn = [] ∧ ∀ n, n < 64 → (t.block n).enable = false ∧ (t.block n).session = none ∧ (t.block n).itemRings = false ∧
        (t.block n).envRing = false ∧ (t.block n).irqMask = 0xFF) ∧
    (∀ vf, vfExists s vf = true → let y := flrBlock vf (leaveRun vf .unlocked s)
      exec (.flrVf vf) s = .next (refresh { y with pcie := { y.pcie with
        atsOn := y.pcie.atsOn.filter (· != vf), msix := y.pcie.msix.filter (fun e => e.1 / 4096 != vf)
        msixPending := y.pcie.msixPending.filter (fun e => e.1 != vf) } })) ∧
    (∀ v, exec (.configurationWrite 0 cfgNumVfs v) s = .next (refresh (setVfs (min v 63) s.pcie.vfEnable s))) ∧
    (∀ v, exec (.configurationWrite 0 cfgSriovControl v) s = .next (refresh (setVfs s.pcie.numVfs (bit v 0) s))) ∧
    (∀ fn o v, vfExists s fn = true → o ≠ cfgAtsControl → o ≠ cfgDevControl →
      let y := if tdispOf s fn = .locked ∨ tdispOf s fn = .run then leaveRun fn .error s else s
      exec (.configurationWrite fn o v) s =
        .next (refresh { y with pcie := { y.pcie with cfg := tblPut y.pcie.cfg (4096 * fn + o) v } })) ∧
    (∀ v, exec (.configurationWrite 0 cfgDevControl v) s =
      .next (refresh { s with pcie := { s.pcie with cfg := tblPut s.pcie.cfg cfgDevControl (devControl v) } })) ∧
    ∀ v, ∃ t, exec (.configurationWrite 0 cfgAtsControl v) s = .next t ∧ (0 ∈ t.pcie.atsOn ↔ bit v 15 = true) ∧
      ∀ fn, fn ≠ 0 → (fn ∈ t.pcie.atsOn ↔ fn ∈ s.pcie.atsOn)

/-- R25, R55, R251, R316, R320, R540 to R542, R548, R549: parts of the package that fail: the four cores of a quad whose fabric port
fails are fenced together, reserve cores too, in one event (log entry 78); a die can be lost alone, with an edge or with its hub link. A lost die is lost with its stacks, and each of its
active or promoted cores is fenced, with the cause 6 and the postmark, and no other core.
The loss of the hub die removes the module's power, and it stays off until the input has been taken away (log entry 60). A core that reads an error in the bundle that it issues is
fenced. -/
def Obligations.PartFailuresComplete : Prop :=
  (∀ s : State, s.power.good = true →
    (∀ q, q < 56 → quadMembers s q ≠ [] → exec (.quadPortFail q) s = .next (refresh (fenceQuad q (quadMembers s q) s)) ∧
      ∀ k, k < 4 → 4 * q + k < 224 → (s.cmeta (4 * q + k)).state ≠ .bad →
        ((fenceQuad q (quadMembers s q) s).cmeta (4 * q + k)).state = .fenced) ∧
    (∀ d, d < 8 → exec (.dieLost d) s = .next (refresh (loseDie d s))) ∧
    (exec (.dieLost 8) s = .next (powerOff true s)) ∧
    (∀ a b, a < 8 → b < 8 → (a / 4 = b / 4 ∧ (a + 1 = b ∨ b + 1 = a)) ∨ (a + 4 = b ∨ b + 4 = a) →
      exec (.edgeFail a b) s = .next (refresh (loseDie (max a b) s))) ∧
    (∀ row, row < 2 → exec (.hubLinkLost row) s = .next (refresh ((List.range 4).foldl (fun s c => loseDie (4 * row + c) s) s)))) ∧
  (∀ (d : Nat) (s : State), d < 8 → (s.die d).lost = false → let t := loseDie d s
    (t.die d).lost = true ∧ (∀ k ∈ stacksOf d, (t.stack k).unreachable = true) ∧
      (∀ k, 28 * d ≤ k → k < 28 * d + 28 → coreUp s k = true → (t.cmeta k).state = .fenced ∧ (t.cmeta k).cause = 6 ∧
        (t.cmeta k).fencedAt = s.time.postmark) ∧
      ∀ k, coreUp s k = false ∨ k < 28 * d ∨ 28 * d + 28 ≤ k → t.cmeta k = s.cmeta k) ∧
  ∀ (e : CoreEnv) (x : CoreFault) (s : State), issuing (struck e s) = true →
    bundleBad (struck e s) (s.core e.core).seq.nextIdx = some x →
    ∀ cmd, cmd = Instr.mmNop e ∨ cmd = Instr.vxNop e ∨ cmd = Instr.stNop e →
      exec cmd s = .next (coreFault e.core x (slotStart e s))

/-- R504 to R509, R532: Courier ports: training ends with the port UP, or DOWN, and its LINK_CONFIG commands answered in order; the
spare takes over a failed lane, what was not acknowledged is sent again, and a second failed lane takes the port down; a flit in
order is acknowledged and its frames are dealt with, one that fails its CRC or comes too early is asked for again, and one that came
before is acknowledged once more; what a peer asks for again is sent again. (That a spare lane that fails idle signals vector 10
alone, that sequence numbers begin at zero, how frames fill flits and how a peer asks are log entry 29.) -/
def Obligations.PortEventsComplete : Prop :=
  ∀ (k : Nat) (s : State), k < 8 → let x := s.port k
    (∀ m pp, x.st = .training → ∃ t, exec (.portUp k m pp) s = .next t ∧ (t.port k).st = .up ∧ (t.port k).peerMember = m % 65536 ∧
      (t.port k).peerPort = pp % 256 ∧ (t.port k).pendingCfg = [] ∧ (t.port k).rxNext = 0 ∧ (t.port k).kept = [] ∧
      (t.port k).rxBuf = [] ∧ (t.port k).replayTo = none ∧
      ∃ y, (y.port k).pendingCfg = x.pendingCfg ∧ t = refresh (portReply k y)) ∧
    (x.st = .up ∨ x.st = .training → ∃ t, exec (.portDown k) s = .next t ∧ (t.port k).st = .down ∧ (t.port k).kept = [] ∧
      (t.port k).pendingCfg = [] ∧ ∃ y, (y.port k).pendingCfg = x.pendingCfg ∧ t = refresh (portReply k y)) ∧
    (∀ y : State, portReply k y = (y.port k).pendingCfg.foldl (fun u tk => reply tk .ok [] u)
      (y.setPort k { y.port k with pendingCfg := [] })) ∧
    (x.st = .down → exec (.portRetrain k) s = .next (refresh (linkEvent k 0 0 (s.setPort k { x with st := .training })))) ∧
    (∀ lane, lane < 5 → x.st = .up → bit x.failed lane = false →
      let y := s.setPort k { x with
        failed := x.failed + 2 ^ lane, active := mapOf (((List.range 5).filter (fun j => !bit (x.failed + 2 ^ lane) j)).take 4) }
      (bit x.active lane = false → exec (.laneFail k lane) s = .next (msix 0 10 y)) ∧
      (bit x.active lane = true → x.failed = 0 →
        let z := y.setPort k { y.port k with
          replayTo := if x.mode8023 then none else some (x.replayTo.getD x.rxNext) }
        exec (.laneFail k lane) s = .next (linkEvent k 1 lane (match x.kept with
          | e :: _ => if x.mode8023 then z else resend k e.1 z
          | [] => z))) ∧
      (bit x.active lane = true → (∃ j, j < 5 ∧ bit x.failed j = true) →
        exec (.laneFail k lane) s = .next (refresh (portGoesDown k y)))) ∧
    ∀ f : List Byte, x.st = .up → x.mode8023 = false → f.length = 256 → let seq := le f 2 2 % 4096
      let acked := { x with kept := afterAck (le f 4 2 % 4096) x.kept }
      let sent (o : Output) (y : State) : State := { y with outputs := y.outputs ++ [o] }
      (crc64 (f.take 248) = le f 248 8 →
        (seq = x.rxNext → x.replayTo = none →
          let y := sent (.flitAck k seq) (s.setPort k { acked with rxNext := (seq + 1) % 4096 })
          (le f 0 1 = 0 → exec (.flit k f) s = .next y) ∧
          (le f 0 1 = 1 → exec (.flit k f) s = contentCame k (slice f 8 240) false y) ∧
          (le f 0 1 = 2 → le f 8 1 = 1 → exec (.flit k f) s = .next (resend k (le f 9 2 % 4096) y))) ∧
        (seq ≠ x.rxNext → (seq + 4096 - x.rxNext) % 4096 < 2048 → exec (.flit k f) s =
          .next (askReplay k x.rxNext seq (s.setPort k acked))) ∧
        (seq ≠ x.rxNext → 2048 ≤ (seq + 4096 - x.rxNext) % 4096 → exec (.flit k f) s =
          .next (sent (.flitAck k x.ack) (s.setPort k acked)))) ∧
      (crc64 (f.take 248) ≠ le f 248 8 → ∃ t, exec (.flit k f) s = .next t ∧
        t.port k = { x with replays := add48 x.replays 1, replayTo := (t.port k).replayTo } ∧
        (x.replayTo = none → (t.port k).replayTo = some seq) ∧ .flitReplay k seq ∈ t.outputs)

/-- R512, R515 to R518, R521 to R525, R528 to R531, R383 to R392: Courier frames that arrive for the package on an open
channel are opened, counted and dealt with by their type, on a port of IEEE 802.3 mode out of an Ethernet frame whose FCS and MAC
addresses are right; a frame for another member goes on with one hop less; a TICK that is not a replay is a sample. -/
def Obligations.CourierFramesComplete : Prop :=
  (∀ (fr : CFrame) (ty : Nat) (body : List Byte) (s y : State),
    let b := (received s fr).bytes; let p := fParcel b; let ch := fChan b
    forUs s (received s fr) ty = true → (s.parcel p).state ≠ .free → openFrame p ch b s = (some body, y) →
    let c := (s.parcel p).chan ch
    let x := countFrame p ch false y
    (c.kind = 1 → c.peerMember = fSrc b →
      (ty = 0x01 → exec (.data fr) s = .next (refresh (streamData p ch (fTag b) body x))) ∧
      (ty = 0x02 → let c1 := (x.parcel p).chan ch
        let st := (tblGet c1.streams (fTag b)).getD {}
        exec (.credit fr) s = .next (refresh (flushTx p ch (fTag b) (st.tx.length + 1) (x.modParcel p (fun z => { z with
          channels := tblPut z.channels ch { c1 with
            streams := tblPut c1.streams (fTag b) { st with credit := st.credit + le body 0 4 } } }))))) ∧
      (ty = 0x03 → exec (.reset fr) s = .next (refresh (streamReset p ch (fTag b) x)))) ∧
    (∀ k, c.kind = 2 → srcRank c (fSrc b) (ty == 0x01) = some k →
      (ty = 0x01 → exec (.data fr) s = .next (refresh (onCollData p ch k (fOffset b) body x))) ∧
      (ty = 0x04 → exec (.abort fr) s = .next (refresh (onAbort p ch (le body 0 4) (fSrc b) x))) ∧
      (ty = 0x05 → le body 0 2 < 4096 → exec (.skew fr) s = .next (refresh (setSkew p (le body 0 2) x))) ∧
      (body.length = 16 → le body 0 2 < 4096 →
        (ty = 0x20 → exec (.vote fr) s = .next (refresh (onGroupMsg p ch 0x20 k body x))) ∧
        (ty = 0x21 → exec (.decision fr) s = .next (refresh (onGroupMsg p ch 0x21 k body x))) ∧
        (ty = 0x22 → exec (.query fr) s = .next (refresh (onGroupMsg p ch 0x22 k body x))) ∧
        ∀ i r, ty = 0x23 → runOfGroup x p (le body 0 2) = some (i, r) → r.phase = .inDoubt → r.step = le body 4 4 →
          exec (.answer fr) s = .next (refresh (onDecision p (le body 0 2) (le body 4 4) (le body 8 1 == 1) x))) ∧
      (fOffset b = 0 → fLast b = true →
        let z (t : Nat) : State := x.modParcel p (fun y => { y with
          inbox := y.inbox.filter (fun e => !(e.type == 256 + t && e.channel == ch && e.rank == k)) })
        (ty = 0x24 → 24 ≤ body.length → le body 0 2 < 4096 →
          exec (.norm fr) s = .next (refresh (onGroupMsg p ch 0x24 k body (z 0x24)))) ∧
        (ty = 0x25 → exec (.tally fr) s = .next (refresh (onTally p ch k body (z 0x25))))))) ∧
  (∀ (fr : CFrame) (s : State), let b := (received s fr).bytes
    portOpen s (received s fr) = true → fDest b ≠ s.fed.member → fType b ≠ 0x11 → fSrc b ∉ s.fed.lostMembers →
    2 ≤ fHops b → exec (.courierFrameForward fr) s = .next (routeFrame (b.set 11 (BitVec.ofNat 8 (fHops b - 1))) s)) ∧
  (∀ (fr : CFrame) (s : State), let b := (received s fr).bytes
    forUs s (received s fr) 0x10 = true → fLen b = 8 → ∃ t, exec (.hold fr) s = .next t ∧
    t.fed.waits = s.fed.waits.map (fun w => if w.member = fSrc b then { w with ext := w.ext + le b 32 2 } else w) ∧
    (s.fed.holdSeen = [] → s.bmcLog.tail < t.bmcLog.tail)) ∧
  (∀ (fr : CFrame) (s : State), (s.port fr.port).mode8023 = false → received s fr = fr) ∧
  ∀ (fr : CFrame) (s : State), let b := fr.bytes
    s.power.ready = true → fr.replayed = false → (s.fed.federated || s.fed.forming.isSome) = true → s.fed.member ≠ s.fed.datum → fr.port = s.fed.upstream →
    (s.port fr.port).st = .up → (s.port fr.port).mode8023 = false → fType b = 0x11 → fFed b = s.fed.number → fWhole b = true →
    fLen b = 20 → fSrc b ∉ s.fed.lostMembers → 2 ≤ fHops b → ∃ t, exec (.tick fr) s = .next t ∧ t.fed.tickSeen = true ∧ t.fed.tickPostmark = le b 32 8 ∧
      t.fed.tickPeriod = le b 40 4 ∧ t.fed.offset = tickOffset s (le b 44 8)

/-- R517, R518, R520, R521, R532: the federation: a member whose wait has run out is lost; the package is no longer aligned
without a TICK for 100 frames or out of the bound for 8, and aligned again after 8 within it; a package that waits to
join, and that is lined up with the datum, takes the datum's postmark and period in a frame head, in the turn of its change (R43),
and what is between segments goes on from there (R46). (That the postmark is the one of the datum's frame that begins with the head,
and what counts as lined up, are log entry 79.) -/
def Obligations.FederationEventsComplete : Prop :=
  (∀ (m ch : Nat) (w : Wait) (s : State), s.fed.waits.find? (fun w => w.member == m && w.channel == ch && waitOver s w) = some w →
    ∃ t, exec (.peerLost m ch) s = .next t ∧ m ∈ t.fed.lostMembers ∧ ∀ w ∈ t.fed.waits, w.member ≠ m) ∧
  (∀ (o : Int) (s : State), s.fed.federated = true → s.fed.aligned = true → s.fed.member ≠ s.fed.datum →
    o = s.fed.offset → (100 ≤ s.fed.noTick ∨ 8 ≤ s.fed.outFrames) → ∃ t, exec (.tickLost o) s = .next t ∧
      t.fed = { s.fed with aligned := false, inFrames := 0 } ∧ t.parcels = s.parcels ∧ t.time = s.time) ∧
  (∀ s : State, s.fed.federated = true → s.fed.aligned = false → s.fed.member ≠ s.fed.datum → 8 ≤ s.fed.inFrames →
    exec .alignedRestore s = .next (refresh { s with fed := { s.fed with aligned := true, outFrames := 0 } })) ∧
  ∀ (tk : Ticket) (k : Nat × Nat) (n : Nat) (s y : State), s.fed.forming = some (tk, k) → s.fed.upstream ≠ 0xFF →
    s.fed.quiet = true → s.fed.lengthened = true → s.fed.astray = false → turnIn s Change.joins = some y →
    n = (if s.fed.tickSeen then s.fed.tickPostmark else s.fed.tickPostmark + 1 + s.fed.noTick) → s.time.postmark ≤ n →
    periodBusy s s.fed.tickPeriod = false → exec (.fedJoin n) s = .next (refresh (reply tk .ok
      (leBytes n 8) { jumpTo n y with
        time := { s.time with postmark := n, period := s.fed.tickPeriod, nextPeriod := none }
        fed := { s.fed with
          forming := none, quiet := false, lengthened := false, samples := [], federated := true, aligned := true, noTick := 0
          outFrames := 0, inFrames := 0 } }))

/-- R550, R551, R553 to R556: a record: its number is one above the last one's, the log keeps the newest of its capacity,
and one that is overwritten before it was consumed is counted as lost; the operator's copy of an event of a sealed parcel
keeps postmark, kind and parcel alone, that of a MEM_ERROR the lot slot 0xFFFF as well (log entry 75). -/
def Obligations.EventsAreLogged : Prop :=
  (∀ (cap : Nat) (e : Event) (l : EvLog), 1 ≤ cap → (∀ r ∈ l.recs, r.1 ≤ l.tail) → let m := logAppend cap e l
    m.tail = l.tail + 1 ∧ m.head = l.head ∧ (l.tail + 1, e) ∈ m.recs ∧ (∀ r ∈ m.recs, r.1 ≤ m.tail ∧ m.tail < r.1 + cap) ∧
      (∀ r ∈ l.recs, l.tail + 1 < r.1 + cap → r ∈ m.recs) ∧
      ((∃ r ∈ l.recs, r.1 + cap = l.tail + 1 ∧ l.head < r.1) → m.lost = add48 l.lost 1 ∧ m.lostFlag = true) ∧
      ((∀ r ∈ l.recs, r.1 + cap = l.tail + 1 → r.1 ≤ l.head) → m.lost = l.lost ∧ m.lostFlag = l.lostFlag)) ∧
  ∀ (kind p t seq len : Nat) (a b : List Byte) (s : State), let u := recordNow kind p t seq len a b s
    u.pfLog.tail = s.pfLog.tail + 1 ∧ u.bmcLog.tail = s.bmcLog.tail + (if kindBmc kind then 1 else 0) ∧
      (∀ q, bare (u.parcel q) = bare (s.parcel q)) ∧ u.hbm = s.hbm ∧ u.cores = s.cores ∧ u.time = s.time ∧
      (∀ r ∈ u.pfLog.recs, r.1 = u.pfLog.tail → r ∉ s.pfLog.recs →
        (p < 48 → sealedOrPending s p = true → r.2 = {
          postmark := s.time.postmark, kind := kind, parcel := p, tenancy := 0, seq := 0, flags := 1
          payload := if kind = evMemError then zeros 18 ++ [0xFF, 0xFF] ++ zeros 12 else [] }) ∧
        ((48 ≤ p ∨ sealedOrPending s p = false) → r.2 = ⟨s.time.postmark, s.time.stamp, kind, p, t, len, 0, seq, a⟩))

/-- R561, R568: what the manual gives for reset: nothing in progress, no parcel, no session, no federation, empty logs, the
frame period of 3,300,032 cycles; every memory is in its canonical form (log entry 6), and no command is in the queue. The model's
own choices: the state before power is applied is the reset state (log entry 2); address registers are zero and ports DISABLED
before the first boot (log entry 3); no byte of the HBM has been written, and one reads as zero (log entry 6). -/
def Obligations.ResetIsAsTheManualSays : Prop :=
  (memsWf State.reset = true) ∧
  (State.reset.pending = [] ∧ State.reset.time.period = 3300032 ∧ State.reset.time.postmark = 0 ∧ State.reset.time.cycle = 0 ∧
    State.reset.power.ready = false ∧ State.reset.power.good = false ∧ State.reset.power.holdOn = false ∧
    State.reset.power.drainOn = false ∧ liveParcels State.reset = [] ∧ State.reset.bmcSession = none ∧
    (∀ n, State.reset.block n = {} ∧ (State.reset.block n).irqMask = 0xFF ∧ (State.reset.block n).enable = false ∧
      (State.reset.block n).session = none) ∧
    (∀ k, (State.reset.core k).vregs = List.replicate 64 0 ∧ (State.reset.core k).aregs = List.replicate 32 0 ∧
      (State.reset.core k).seq.st = .idle ∧ ∀ a, ((State.reset.core k).array a) = arrayOff) ∧
    (∀ k, (State.reset.port k).st = .disabled) ∧ State.reset.fed.federated = false ∧ State.reset.pfLog.tail = 0 ∧
    State.reset.bmcLog.tail = 0 ∧ State.reset.changes = [] ∧ State.reset.pcie.bar2En = false ∧
    ∀ a, memRead State.reset.hbm.mem a = 0)
end

