-- ==== Sys2Proof/Laws/Mem.lean ====
section
/-! SUPPORT. Every memory operation keeps the canonical form, and what a byte reads after one byte was written. -/

namespace Sys2Proof.Machine

/-- A list above a bound lies above every smaller one. -/
theorem cellsAbove_mono {a b : Nat} {l : List Host.Cell} (h : cellsAbove b l = true) (hab : a ≤ b) :
    cellsAbove a l = true := by
  induction l with
  | nil => rfl
  | cons c r ih => simp [cellsAbove] at *; exact ⟨by omega, ih h.2⟩

/-- Removing an address keeps a bound. -/
theorem cellsAbove_del {a k : Nat} {l : List Host.Cell} (h : cellsAbove a l = true) : cellsAbove a (cellDel k l) = true := by
  induction l with
  | nil => rfl
  | cons c r ih =>
    simp only [cellDel]
    split
    · simp [cellsAbove] at h; exact h.2
    · simp [cellsAbove] at *; exact ⟨h.1, ih h.2⟩

/-- Inserting above a bound keeps it. -/
theorem cellsAbove_ins {a k : Nat} {b : Byte} {l : List Host.Cell} (h : cellsAbove a l = true) (hk : a < k) :
    cellsAbove a (cellIns k b l) = true := by
  induction l with
  | nil => simp [cellIns, cellsAbove, hk]
  | cons c r ih =>
    simp only [cellIns]
    split
    · simp [cellsAbove] at *; exact ⟨hk, h⟩
    · split
      · simp [cellsAbove] at *; exact ⟨hk, h.2⟩
      · simp [cellsAbove] at *; exact ⟨h.1, ih h.2⟩

theorem cellsWf_del {k : Nat} {l : List Host.Cell} (h : cellsWf l = true) : cellsWf (cellDel k l) = true := by
  induction l with
  | nil => rfl
  | cons c r ih =>
    simp [cellsWf] at h
    simp only [cellDel]
    split
    · exact h.2
    · simp [cellsWf, h.1, ih h.2, cellsAbove_del h.1.2]

theorem cellsWf_ins {k : Nat} {b : Byte} {l : List Host.Cell} (h : cellsWf l = true) (hb : b ≠ 0) :
    cellsWf (cellIns k b l) = true := by
  induction l with
  | nil => simpa [cellIns, cellsWf, cellsAbove] using hb
  | cons c r ih =>
    simp [cellsWf] at h
    simp only [cellIns]
    split
    · rename_i hk
      simp [cellsWf, cellsAbove, h, hk]
      exact ⟨by simpa using hb, cellsAbove_mono h.1.2 (by omega)⟩
    · split
      · rename_i hk
        simp [cellsWf, h.2]
        exact ⟨by simpa using hb, by simpa [hk] using h.1.2⟩
      · simp [cellsWf, h.1, ih h.2]
        exact cellsAbove_ins h.1.2 (by omega)

/-- Writing one byte keeps the canonical form. -/
theorem memWf_write {m : Mem} (a : Nat) (b : Byte) (h : memWf m = true) : memWf (memWrite m a b) = true := by
  unfold memWf memWrite cellPut at *
  split
  · exact cellsWf_del h
  · exact cellsWf_ins h ‹_›

/-- Writing bytes keeps the canonical form. -/
theorem memWf_writeN {m : Mem} (a : Nat) (bs : List Byte) (h : memWf m = true) : memWf (memWriteN m a bs) = true := by
  induction bs generalizing m a with
  | nil => exact h
  | cons b r ih => exact ih _ (memWf_write a b h)

/-- Keeping some cells keeps a bound. -/
theorem cellsAbove_filter {a : Nat} {l : List Host.Cell} (f : Host.Cell → Bool) (h : cellsAbove a l = true) :
    cellsAbove a (l.filter f) = true := by
  induction l with
  | nil => rfl
  | cons c r ih =>
    simp [cellsAbove] at h
    simp only [List.filter]
    split
    · simp [cellsAbove, h.1, ih h.2]
    · exact ih h.2

/-- Keeping some cells keeps the canonical form. -/
theorem cellsWf_filter {l : List Host.Cell} (f : Host.Cell → Bool) (h : cellsWf l = true) : cellsWf (l.filter f) = true := by
  induction l with
  | nil => rfl
  | cons c r ih =>
    simp [cellsWf] at h
    simp only [List.filter]
    split
    · simp [cellsWf, h.1, ih h.2, cellsAbove_filter f h.1.2]
    · exact ih h.2

/-- Zeroing keeps the canonical form. -/
theorem memWf_zero {m : Mem} (a n : Nat) (h : memWf m = true) : memWf (memZero m a n) = true := cellsWf_filter _ h

/-- Making bytes undefined keeps the canonical form. -/
theorem memWf_undef {m : Mem} (a n tag : Nat) (h : memWf m = true) : memWf (memUndef m a n tag) = true := cellsWf_filter _ h

/-- The empty memory is canonical. -/
theorem memWf_empty : memWf {} = true := rfl

/-- An address below every cell is not listed. -/
theorem cellAt_above {a : Nat} {l : List Host.Cell} (h : cellsAbove a l = true) : cellAt a l = 0 := by
  induction l with
  | nil => rfl
  | cons c r ih =>
    simp [cellsAbove] at h
    simp [cellAt, ih h.2, show ¬ c.1 = a by omega]

/-- What a cell list reads after a byte was put into it. -/
theorem cellAt_put {l : List Host.Cell} (a x : Nat) (b : Byte) (h : cellsWf l = true) :
    cellAt x (cellPut a b l) = if x = a then b else cellAt x l := by
  unfold cellPut
  split
  · rename_i hb
    subst hb
    induction l with
    | nil => simp [cellDel, cellAt]
    | cons c r ih =>
      simp [cellsWf] at h
      simp only [cellDel]
      split
      · rename_i hc
        split
        · subst hc; rename_i hx; subst hx; exact cellAt_above h.1.2
        · simp [cellAt, show ¬ c.1 = x by omega]
      · simp only [cellAt]
        split
        · rw [if_neg (by omega)]
        · exact ih h.2
  · induction l with
    | nil => simp [cellIns, cellAt, eq_comm]
    | cons c r ih =>
      simp [cellsWf] at h
      simp only [cellIns]
      split
      · simp only [cellAt, eq_comm]
      · split
        · rename_i hc
          simp only [cellAt, hc]
          by_cases hx : x = a
          · simp [hx]
          · simp [hx, show ¬ a = x by omega]
        · simp only [cellAt]
          split
          · rw [if_neg (by omega)]
          · exact ih h.2

/-- As many bytes are read as were asked for. -/
@[simp] theorem memReadN_length (m : Mem) (a n : Nat) : (memReadN m a n).length = n := by
  induction n generalizing a with
  | zero => rfl
  | succ n ih => simp [memReadN, ih]

/-- Dropping and taking bytes of a read. -/
theorem memReadN_drop (m : Mem) (a n d : Nat) : (memReadN m a n).drop d = memReadN m (a + d) (n - d) := by
  induction n generalizing a d with
  | zero => simp [memReadN]
  | succ n ih => cases d with
    | zero => simp
    | succ d => simp [memReadN, ih, Nat.add_comm, Nat.add_left_comm]

theorem memReadN_take (m : Mem) (a n k : Nat) : (memReadN m a n).take k = memReadN m a (min k n) := by
  induction n generalizing a k with
  | zero => simp [memReadN]
  | succ n ih => cases k with
    | zero => simp [memReadN]
    | succ k => simp [memReadN, ih, Nat.succ_min_succ]

/-- The bytes read are those at successive addresses. -/
theorem memReadN_get (m : Mem) (a n i : Nat) (h : i < n) : (memReadN m a n)[i]? = some (memRead m (a + i)) := by
  induction n generalizing a i with
  | zero => omega
  | succ n ih =>
    cases i with
    | zero => rfl
    | succ i => simp only [memReadN, List.getElem?_cons_succ]; rw [ih (a + 1) i (by omega)]; congr 2; omega

/-- Writing stretches of memory keeps the canonical form. -/
theorem memWf_spansWrite (l : List (Nat × Nat)) (bs : List Byte) {m : Mem} (h : memWf m = true) :
    memWf (spansWrite l bs m) = true := by
  induction l generalizing bs m with
  | nil => exact h
  | cons x r ih => exact ih _ (memWf_writeN _ _ h)

/-- A successful write of host memory keeps its canonical form and changes nothing else. -/
theorem hostWrite_some {s t : State} {k a : Nat} {bs : List Byte} (h : hostWrite s k a bs = some t) :
    ∃ l, hostReach s k a bs.length = some l ∧ t = { s with host := { s.host with mem := spansWrite l bs s.host.mem } } ∧
      (memWf s.host.mem = true → memWf t.host.mem = true) := by
  unfold hostWrite at h
  rw [Option.map_eq_some_iff] at h
  obtain ⟨l, hl, rfl⟩ := h
  exact ⟨l, hl, rfl, memWf_spansWrite _ _⟩

end Sys2Proof.Machine
end

