-- ==== Sys2Proof/Laws/Tables.lean ====
section
/-! SUPPORT. What a table and a list answer after an update. -/

namespace Sys2Proof.Machine

/-- A key reads what was put. -/
@[simp] theorem tblGet_put_same {α : Type} (t : Tbl α) (k : Nat) (v : α) : tblGet (tblPut t k v) k = some v := by
  simp [tblGet, tblPut]

/-- A removed key reads nothing. -/
@[simp] theorem tblGet_del_same {α : Type} (t : Tbl α) (k : Nat) : tblGet (tblDel t k) k = none := by
  simp [tblGet, tblDel]

/-- Removing a key leaves every other key. -/
@[simp] theorem tblGet_del_other {α : Type} (t : Tbl α) (k j : Nat) (h : j ≠ k) : tblGet (tblDel t k) j = tblGet t j := by
  unfold tblGet tblDel
  congr 1
  induction t with
  | nil => rfl
  | cons e r ih =>
    by_cases he : e.1 = k
    · have : ¬ k = j := fun hk => h hk.symm
      simp [he, this, ih]
    · by_cases hj : e.1 = j
      · subst hj; simp [h]
      · simp [he, hj, ih]

/-- Putting a key leaves every other key. -/
@[simp] theorem tblGet_put_other {α : Type} (t : Tbl α) (k j : Nat) (v : α) (h : j ≠ k) :
    tblGet (tblPut t k v) j = tblGet t j := by
  rw [← tblGet_del_other t k j h]
  have : ¬ k = j := fun hk => h hk.symm
  simp [tblGet, tblPut, tblDel, this]

/-- An empty table answers nothing. -/
@[simp] theorem tblGet_nil {α : Type} (k : Nat) : tblGet ([] : Tbl α) k = none := rfl

end Sys2Proof.Machine
end

