-- ==== Sys2Proof/Laws/State.lean ====
section
/-! SUPPORT. Reads of a state after an update of it: one lemma for each field and each update, and what a home reads after
it is set. -/

namespace Sys2Proof.Machine

/-! `setCore` writes cores alone. -/

@[simp] theorem State.setCore_pending (s : State) (k : Nat) (x : Core) : (s.setCore k x).pending = s.pending := rfl
@[simp] theorem State.setCore_free (s : State) (k : Nat) (x : Core) : (s.setCore k x).free = s.free := rfl
@[simp] theorem State.setCore_time (s : State) (k : Nat) (x : Core) : (s.setCore k x).time = s.time := rfl
@[simp] theorem State.setCore_power (s : State) (k : Nat) (x : Core) : (s.setCore k x).power = s.power := rfl
@[simp] theorem State.setCore_store (s : State) (k : Nat) (x : Core) : (s.setCore k x).store = s.store := rfl
@[simp] theorem State.setCore_metas (s : State) (k : Nat) (x : Core) : (s.setCore k x).metas = s.metas := rfl
@[simp] theorem State.setCore_dies (s : State) (k : Nat) (x : Core) : (s.setCore k x).dies = s.dies := rfl
@[simp] theorem State.setCore_hs (s : State) (k : Nat) (x : Core) : (s.setCore k x).hs = s.hs := rfl
@[simp] theorem State.setCore_hbm (s : State) (k : Nat) (x : Core) : (s.setCore k x).hbm = s.hbm := rfl
@[simp] theorem State.setCore_parcels (s : State) (k : Nat) (x : Core) : (s.setCore k x).parcels = s.parcels := rfl
@[simp] theorem State.setCore_fails (s : State) (k : Nat) (x : Core) : (s.setCore k x).fails = s.fails := rfl
@[simp] theorem State.setCore_copyA (s : State) (k : Nat) (x : Core) : (s.setCore k x).copyA = s.copyA := rfl
@[simp] theorem State.setCore_copyB (s : State) (k : Nat) (x : Core) : (s.setCore k x).copyB = s.copyB := rfl
@[simp] theorem State.setCore_recovery (s : State) (k : Nat) (x : Core) : (s.setCore k x).recovery = s.recovery := rfl
@[simp] theorem State.setCore_changes (s : State) (k : Nat) (x : Core) : (s.setCore k x).changes = s.changes := rfl
@[simp] theorem State.setCore_passed (s : State) (k : Nat) (x : Core) : (s.setCore k x).passed = s.passed := rfl
@[simp] theorem State.setCore_blocks (s : State) (k : Nat) (x : Core) : (s.setCore k x).blocks = s.blocks := rfl
@[simp] theorem State.setCore_bmcSession (s : State) (k : Nat) (x : Core) : (s.setCore k x).bmcSession = s.bmcSession := rfl
@[simp] theorem State.setCore_bmcOpen (s : State) (k : Nat) (x : Core) : (s.setCore k x).bmcOpen = s.bmcOpen := rfl
@[simp] theorem State.setCore_sessions (s : State) (k : Nat) (x : Core) : (s.setCore k x).sessions = s.sessions := rfl
@[simp] theorem State.setCore_pcie (s : State) (k : Nat) (x : Core) : (s.setCore k x).pcie = s.pcie := rfl
@[simp] theorem State.setCore_sec (s : State) (k : Nat) (x : Core) : (s.setCore k x).sec = s.sec := rfl
@[simp] theorem State.setCore_ports (s : State) (k : Nat) (x : Core) : (s.setCore k x).ports = s.ports := rfl
@[simp] theorem State.setCore_fed (s : State) (k : Nat) (x : Core) : (s.setCore k x).fed = s.fed := rfl
@[simp] theorem State.setCore_pfLog (s : State) (k : Nat) (x : Core) : (s.setCore k x).pfLog = s.pfLog := rfl
@[simp] theorem State.setCore_bmcLog (s : State) (k : Nat) (x : Core) : (s.setCore k x).bmcLog = s.bmcLog := rfl
@[simp] theorem State.setCore_telem (s : State) (k : Nat) (x : Core) : (s.setCore k x).telem = s.telem := rfl
@[simp] theorem State.setCore_delayed (s : State) (k : Nat) (x : Core) : (s.setCore k x).delayed = s.delayed := rfl
@[simp] theorem State.setCore_host (s : State) (k : Nat) (x : Core) : (s.setCore k x).host = s.host := rfl
@[simp] theorem State.setCore_outputs (s : State) (k : Nat) (x : Core) : (s.setCore k x).outputs = s.outputs := rfl

@[simp] theorem State.setCore_core_same (s : State) (k : Nat) (x : Core) : (s.setCore k x).core k = x := by
  simp only [State.core, State.setCore, tblGet_put_same, Option.getD_some]
theorem State.setCore_core_other (s : State) (k : Nat) (x : Core) (j : Nat) (h : j ≠ k) : (s.setCore k x).core j = s.core j := by
  simp only [State.core, State.setCore, tblGet_put_other _ _ _ _ h]
@[simp] theorem State.setCore_cmeta (s : State) (k : Nat) (x : Core) (j : Nat) : (s.setCore k x).cmeta j = s.cmeta j := rfl
@[simp] theorem State.setCore_die (s : State) (k : Nat) (x : Core) (j : Nat) : (s.setCore k x).die j = s.die j := rfl
@[simp] theorem State.setCore_stack (s : State) (k : Nat) (x : Core) (j : Nat) : (s.setCore k x).stack j = s.stack j := rfl
@[simp] theorem State.setCore_parcel (s : State) (k : Nat) (x : Core) (j : Nat) : (s.setCore k x).parcel j = s.parcel j := rfl
@[simp] theorem State.setCore_block (s : State) (k : Nat) (x : Core) (j : Nat) : (s.setCore k x).block j = s.block j := rfl
@[simp] theorem State.setCore_port (s : State) (k : Nat) (x : Core) (j : Nat) : (s.setCore k x).port j = s.port j := rfl

/-! `setCmeta` writes metas alone. -/

@[simp] theorem State.setCmeta_pending (s : State) (k : Nat) (x : CoreMeta) : (s.setCmeta k x).pending = s.pending := rfl
@[simp] theorem State.setCmeta_free (s : State) (k : Nat) (x : CoreMeta) : (s.setCmeta k x).free = s.free := rfl
@[simp] theorem State.setCmeta_time (s : State) (k : Nat) (x : CoreMeta) : (s.setCmeta k x).time = s.time := rfl
@[simp] theorem State.setCmeta_power (s : State) (k : Nat) (x : CoreMeta) : (s.setCmeta k x).power = s.power := rfl
@[simp] theorem State.setCmeta_store (s : State) (k : Nat) (x : CoreMeta) : (s.setCmeta k x).store = s.store := rfl
@[simp] theorem State.setCmeta_cores (s : State) (k : Nat) (x : CoreMeta) : (s.setCmeta k x).cores = s.cores := rfl
@[simp] theorem State.setCmeta_dies (s : State) (k : Nat) (x : CoreMeta) : (s.setCmeta k x).dies = s.dies := rfl
@[simp] theorem State.setCmeta_hs (s : State) (k : Nat) (x : CoreMeta) : (s.setCmeta k x).hs = s.hs := rfl
@[simp] theorem State.setCmeta_hbm (s : State) (k : Nat) (x : CoreMeta) : (s.setCmeta k x).hbm = s.hbm := rfl
@[simp] theorem State.setCmeta_parcels (s : State) (k : Nat) (x : CoreMeta) : (s.setCmeta k x).parcels = s.parcels := rfl
@[simp] theorem State.setCmeta_fails (s : State) (k : Nat) (x : CoreMeta) : (s.setCmeta k x).fails = s.fails := rfl
@[simp] theorem State.setCmeta_copyA (s : State) (k : Nat) (x : CoreMeta) : (s.setCmeta k x).copyA = s.copyA := rfl
@[simp] theorem State.setCmeta_copyB (s : State) (k : Nat) (x : CoreMeta) : (s.setCmeta k x).copyB = s.copyB := rfl
@[simp] theorem State.setCmeta_recovery (s : State) (k : Nat) (x : CoreMeta) : (s.setCmeta k x).recovery = s.recovery := rfl
@[simp] theorem State.setCmeta_changes (s : State) (k : Nat) (x : CoreMeta) : (s.setCmeta k x).changes = s.changes := rfl
@[simp] theorem State.setCmeta_passed (s : State) (k : Nat) (x : CoreMeta) : (s.setCmeta k x).passed = s.passed := rfl
@[simp] theorem State.setCmeta_blocks (s : State) (k : Nat) (x : CoreMeta) : (s.setCmeta k x).blocks = s.blocks := rfl
@[simp] theorem State.setCmeta_bmcSession (s : State) (k : Nat) (x : CoreMeta) : (s.setCmeta k x).bmcSession = s.bmcSession := rfl
@[simp] theorem State.setCmeta_bmcOpen (s : State) (k : Nat) (x : CoreMeta) : (s.setCmeta k x).bmcOpen = s.bmcOpen := rfl
@[simp] theorem State.setCmeta_sessions (s : State) (k : Nat) (x : CoreMeta) : (s.setCmeta k x).sessions = s.sessions := rfl
@[simp] theorem State.setCmeta_pcie (s : State) (k : Nat) (x : CoreMeta) : (s.setCmeta k x).pcie = s.pcie := rfl
@[simp] theorem State.setCmeta_sec (s : State) (k : Nat) (x : CoreMeta) : (s.setCmeta k x).sec = s.sec := rfl
@[simp] theorem State.setCmeta_ports (s : State) (k : Nat) (x : CoreMeta) : (s.setCmeta k x).ports = s.ports := rfl
@[simp] theorem State.setCmeta_fed (s : State) (k : Nat) (x : CoreMeta) : (s.setCmeta k x).fed = s.fed := rfl
@[simp] theorem State.setCmeta_pfLog (s : State) (k : Nat) (x : CoreMeta) : (s.setCmeta k x).pfLog = s.pfLog := rfl
@[simp] theorem State.setCmeta_bmcLog (s : State) (k : Nat) (x : CoreMeta) : (s.setCmeta k x).bmcLog = s.bmcLog := rfl
@[simp] theorem State.setCmeta_telem (s : State) (k : Nat) (x : CoreMeta) : (s.setCmeta k x).telem = s.telem := rfl
@[simp] theorem State.setCmeta_delayed (s : State) (k : Nat) (x : CoreMeta) : (s.setCmeta k x).delayed = s.delayed := rfl
@[simp] theorem State.setCmeta_host (s : State) (k : Nat) (x : CoreMeta) : (s.setCmeta k x).host = s.host := rfl
@[simp] theorem State.setCmeta_outputs (s : State) (k : Nat) (x : CoreMeta) : (s.setCmeta k x).outputs = s.outputs := rfl

@[simp] theorem State.setCmeta_core (s : State) (k : Nat) (x : CoreMeta) (j : Nat) : (s.setCmeta k x).core j = s.core j := rfl
@[simp] theorem State.setCmeta_cmeta_same (s : State) (k : Nat) (x : CoreMeta) : (s.setCmeta k x).cmeta k = x := by
  simp only [State.cmeta, State.setCmeta, tblGet_put_same, Option.getD_some]
theorem State.setCmeta_cmeta_other (s : State) (k : Nat) (x : CoreMeta) (j : Nat) (h : j ≠ k) : (s.setCmeta k x).cmeta j = s.cmeta j := by
  simp only [State.cmeta, State.setCmeta, tblGet_put_other _ _ _ _ h, fuseState]
@[simp] theorem State.setCmeta_die (s : State) (k : Nat) (x : CoreMeta) (j : Nat) : (s.setCmeta k x).die j = s.die j := rfl
@[simp] theorem State.setCmeta_stack (s : State) (k : Nat) (x : CoreMeta) (j : Nat) : (s.setCmeta k x).stack j = s.stack j := rfl
@[simp] theorem State.setCmeta_parcel (s : State) (k : Nat) (x : CoreMeta) (j : Nat) : (s.setCmeta k x).parcel j = s.parcel j := rfl
@[simp] theorem State.setCmeta_block (s : State) (k : Nat) (x : CoreMeta) (j : Nat) : (s.setCmeta k x).block j = s.block j := rfl
@[simp] theorem State.setCmeta_port (s : State) (k : Nat) (x : CoreMeta) (j : Nat) : (s.setCmeta k x).port j = s.port j := rfl

/-! `setDie` writes dies alone. -/

@[simp] theorem State.setDie_pending (s : State) (k : Nat) (x : Die) : (s.setDie k x).pending = s.pending := rfl
@[simp] theorem State.setDie_free (s : State) (k : Nat) (x : Die) : (s.setDie k x).free = s.free := rfl
@[simp] theorem State.setDie_time (s : State) (k : Nat) (x : Die) : (s.setDie k x).time = s.time := rfl
@[simp] theorem State.setDie_power (s : State) (k : Nat) (x : Die) : (s.setDie k x).power = s.power := rfl
@[simp] theorem State.setDie_store (s : State) (k : Nat) (x : Die) : (s.setDie k x).store = s.store := rfl
@[simp] theorem State.setDie_cores (s : State) (k : Nat) (x : Die) : (s.setDie k x).cores = s.cores := rfl
@[simp] theorem State.setDie_metas (s : State) (k : Nat) (x : Die) : (s.setDie k x).metas = s.metas := rfl
@[simp] theorem State.setDie_hs (s : State) (k : Nat) (x : Die) : (s.setDie k x).hs = s.hs := rfl
@[simp] theorem State.setDie_hbm (s : State) (k : Nat) (x : Die) : (s.setDie k x).hbm = s.hbm := rfl
@[simp] theorem State.setDie_parcels (s : State) (k : Nat) (x : Die) : (s.setDie k x).parcels = s.parcels := rfl
@[simp] theorem State.setDie_fails (s : State) (k : Nat) (x : Die) : (s.setDie k x).fails = s.fails := rfl
@[simp] theorem State.setDie_copyA (s : State) (k : Nat) (x : Die) : (s.setDie k x).copyA = s.copyA := rfl
@[simp] theorem State.setDie_copyB (s : State) (k : Nat) (x : Die) : (s.setDie k x).copyB = s.copyB := rfl
@[simp] theorem State.setDie_recovery (s : State) (k : Nat) (x : Die) : (s.setDie k x).recovery = s.recovery := rfl
@[simp] theorem State.setDie_changes (s : State) (k : Nat) (x : Die) : (s.setDie k x).changes = s.changes := rfl
@[simp] theorem State.setDie_passed (s : State) (k : Nat) (x : Die) : (s.setDie k x).passed = s.passed := rfl
@[simp] theorem State.setDie_blocks (s : State) (k : Nat) (x : Die) : (s.setDie k x).blocks = s.blocks := rfl
@[simp] theorem State.setDie_bmcSession (s : State) (k : Nat) (x : Die) : (s.setDie k x).bmcSession = s.bmcSession := rfl
@[simp] theorem State.setDie_bmcOpen (s : State) (k : Nat) (x : Die) : (s.setDie k x).bmcOpen = s.bmcOpen := rfl
@[simp] theorem State.setDie_sessions (s : State) (k : Nat) (x : Die) : (s.setDie k x).sessions = s.sessions := rfl
@[simp] theorem State.setDie_pcie (s : State) (k : Nat) (x : Die) : (s.setDie k x).pcie = s.pcie := rfl
@[simp] theorem State.setDie_sec (s : State) (k : Nat) (x : Die) : (s.setDie k x).sec = s.sec := rfl
@[simp] theorem State.setDie_ports (s : State) (k : Nat) (x : Die) : (s.setDie k x).ports = s.ports := rfl
@[simp] theorem State.setDie_fed (s : State) (k : Nat) (x : Die) : (s.setDie k x).fed = s.fed := rfl
@[simp] theorem State.setDie_pfLog (s : State) (k : Nat) (x : Die) : (s.setDie k x).pfLog = s.pfLog := rfl
@[simp] theorem State.setDie_bmcLog (s : State) (k : Nat) (x : Die) : (s.setDie k x).bmcLog = s.bmcLog := rfl
@[simp] theorem State.setDie_telem (s : State) (k : Nat) (x : Die) : (s.setDie k x).telem = s.telem := rfl
@[simp] theorem State.setDie_delayed (s : State) (k : Nat) (x : Die) : (s.setDie k x).delayed = s.delayed := rfl
@[simp] theorem State.setDie_host (s : State) (k : Nat) (x : Die) : (s.setDie k x).host = s.host := rfl
@[simp] theorem State.setDie_outputs (s : State) (k : Nat) (x : Die) : (s.setDie k x).outputs = s.outputs := rfl

@[simp] theorem State.setDie_core (s : State) (k : Nat) (x : Die) (j : Nat) : (s.setDie k x).core j = s.core j := rfl
@[simp] theorem State.setDie_cmeta (s : State) (k : Nat) (x : Die) (j : Nat) : (s.setDie k x).cmeta j = s.cmeta j := rfl
@[simp] theorem State.setDie_die_same (s : State) (k : Nat) (x : Die) : (s.setDie k x).die k = x := by
  simp only [State.die, State.setDie, tblGet_put_same, Option.getD_some]
theorem State.setDie_die_other (s : State) (k : Nat) (x : Die) (j : Nat) (h : j ≠ k) : (s.setDie k x).die j = s.die j := by
  simp only [State.die, State.setDie, tblGet_put_other _ _ _ _ h]
@[simp] theorem State.setDie_stack (s : State) (k : Nat) (x : Die) (j : Nat) : (s.setDie k x).stack j = s.stack j := rfl
@[simp] theorem State.setDie_parcel (s : State) (k : Nat) (x : Die) (j : Nat) : (s.setDie k x).parcel j = s.parcel j := rfl
@[simp] theorem State.setDie_block (s : State) (k : Nat) (x : Die) (j : Nat) : (s.setDie k x).block j = s.block j := rfl
@[simp] theorem State.setDie_port (s : State) (k : Nat) (x : Die) (j : Nat) : (s.setDie k x).port j = s.port j := rfl

/-! `setStack` writes hs alone. -/

@[simp] theorem State.setStack_pending (s : State) (k : Nat) (x : Stack) : (s.setStack k x).pending = s.pending := rfl
@[simp] theorem State.setStack_free (s : State) (k : Nat) (x : Stack) : (s.setStack k x).free = s.free := rfl
@[simp] theorem State.setStack_time (s : State) (k : Nat) (x : Stack) : (s.setStack k x).time = s.time := rfl
@[simp] theorem State.setStack_power (s : State) (k : Nat) (x : Stack) : (s.setStack k x).power = s.power := rfl
@[simp] theorem State.setStack_store (s : State) (k : Nat) (x : Stack) : (s.setStack k x).store = s.store := rfl
@[simp] theorem State.setStack_cores (s : State) (k : Nat) (x : Stack) : (s.setStack k x).cores = s.cores := rfl
@[simp] theorem State.setStack_metas (s : State) (k : Nat) (x : Stack) : (s.setStack k x).metas = s.metas := rfl
@[simp] theorem State.setStack_dies (s : State) (k : Nat) (x : Stack) : (s.setStack k x).dies = s.dies := rfl
@[simp] theorem State.setStack_hbm (s : State) (k : Nat) (x : Stack) : (s.setStack k x).hbm = s.hbm := rfl
@[simp] theorem State.setStack_parcels (s : State) (k : Nat) (x : Stack) : (s.setStack k x).parcels = s.parcels := rfl
@[simp] theorem State.setStack_fails (s : State) (k : Nat) (x : Stack) : (s.setStack k x).fails = s.fails := rfl
@[simp] theorem State.setStack_copyA (s : State) (k : Nat) (x : Stack) : (s.setStack k x).copyA = s.copyA := rfl
@[simp] theorem State.setStack_copyB (s : State) (k : Nat) (x : Stack) : (s.setStack k x).copyB = s.copyB := rfl
@[simp] theorem State.setStack_recovery (s : State) (k : Nat) (x : Stack) : (s.setStack k x).recovery = s.recovery := rfl
@[simp] theorem State.setStack_changes (s : State) (k : Nat) (x : Stack) : (s.setStack k x).changes = s.changes := rfl
@[simp] theorem State.setStack_passed (s : State) (k : Nat) (x : Stack) : (s.setStack k x).passed = s.passed := rfl
@[simp] theorem State.setStack_blocks (s : State) (k : Nat) (x : Stack) : (s.setStack k x).blocks = s.blocks := rfl
@[simp] theorem State.setStack_bmcSession (s : State) (k : Nat) (x : Stack) : (s.setStack k x).bmcSession = s.bmcSession := rfl
@[simp] theorem State.setStack_bmcOpen (s : State) (k : Nat) (x : Stack) : (s.setStack k x).bmcOpen = s.bmcOpen := rfl
@[simp] theorem State.setStack_sessions (s : State) (k : Nat) (x : Stack) : (s.setStack k x).sessions = s.sessions := rfl
@[simp] theorem State.setStack_pcie (s : State) (k : Nat) (x : Stack) : (s.setStack k x).pcie = s.pcie := rfl
@[simp] theorem State.setStack_sec (s : State) (k : Nat) (x : Stack) : (s.setStack k x).sec = s.sec := rfl
@[simp] theorem State.setStack_ports (s : State) (k : Nat) (x : Stack) : (s.setStack k x).ports = s.ports := rfl
@[simp] theorem State.setStack_fed (s : State) (k : Nat) (x : Stack) : (s.setStack k x).fed = s.fed := rfl
@[simp] theorem State.setStack_pfLog (s : State) (k : Nat) (x : Stack) : (s.setStack k x).pfLog = s.pfLog := rfl
@[simp] theorem State.setStack_bmcLog (s : State) (k : Nat) (x : Stack) : (s.setStack k x).bmcLog = s.bmcLog := rfl
@[simp] theorem State.setStack_telem (s : State) (k : Nat) (x : Stack) : (s.setStack k x).telem = s.telem := rfl
@[simp] theorem State.setStack_delayed (s : State) (k : Nat) (x : Stack) : (s.setStack k x).delayed = s.delayed := rfl
@[simp] theorem State.setStack_host (s : State) (k : Nat) (x : Stack) : (s.setStack k x).host = s.host := rfl
@[simp] theorem State.setStack_outputs (s : State) (k : Nat) (x : Stack) : (s.setStack k x).outputs = s.outputs := rfl

@[simp] theorem State.setStack_core (s : State) (k : Nat) (x : Stack) (j : Nat) : (s.setStack k x).core j = s.core j := rfl
@[simp] theorem State.setStack_cmeta (s : State) (k : Nat) (x : Stack) (j : Nat) : (s.setStack k x).cmeta j = s.cmeta j := rfl
@[simp] theorem State.setStack_die (s : State) (k : Nat) (x : Stack) (j : Nat) : (s.setStack k x).die j = s.die j := rfl
@[simp] theorem State.setStack_stack_same (s : State) (k : Nat) (x : Stack) : (s.setStack k x).stack k = x := by
  simp only [State.stack, State.setStack, tblGet_put_same, Option.getD_some]
theorem State.setStack_stack_other (s : State) (k : Nat) (x : Stack) (j : Nat) (h : j ≠ k) : (s.setStack k x).stack j = s.stack j := by
  simp only [State.stack, State.setStack, tblGet_put_other _ _ _ _ h]
@[simp] theorem State.setStack_parcel (s : State) (k : Nat) (x : Stack) (j : Nat) : (s.setStack k x).parcel j = s.parcel j := rfl
@[simp] theorem State.setStack_block (s : State) (k : Nat) (x : Stack) (j : Nat) : (s.setStack k x).block j = s.block j := rfl
@[simp] theorem State.setStack_port (s : State) (k : Nat) (x : Stack) (j : Nat) : (s.setStack k x).port j = s.port j := rfl

/-! `setParcel` writes parcels alone. -/

@[simp] theorem State.setParcel_pending (s : State) (k : Nat) (x : Parcel) : (s.setParcel k x).pending = s.pending := rfl
@[simp] theorem State.setParcel_free (s : State) (k : Nat) (x : Parcel) : (s.setParcel k x).free = s.free := rfl
@[simp] theorem State.setParcel_time (s : State) (k : Nat) (x : Parcel) : (s.setParcel k x).time = s.time := rfl
@[simp] theorem State.setParcel_power (s : State) (k : Nat) (x : Parcel) : (s.setParcel k x).power = s.power := rfl
@[simp] theorem State.setParcel_store (s : State) (k : Nat) (x : Parcel) : (s.setParcel k x).store = s.store := rfl
@[simp] theorem State.setParcel_cores (s : State) (k : Nat) (x : Parcel) : (s.setParcel k x).cores = s.cores := rfl
@[simp] theorem State.setParcel_metas (s : State) (k : Nat) (x : Parcel) : (s.setParcel k x).metas = s.metas := rfl
@[simp] theorem State.setParcel_dies (s : State) (k : Nat) (x : Parcel) : (s.setParcel k x).dies = s.dies := rfl
@[simp] theorem State.setParcel_hs (s : State) (k : Nat) (x : Parcel) : (s.setParcel k x).hs = s.hs := rfl
@[simp] theorem State.setParcel_hbm (s : State) (k : Nat) (x : Parcel) : (s.setParcel k x).hbm = s.hbm := rfl
@[simp] theorem State.setParcel_fails (s : State) (k : Nat) (x : Parcel) : (s.setParcel k x).fails = s.fails := rfl
@[simp] theorem State.setParcel_copyA (s : State) (k : Nat) (x : Parcel) : (s.setParcel k x).copyA = s.copyA := rfl
@[simp] theorem State.setParcel_copyB (s : State) (k : Nat) (x : Parcel) : (s.setParcel k x).copyB = s.copyB := rfl
@[simp] theorem State.setParcel_recovery (s : State) (k : Nat) (x : Parcel) : (s.setParcel k x).recovery = s.recovery := rfl
@[simp] theorem State.setParcel_changes (s : State) (k : Nat) (x : Parcel) : (s.setParcel k x).changes = s.changes := rfl
@[simp] theorem State.setParcel_passed (s : State) (k : Nat) (x : Parcel) : (s.setParcel k x).passed = s.passed := rfl
@[simp] theorem State.setParcel_blocks (s : State) (k : Nat) (x : Parcel) : (s.setParcel k x).blocks = s.blocks := rfl
@[simp] theorem State.setParcel_bmcSession (s : State) (k : Nat) (x : Parcel) : (s.setParcel k x).bmcSession = s.bmcSession := rfl
@[simp] theorem State.setParcel_bmcOpen (s : State) (k : Nat) (x : Parcel) : (s.setParcel k x).bmcOpen = s.bmcOpen := rfl
@[simp] theorem State.setParcel_sessions (s : State) (k : Nat) (x : Parcel) : (s.setParcel k x).sessions = s.sessions := rfl
@[simp] theorem State.setParcel_pcie (s : State) (k : Nat) (x : Parcel) : (s.setParcel k x).pcie = s.pcie := rfl
@[simp] theorem State.setParcel_sec (s : State) (k : Nat) (x : Parcel) : (s.setParcel k x).sec = s.sec := rfl
@[simp] theorem State.setParcel_ports (s : State) (k : Nat) (x : Parcel) : (s.setParcel k x).ports = s.ports := rfl
@[simp] theorem State.setParcel_fed (s : State) (k : Nat) (x : Parcel) : (s.setParcel k x).fed = s.fed := rfl
@[simp] theorem State.setParcel_pfLog (s : State) (k : Nat) (x : Parcel) : (s.setParcel k x).pfLog = s.pfLog := rfl
@[simp] theorem State.setParcel_bmcLog (s : State) (k : Nat) (x : Parcel) : (s.setParcel k x).bmcLog = s.bmcLog := rfl
@[simp] theorem State.setParcel_telem (s : State) (k : Nat) (x : Parcel) : (s.setParcel k x).telem = s.telem := rfl
@[simp] theorem State.setParcel_delayed (s : State) (k : Nat) (x : Parcel) : (s.setParcel k x).delayed = s.delayed := rfl
@[simp] theorem State.setParcel_host (s : State) (k : Nat) (x : Parcel) : (s.setParcel k x).host = s.host := rfl
@[simp] theorem State.setParcel_outputs (s : State) (k : Nat) (x : Parcel) : (s.setParcel k x).outputs = s.outputs := rfl

@[simp] theorem State.setParcel_core (s : State) (k : Nat) (x : Parcel) (j : Nat) : (s.setParcel k x).core j = s.core j := rfl
@[simp] theorem State.setParcel_cmeta (s : State) (k : Nat) (x : Parcel) (j : Nat) : (s.setParcel k x).cmeta j = s.cmeta j := rfl
@[simp] theorem State.setParcel_die (s : State) (k : Nat) (x : Parcel) (j : Nat) : (s.setParcel k x).die j = s.die j := rfl
@[simp] theorem State.setParcel_stack (s : State) (k : Nat) (x : Parcel) (j : Nat) : (s.setParcel k x).stack j = s.stack j := rfl
@[simp] theorem State.setParcel_parcel_same (s : State) (k : Nat) (x : Parcel) : (s.setParcel k x).parcel k = x := by
  simp only [State.parcel, State.setParcel, tblGet_put_same, Option.getD_some]
theorem State.setParcel_parcel_other (s : State) (k : Nat) (x : Parcel) (j : Nat) (h : j ≠ k) : (s.setParcel k x).parcel j = s.parcel j := by
  simp only [State.parcel, State.setParcel, tblGet_put_other _ _ _ _ h]
@[simp] theorem State.setParcel_block (s : State) (k : Nat) (x : Parcel) (j : Nat) : (s.setParcel k x).block j = s.block j := rfl
@[simp] theorem State.setParcel_port (s : State) (k : Nat) (x : Parcel) (j : Nat) : (s.setParcel k x).port j = s.port j := rfl

/-! `setBlock` writes blocks alone. -/

@[simp] theorem State.setBlock_pending (s : State) (k : Nat) (x : MBlock) : (s.setBlock k x).pending = s.pending := rfl
@[simp] theorem State.setBlock_free (s : State) (k : Nat) (x : MBlock) : (s.setBlock k x).free = s.free := rfl
@[simp] theorem State.setBlock_time (s : State) (k : Nat) (x : MBlock) : (s.setBlock k x).time = s.time := rfl
@[simp] theorem State.setBlock_power (s : State) (k : Nat) (x : MBlock) : (s.setBlock k x).power = s.power := rfl
@[simp] theorem State.setBlock_store (s : State) (k : Nat) (x : MBlock) : (s.setBlock k x).store = s.store := rfl
@[simp] theorem State.setBlock_cores (s : State) (k : Nat) (x : MBlock) : (s.setBlock k x).cores = s.cores := rfl
@[simp] theorem State.setBlock_metas (s : State) (k : Nat) (x : MBlock) : (s.setBlock k x).metas = s.metas := rfl
@[simp] theorem State.setBlock_dies (s : State) (k : Nat) (x : MBlock) : (s.setBlock k x).dies = s.dies := rfl
@[simp] theorem State.setBlock_hs (s : State) (k : Nat) (x : MBlock) : (s.setBlock k x).hs = s.hs := rfl
@[simp] theorem State.setBlock_hbm (s : State) (k : Nat) (x : MBlock) : (s.setBlock k x).hbm = s.hbm := rfl
@[simp] theorem State.setBlock_parcels (s : State) (k : Nat) (x : MBlock) : (s.setBlock k x).parcels = s.parcels := rfl
@[simp] theorem State.setBlock_fails (s : State) (k : Nat) (x : MBlock) : (s.setBlock k x).fails = s.fails := rfl
@[simp] theorem State.setBlock_copyA (s : State) (k : Nat) (x : MBlock) : (s.setBlock k x).copyA = s.copyA := rfl
@[simp] theorem State.setBlock_copyB (s : State) (k : Nat) (x : MBlock) : (s.setBlock k x).copyB = s.copyB := rfl
@[simp] theorem State.setBlock_recovery (s : State) (k : Nat) (x : MBlock) : (s.setBlock k x).recovery = s.recovery := rfl
@[simp] theorem State.setBlock_changes (s : State) (k : Nat) (x : MBlock) : (s.setBlock k x).changes = s.changes := rfl
@[simp] theorem State.setBlock_passed (s : State) (k : Nat) (x : MBlock) : (s.setBlock k x).passed = s.passed := rfl
@[simp] theorem State.setBlock_bmcSession (s : State) (k : Nat) (x : MBlock) : (s.setBlock k x).bmcSession = s.bmcSession := rfl
@[simp] theorem State.setBlock_bmcOpen (s : State) (k : Nat) (x : MBlock) : (s.setBlock k x).bmcOpen = s.bmcOpen := rfl
@[simp] theorem State.setBlock_sessions (s : State) (k : Nat) (x : MBlock) : (s.setBlock k x).sessions = s.sessions := rfl
@[simp] theorem State.setBlock_pcie (s : State) (k : Nat) (x : MBlock) : (s.setBlock k x).pcie = s.pcie := rfl
@[simp] theorem State.setBlock_sec (s : State) (k : Nat) (x : MBlock) : (s.setBlock k x).sec = s.sec := rfl
@[simp] theorem State.setBlock_ports (s : State) (k : Nat) (x : MBlock) : (s.setBlock k x).ports = s.ports := rfl
@[simp] theorem State.setBlock_fed (s : State) (k : Nat) (x : MBlock) : (s.setBlock k x).fed = s.fed := rfl
@[simp] theorem State.setBlock_pfLog (s : State) (k : Nat) (x : MBlock) : (s.setBlock k x).pfLog = s.pfLog := rfl
@[simp] theorem State.setBlock_bmcLog (s : State) (k : Nat) (x : MBlock) : (s.setBlock k x).bmcLog = s.bmcLog := rfl
@[simp] theorem State.setBlock_telem (s : State) (k : Nat) (x : MBlock) : (s.setBlock k x).telem = s.telem := rfl
@[simp] theorem State.setBlock_delayed (s : State) (k : Nat) (x : MBlock) : (s.setBlock k x).delayed = s.delayed := rfl
@[simp] theorem State.setBlock_host (s : State) (k : Nat) (x : MBlock) : (s.setBlock k x).host = s.host := rfl
@[simp] theorem State.setBlock_outputs (s : State) (k : Nat) (x : MBlock) : (s.setBlock k x).outputs = s.outputs := rfl

@[simp] theorem State.setBlock_core (s : State) (k : Nat) (x : MBlock) (j : Nat) : (s.setBlock k x).core j = s.core j := rfl
@[simp] theorem State.setBlock_cmeta (s : State) (k : Nat) (x : MBlock) (j : Nat) : (s.setBlock k x).cmeta j = s.cmeta j := rfl
@[simp] theorem State.setBlock_die (s : State) (k : Nat) (x : MBlock) (j : Nat) : (s.setBlock k x).die j = s.die j := rfl
@[simp] theorem State.setBlock_stack (s : State) (k : Nat) (x : MBlock) (j : Nat) : (s.setBlock k x).stack j = s.stack j := rfl
@[simp] theorem State.setBlock_parcel (s : State) (k : Nat) (x : MBlock) (j : Nat) : (s.setBlock k x).parcel j = s.parcel j := rfl
@[simp] theorem State.setBlock_block_same (s : State) (k : Nat) (x : MBlock) : (s.setBlock k x).block k = x := by
  simp only [State.block, State.setBlock, tblGet_put_same, Option.getD_some]
theorem State.setBlock_block_other (s : State) (k : Nat) (x : MBlock) (j : Nat) (h : j ≠ k) : (s.setBlock k x).block j = s.block j := by
  simp only [State.block, State.setBlock, tblGet_put_other _ _ _ _ h]
@[simp] theorem State.setBlock_port (s : State) (k : Nat) (x : MBlock) (j : Nat) : (s.setBlock k x).port j = s.port j := rfl

/-! `setPort` writes ports alone. -/

@[simp] theorem State.setPort_pending (s : State) (k : Nat) (x : Port) : (s.setPort k x).pending = s.pending := rfl
@[simp] theorem State.setPort_free (s : State) (k : Nat) (x : Port) : (s.setPort k x).free = s.free := rfl
@[simp] theorem State.setPort_time (s : State) (k : Nat) (x : Port) : (s.setPort k x).time = s.time := rfl
@[simp] theorem State.setPort_power (s : State) (k : Nat) (x : Port) : (s.setPort k x).power = s.power := rfl
@[simp] theorem State.setPort_store (s : State) (k : Nat) (x : Port) : (s.setPort k x).store = s.store := rfl
@[simp] theorem State.setPort_cores (s : State) (k : Nat) (x : Port) : (s.setPort k x).cores = s.cores := rfl
@[simp] theorem State.setPort_metas (s : State) (k : Nat) (x : Port) : (s.setPort k x).metas = s.metas := rfl
@[simp] theorem State.setPort_dies (s : State) (k : Nat) (x : Port) : (s.setPort k x).dies = s.dies := rfl
@[simp] theorem State.setPort_hs (s : State) (k : Nat) (x : Port) : (s.setPort k x).hs = s.hs := rfl
@[simp] theorem State.setPort_hbm (s : State) (k : Nat) (x : Port) : (s.setPort k x).hbm = s.hbm := rfl
@[simp] theorem State.setPort_parcels (s : State) (k : Nat) (x : Port) : (s.setPort k x).parcels = s.parcels := rfl
@[simp] theorem State.setPort_fails (s : State) (k : Nat) (x : Port) : (s.setPort k x).fails = s.fails := rfl
@[simp] theorem State.setPort_copyA (s : State) (k : Nat) (x : Port) : (s.setPort k x).copyA = s.copyA := rfl
@[simp] theorem State.setPort_copyB (s : State) (k : Nat) (x : Port) : (s.setPort k x).copyB = s.copyB := rfl
@[simp] theorem State.setPort_recovery (s : State) (k : Nat) (x : Port) : (s.setPort k x).recovery = s.recovery := rfl
@[simp] theorem State.setPort_changes (s : State) (k : Nat) (x : Port) : (s.setPort k x).changes = s.changes := rfl
@[simp] theorem State.setPort_passed (s : State) (k : Nat) (x : Port) : (s.setPort k x).passed = s.passed := rfl
@[simp] theorem State.setPort_blocks (s : State) (k : Nat) (x : Port) : (s.setPort k x).blocks = s.blocks := rfl
@[simp] theorem State.setPort_bmcSession (s : State) (k : Nat) (x : Port) : (s.setPort k x).bmcSession = s.bmcSession := rfl
@[simp] theorem State.setPort_bmcOpen (s : State) (k : Nat) (x : Port) : (s.setPort k x).bmcOpen = s.bmcOpen := rfl
@[simp] theorem State.setPort_sessions (s : State) (k : Nat) (x : Port) : (s.setPort k x).sessions = s.sessions := rfl
@[simp] theorem State.setPort_pcie (s : State) (k : Nat) (x : Port) : (s.setPort k x).pcie = s.pcie := rfl
@[simp] theorem State.setPort_sec (s : State) (k : Nat) (x : Port) : (s.setPort k x).sec = s.sec := rfl
@[simp] theorem State.setPort_fed (s : State) (k : Nat) (x : Port) : (s.setPort k x).fed = s.fed := rfl
@[simp] theorem State.setPort_pfLog (s : State) (k : Nat) (x : Port) : (s.setPort k x).pfLog = s.pfLog := rfl
@[simp] theorem State.setPort_bmcLog (s : State) (k : Nat) (x : Port) : (s.setPort k x).bmcLog = s.bmcLog := rfl
@[simp] theorem State.setPort_telem (s : State) (k : Nat) (x : Port) : (s.setPort k x).telem = s.telem := rfl
@[simp] theorem State.setPort_delayed (s : State) (k : Nat) (x : Port) : (s.setPort k x).delayed = s.delayed := rfl
@[simp] theorem State.setPort_host (s : State) (k : Nat) (x : Port) : (s.setPort k x).host = s.host := rfl
@[simp] theorem State.setPort_outputs (s : State) (k : Nat) (x : Port) : (s.setPort k x).outputs = s.outputs := rfl

@[simp] theorem State.setPort_core (s : State) (k : Nat) (x : Port) (j : Nat) : (s.setPort k x).core j = s.core j := rfl
@[simp] theorem State.setPort_cmeta (s : State) (k : Nat) (x : Port) (j : Nat) : (s.setPort k x).cmeta j = s.cmeta j := rfl
@[simp] theorem State.setPort_die (s : State) (k : Nat) (x : Port) (j : Nat) : (s.setPort k x).die j = s.die j := rfl
@[simp] theorem State.setPort_stack (s : State) (k : Nat) (x : Port) (j : Nat) : (s.setPort k x).stack j = s.stack j := rfl
@[simp] theorem State.setPort_parcel (s : State) (k : Nat) (x : Port) (j : Nat) : (s.setPort k x).parcel j = s.parcel j := rfl
@[simp] theorem State.setPort_block (s : State) (k : Nat) (x : Port) (j : Nat) : (s.setPort k x).block j = s.block j := rfl
@[simp] theorem State.setPort_port_same (s : State) (k : Nat) (x : Port) : (s.setPort k x).port k = x := by
  simp only [State.port, State.setPort, tblGet_put_same, Option.getD_some]
theorem State.setPort_port_other (s : State) (k : Nat) (x : Port) (j : Nat) (h : j ≠ k) : (s.setPort k x).port j = s.port j := by
  simp only [State.port, State.setPort, tblGet_put_other _ _ _ _ h]

/-! `atCycle` writes the cycle alone, and keeps it within the frame. -/

@[simp] theorem State.atCycle_pending (s : State) (u : Nat) : (s.atCycle u).pending = s.pending := rfl
@[simp] theorem State.atCycle_free (s : State) (u : Nat) : (s.atCycle u).free = s.free := rfl
@[simp] theorem State.atCycle_power (s : State) (u : Nat) : (s.atCycle u).power = s.power := rfl
@[simp] theorem State.atCycle_store (s : State) (u : Nat) : (s.atCycle u).store = s.store := rfl
@[simp] theorem State.atCycle_cores (s : State) (u : Nat) : (s.atCycle u).cores = s.cores := rfl
@[simp] theorem State.atCycle_metas (s : State) (u : Nat) : (s.atCycle u).metas = s.metas := rfl
@[simp] theorem State.atCycle_dies (s : State) (u : Nat) : (s.atCycle u).dies = s.dies := rfl
@[simp] theorem State.atCycle_hs (s : State) (u : Nat) : (s.atCycle u).hs = s.hs := rfl
@[simp] theorem State.atCycle_hbm (s : State) (u : Nat) : (s.atCycle u).hbm = s.hbm := rfl
@[simp] theorem State.atCycle_parcels (s : State) (u : Nat) : (s.atCycle u).parcels = s.parcels := rfl
@[simp] theorem State.atCycle_fails (s : State) (u : Nat) : (s.atCycle u).fails = s.fails := rfl
@[simp] theorem State.atCycle_copyA (s : State) (u : Nat) : (s.atCycle u).copyA = s.copyA := rfl
@[simp] theorem State.atCycle_copyB (s : State) (u : Nat) : (s.atCycle u).copyB = s.copyB := rfl
@[simp] theorem State.atCycle_recovery (s : State) (u : Nat) : (s.atCycle u).recovery = s.recovery := rfl
@[simp] theorem State.atCycle_changes (s : State) (u : Nat) : (s.atCycle u).changes = s.changes := rfl
@[simp] theorem State.atCycle_passed (s : State) (u : Nat) : (s.atCycle u).passed = s.passed := rfl
@[simp] theorem State.atCycle_blocks (s : State) (u : Nat) : (s.atCycle u).blocks = s.blocks := rfl
@[simp] theorem State.atCycle_bmcSession (s : State) (u : Nat) : (s.atCycle u).bmcSession = s.bmcSession := rfl
@[simp] theorem State.atCycle_bmcOpen (s : State) (u : Nat) : (s.atCycle u).bmcOpen = s.bmcOpen := rfl
@[simp] theorem State.atCycle_sessions (s : State) (u : Nat) : (s.atCycle u).sessions = s.sessions := rfl
@[simp] theorem State.atCycle_pcie (s : State) (u : Nat) : (s.atCycle u).pcie = s.pcie := rfl
@[simp] theorem State.atCycle_sec (s : State) (u : Nat) : (s.atCycle u).sec = s.sec := rfl
@[simp] theorem State.atCycle_ports (s : State) (u : Nat) : (s.atCycle u).ports = s.ports := rfl
@[simp] theorem State.atCycle_fed (s : State) (u : Nat) : (s.atCycle u).fed = s.fed := rfl
@[simp] theorem State.atCycle_pfLog (s : State) (u : Nat) : (s.atCycle u).pfLog = s.pfLog := rfl
@[simp] theorem State.atCycle_bmcLog (s : State) (u : Nat) : (s.atCycle u).bmcLog = s.bmcLog := rfl
@[simp] theorem State.atCycle_telem (s : State) (u : Nat) : (s.atCycle u).telem = s.telem := rfl
@[simp] theorem State.atCycle_delayed (s : State) (u : Nat) : (s.atCycle u).delayed = s.delayed := rfl
@[simp] theorem State.atCycle_host (s : State) (u : Nat) : (s.atCycle u).host = s.host := rfl
@[simp] theorem State.atCycle_outputs (s : State) (u : Nat) : (s.atCycle u).outputs = s.outputs := rfl
@[simp] theorem State.atCycle_core (s : State) (u j : Nat) : (s.atCycle u).core j = s.core j := rfl
@[simp] theorem State.atCycle_cmeta (s : State) (u j : Nat) : (s.atCycle u).cmeta j = s.cmeta j := rfl
@[simp] theorem State.atCycle_die (s : State) (u j : Nat) : (s.atCycle u).die j = s.die j := rfl
@[simp] theorem State.atCycle_stack (s : State) (u j : Nat) : (s.atCycle u).stack j = s.stack j := rfl
@[simp] theorem State.atCycle_parcel (s : State) (u j : Nat) : (s.atCycle u).parcel j = s.parcel j := rfl
@[simp] theorem State.atCycle_block (s : State) (u j : Nat) : (s.atCycle u).block j = s.block j := rfl
@[simp] theorem State.atCycle_port (s : State) (u j : Nat) : (s.atCycle u).port j = s.port j := rfl
@[simp] theorem State.atCycle_time (s : State) (u : Nat) : (s.atCycle u).time =
    { s.time with cycle := max s.time.cycle (min u (s.time.period - 1)), stamp := min u (s.time.period - 1) } := rfl

/-! `Core.setArray` writes arrays alone. -/

@[simp] theorem Core.setArray_vregs (c : Core) (k : Nat) (x : MArray) : (c.setArray k x).vregs = c.vregs := rfl
@[simp] theorem Core.setArray_mregs (c : Core) (k : Nat) (x : MArray) : (c.setArray k x).mregs = c.mregs := rfl
@[simp] theorem Core.setArray_aregs (c : Core) (k : Nat) (x : MArray) : (c.setArray k x).aregs = c.aregs := rfl
@[simp] theorem Core.setArray_rng (c : Core) (k : Nat) (x : MArray) : (c.setArray k x).rng = c.rng := rfl
@[simp] theorem Core.setArray_ops (c : Core) (k : Nat) (x : MArray) : (c.setArray k x).ops = c.ops := rfl
@[simp] theorem Core.setArray_due (c : Core) (k : Nat) (x : MArray) : (c.setArray k x).due = c.due := rfl
@[simp] theorem Core.setArray_sp (c : Core) (k : Nat) (x : MArray) : (c.setArray k x).sp = c.sp := rfl
@[simp] theorem Core.setArray_quarters (c : Core) (k : Nat) (x : MArray) : (c.setArray k x).quarters = c.quarters := rfl
@[simp] theorem Core.setArray_slots (c : Core) (k : Nat) (x : MArray) : (c.setArray k x).slots = c.slots := rfl
@[simp] theorem Core.setArray_pairs (c : Core) (k : Nat) (x : MArray) : (c.setArray k x).pairs = c.pairs := rfl
@[simp] theorem Core.setArray_seq (c : Core) (k : Nat) (x : MArray) : (c.setArray k x).seq = c.seq := rfl
@[simp] theorem Core.setArray_spCorrected (c : Core) (k : Nat) (x : MArray) : (c.setArray k x).spCorrected = c.spCorrected := rfl
@[simp] theorem Core.setArray_usable (c : Core) (k : Nat) (x : MArray) : (c.setArray k x).usable = c.usable := rfl
@[simp] theorem Core.setArray_lastLanded (c : Core) (k : Nat) (x : MArray) : (c.setArray k x).lastLanded = c.lastLanded := rfl
@[simp] theorem Core.setArray_gone (c : Core) (k : Nat) (x : MArray) : (c.setArray k x).gone = c.gone := rfl
@[simp] theorem Core.setArray_accepted (c : Core) (k : Nat) (x : MArray) : (c.setArray k x).accepted = c.accepted := rfl
@[simp] theorem Core.setArray_upsets (c : Core) (k : Nat) (x : MArray) : (c.setArray k x).upsets = c.upsets := rfl
@[simp] theorem Core.setArray_array_same (c : Core) (k : Nat) (x : MArray) : (c.setArray k x).array k = x := by
  simp only [Core.array, Core.setArray, tblGet_put_same, Option.getD_some]
theorem Core.setArray_array_other (c : Core) (k j : Nat) (x : MArray) (h : j ≠ k) : (c.setArray k x).array j = c.array j := by
  simp only [Core.array, Core.setArray, tblGet_put_other _ _ _ _ h]

/-! `Core.setSlot` writes slots alone. -/

@[simp] theorem Core.setSlot_vregs (c : Core) (k : Nat) (x : Slot) : (c.setSlot k x).vregs = c.vregs := rfl
@[simp] theorem Core.setSlot_mregs (c : Core) (k : Nat) (x : Slot) : (c.setSlot k x).mregs = c.mregs := rfl
@[simp] theorem Core.setSlot_aregs (c : Core) (k : Nat) (x : Slot) : (c.setSlot k x).aregs = c.aregs := rfl
@[simp] theorem Core.setSlot_rng (c : Core) (k : Nat) (x : Slot) : (c.setSlot k x).rng = c.rng := rfl
@[simp] theorem Core.setSlot_arrays (c : Core) (k : Nat) (x : Slot) : (c.setSlot k x).arrays = c.arrays := rfl
@[simp] theorem Core.setSlot_ops (c : Core) (k : Nat) (x : Slot) : (c.setSlot k x).ops = c.ops := rfl
@[simp] theorem Core.setSlot_due (c : Core) (k : Nat) (x : Slot) : (c.setSlot k x).due = c.due := rfl
@[simp] theorem Core.setSlot_sp (c : Core) (k : Nat) (x : Slot) : (c.setSlot k x).sp = c.sp := rfl
@[simp] theorem Core.setSlot_quarters (c : Core) (k : Nat) (x : Slot) : (c.setSlot k x).quarters = c.quarters := rfl
@[simp] theorem Core.setSlot_pairs (c : Core) (k : Nat) (x : Slot) : (c.setSlot k x).pairs = c.pairs := rfl
@[simp] theorem Core.setSlot_seq (c : Core) (k : Nat) (x : Slot) : (c.setSlot k x).seq = c.seq := rfl
@[simp] theorem Core.setSlot_spCorrected (c : Core) (k : Nat) (x : Slot) : (c.setSlot k x).spCorrected = c.spCorrected := rfl
@[simp] theorem Core.setSlot_usable (c : Core) (k : Nat) (x : Slot) : (c.setSlot k x).usable = c.usable := rfl
@[simp] theorem Core.setSlot_lastLanded (c : Core) (k : Nat) (x : Slot) : (c.setSlot k x).lastLanded = c.lastLanded := rfl
@[simp] theorem Core.setSlot_gone (c : Core) (k : Nat) (x : Slot) : (c.setSlot k x).gone = c.gone := rfl
@[simp] theorem Core.setSlot_accepted (c : Core) (k : Nat) (x : Slot) : (c.setSlot k x).accepted = c.accepted := rfl
@[simp] theorem Core.setSlot_upsets (c : Core) (k : Nat) (x : Slot) : (c.setSlot k x).upsets = c.upsets := rfl
@[simp] theorem Core.setSlot_slot_same (c : Core) (k : Nat) (x : Slot) : (c.setSlot k x).slot k = x := by
  simp only [Core.slot, Core.setSlot, tblGet_put_same, Option.getD_some]
theorem Core.setSlot_slot_other (c : Core) (k j : Nat) (x : Slot) (h : j ≠ k) : (c.setSlot k x).slot j = c.slot j := by
  simp only [Core.slot, Core.setSlot, tblGet_put_other _ _ _ _ h]

end Sys2Proof.Machine
end

