-- ==== Sys2Proof/Laws/Mail.lean ====
section
/-! SUPPORT. What signalling and replying can do: an interrupt changes a block's status bits and what waits or goes
outside; a reply also its block's reply area and counts, and host memory; a record the logs. And what becomes of a request. -/

namespace Sys2Proof.Machine

/-- Nothing differs but the interrupt status and shown state of the mailbox blocks, the pending and shown bits of the
interface, what waits for a frame head and what has gone outside. -/
structure SignalsOnly (s t : State) : Prop where
  rest : t = { s with
    blocks := t.blocks, outputs := t.outputs, delayed := t.delayed
    pcie := { s.pcie with msixPending := t.pcie.msixPending, statusShown := t.pcie.statusShown } }
  block : ∀ n, t.block n = { s.block n with irqStatus := (t.block n).irqStatus, stateShown := (t.block n).stateShown }

theorem SignalsOnly.refl (s : State) : SignalsOnly s s := ⟨rfl, fun _ => rfl⟩

theorem SignalsOnly.trans {s t u : State} (a : SignalsOnly s t) (b : SignalsOnly t u) : SignalsOnly s u := by
  refine ⟨?_, fun n => ?_⟩
  · have h := b.rest; have g := a.rest
    generalize u.blocks = x at *; generalize u.outputs = y at *; generalize u.delayed = z at *
    generalize u.pcie.msixPending = v at *; generalize u.pcie.statusShown = w at *
    rw [g] at h; exact h
  · have h := b.block n; have g := a.block n
    generalize (u.block n).irqStatus = x at *; generalize (u.block n).stateShown = y at *
    rw [g] at h; exact h

/-- A fold over operations that only signal only signals. -/
theorem SignalsOnly.foldl {α : Type} {f : State → α → State} (h : ∀ s a, SignalsOnly s (f s a)) (l : List α) (s : State) :
    SignalsOnly s (l.foldl f s) := by
  induction l generalizing s with
  | nil => exact .refl s
  | cons a r ih => exact (h s a).trans (ih _)

/-- What a `SignalsOnly` leaves of a state. -/
theorem SignalsOnly.eqs {s t : State} (h : SignalsOnly s t) :
    t.pending = s.pending ∧ t.free = s.free ∧ t.time = s.time ∧ t.power = s.power ∧ t.store = s.store ∧ t.cores = s.cores ∧
      t.metas = s.metas ∧ t.dies = s.dies ∧ t.hs = s.hs ∧ t.hbm = s.hbm ∧ t.parcels = s.parcels ∧ t.copyA = s.copyA ∧
      t.copyB = s.copyB ∧ t.recovery = s.recovery ∧ t.changes = s.changes ∧ t.bmcSession = s.bmcSession ∧
      t.bmcOpen = s.bmcOpen ∧ t.sessions = s.sessions ∧ t.sec = s.sec ∧ t.ports = s.ports ∧ t.fed = s.fed ∧
      t.pfLog = s.pfLog ∧ t.bmcLog = s.bmcLog ∧ t.telem = s.telem ∧ t.host = s.host := by
  have g := h.rest
  generalize t.blocks = x at g; generalize t.outputs = y at g; generalize t.delayed = z at g
  generalize t.pcie = w at g
  subst g
  exact ⟨rfl, rfl, rfl, rfl, rfl, rfl, rfl, rfl, rfl, rfl, rfl, rfl, rfl, rfl, rfl, rfl, rfl, rfl, rfl, rfl, rfl, rfl, rfl, rfl, rfl⟩

theorem msix_signals (fn v : Nat) (s : State) : SignalsOnly s (msix fn v s) := by
  unfold msix
  dsimp only
  split <;> exact ⟨rfl, fun _ => rfl⟩

theorem blockMsix_signals (n k : Nat) (s : State) : SignalsOnly s (blockMsix n k s) := by
  unfold blockMsix
  dsimp only
  split <;> exact msix_signals _ _ _

theorem setBlock_signals (n : Nat) (s : State) (i j : Nat) :
    SignalsOnly s (s.setBlock n { s.block n with irqStatus := i, stateShown := j }) := by
  refine ⟨rfl, fun m => ?_⟩
  by_cases h : m = n
  · subst h; rw [State.setBlock_block_same]
  · rw [State.setBlock_block_other _ _ _ _ h]

/-- R491: setting interrupt bits only signals. -/
theorem setIrqNow_signals (n b : Nat) (s : State) : SignalsOnly s (setIrqNow n b s) := by
  unfold setIrqNow
  dsimp only
  exact (setBlock_signals n s _ (s.block n).stateShown).trans
    (SignalsOnly.foldl (fun s k => blockMsix_signals n k s) _ _)

theorem setIrq_signals (n b : Nat) (s : State) : SignalsOnly s (setIrq n b s) := by
  unfold setIrq
  split
  · split
    · exact ⟨rfl, fun _ => rfl⟩
    · exact setIrqNow_signals n b s
  · exact setIrqNow_signals n b s

theorem refreshBlock_signals (s : State) (n : Nat) : SignalsOnly s (refreshBlock s n) := by
  unfold refreshBlock
  dsimp only
  split
  · exact .refl s
  · exact (setBlock_signals n s (s.block n).irqStatus (bits (mbxStatus s n) 11 5)).trans (setIrq_signals _ _ _)

/-- R503: looking at the status registers only signals. -/
theorem refresh_signals (s : State) : SignalsOnly s (refresh s) := by
  unfold refresh
  dsimp only
  have h := SignalsOnly.foldl refreshBlock_signals
    (if s.recovery || s.power.drainOn || s.power.holdOn then List.range 64 else s.blocks.map (·.1)) s
  generalize List.foldl refreshBlock s _ = u at h ⊢
  by_cases c : (u.pcie.statusShown == globalStatus u % 32768) = true
  · rw [if_pos c]; exact h
  · rw [if_neg c]
    refine h.trans (SignalsOnly.trans ?_ (msix_signals _ _ _))
    exact ⟨rfl, fun _ => rfl⟩

/-- What a reply may change: the blocks, host memory, the counts of what waits and goes outside. -/
structure RepliesOnly (s t : State) : Prop where
  rest : t = { s with
    blocks := t.blocks, outputs := t.outputs, delayed := t.delayed, host := t.host, bmcOpen := t.bmcOpen
    pcie := { s.pcie with msixPending := t.pcie.msixPending, statusShown := t.pcie.statusShown } }
  session : ∀ n, (t.block n).session = (s.block n).session
  wf : memWf s.host.mem = true → memWf t.host.mem = true

theorem SignalsOnly.replies {s t : State} (h : SignalsOnly s t) : RepliesOnly s t := by
  refine ⟨?_, fun n => ?_, fun w => ?_⟩
  · have g := h.rest
    have e := h.eqs
    rw [e.2.2.2.2.2.2.2.2.2.2.2.2.2.2.2.2.2.2.2.2.2.2.2.2, e.2.2.2.2.2.2.2.2.2.2.2.2.2.2.2.2.1]
    exact g
  · rw [h.block n]
  · rw [h.eqs.2.2.2.2.2.2.2.2.2.2.2.2.2.2.2.2.2.2.2.2.2.2.2.2]; exact w

theorem RepliesOnly.refl (s : State) : RepliesOnly s s := (SignalsOnly.refl s).replies

theorem RepliesOnly.trans {s t u : State} (a : RepliesOnly s t) (b : RepliesOnly t u) : RepliesOnly s u := by
  refine ⟨?_, fun n => (b.session n).trans (a.session n), fun w => b.wf (a.wf w)⟩
  have h := b.rest; have g := a.rest
  generalize u.blocks = x at *; generalize u.outputs = y at *; generalize u.delayed = z at *
  generalize u.pcie.msixPending = v at *; generalize u.pcie.statusShown = w at *
  generalize u.host = k at *; generalize u.bmcOpen = l at *
  rw [g] at h; exact h

theorem setBlock_replies (n : Nat) (s : State) (b : MBlock) (h : b.session = (s.block n).session) :
    RepliesOnly s (s.setBlock n b) := by
  refine ⟨rfl, fun m => ?_, fun w => w⟩
  by_cases hm : m = n
  · subst hm; rw [State.setBlock_block_same]; exact h
  · rw [State.setBlock_block_other _ _ _ _ hm]

theorem hostWrite_replies {s t : State} {k a : Nat} {bs : List Byte} (h : hostWrite s k a bs = some t) : RepliesOnly s t := by
  obtain ⟨l, -, e, w⟩ := hostWrite_some h
  refine ⟨?_, fun n => ?_, w⟩
  · rw [e]
  · rw [e]; rfl

theorem envAdvance_session (k : Nat) (b : MBlock) : (envAdvance k b).session = b.session := by
  induction k generalizing b with
  | zero => rfl
  | succ k ih => unfold envAdvance; split <;> simp [ih]

/-- R474, R475, R465: delivering a reply. -/
theorem deliver_replies (tk : Ticket) (env : List Byte) (s : State) : RepliesOnly s (deliver tk env s) := by
  unfold deliver
  split
  · exact ⟨rfl, fun _ => rfl, fun w => w⟩
  · dsimp only
    split
    · refine RepliesOnly.trans ?_ (setIrqNow_signals _ _ _).replies
      exact setBlock_replies _ _ _ rfl
    · split
      · refine RepliesOnly.trans ?_ (setIrqNow_signals _ _ _).replies
        exact setBlock_replies _ _ _ rfl
      · rename_i h
        have hb := hostWrite_replies h
        refine hb.trans (RepliesOnly.trans (setBlock_replies _ _ _ ?_) (setIrqNow_signals _ _ _).replies)
        rw [envAdvance_session]; exact (hb.session _).symm

/-- R471 to R473: a reply. -/
theorem replyNow_replies (tk : Ticket) (st : RStatus) (f : Bool) (b : List Byte) (s : State) :
    RepliesOnly s (replyNow tk st f b s) := by
  unfold replyNow
  dsimp only
  repeat' split
  all_goals first
    | exact deliver_replies _ _ _
    | exact (hostWrite_replies ‹_›).trans (deliver_replies _ _ _)

/-- R460, R468, R471: what a reply may change. -/
theorem replyWith_replies (tk : Ticket) (st : RStatus) (f : Bool) (b : List Byte) (s : State) :
    RepliesOnly s (replyWith tk st f b s) := by
  unfold replyWith dropReply
  repeat' split
  all_goals first
    | exact replyNow_replies _ _ _ _ _
    | exact .refl s
    | exact setBlock_replies _ _ _ rfl
    | exact ⟨rfl, fun _ => rfl, fun w => w⟩

theorem reply_replies (tk : Ticket) (st : RStatus) (b : List Byte) (s : State) : RepliesOnly s (reply tk st b s) :=
  replyWith_replies _ _ _ _ _

/-- Taking a request changes its block, or the count of the board management controller's requests. -/
theorem taken_replies (r : ZReq) (s : State) : RepliesOnly s (taken r s) := by
  unfold taken
  split
  · exact ⟨rfl, fun _ => rfl, fun w => w⟩
  · split <;> exact setBlock_replies _ _ _ rfl

@[simp] theorem taken_parcels (r : ZReq) (s : State) : (taken r s).parcels = s.parcels := by unfold taken; split <;> rfl

@[simp] theorem taken_parcel (r : ZReq) (s : State) (p : Nat) : (taken r s).parcel p = s.parcel p := by
  simp only [State.parcel, taken_parcels]

@[simp] theorem taken_mayPerform (r : ZReq) (s : State) (p t : Nat) : mayPerform (taken r s) p t = mayPerform s p t := by
  simp only [mayPerform, taken_parcel]

/-- A request is the row's: its opcode, its form where it has one, and it can be taken. -/
def rowFits (op : Nat) (form : Option Nat) (r : ZReq) (s : State) : Prop :=
  (le r.env 4 2 == op && (form.isNone || (formOf r s).isNone || formOf r s == form)) = true ∧ served r s = true

/-- R480: a row's request that passes its checks and is not held is performed: the command's function runs on the state
that has taken the request. -/
theorem zRow_performs {op : Nat} {form : Option Nat} {f : ZDo} {r : ZReq} {s : State} {z : ZSpec} {fm p t : Nat} {b : List Byte}
    (h : rowFits op form r s) (hc : zCheck r s = .ok z fm p t b)
    (hh : z.held = true → mayPerform s p t = true ∧ ((s.parcel p).ten t).held = []) :
    zRow op form f r s = .next (refresh (f (ticketOf r s) p t b (taken r s))) := by
  unfold zRow zRun
  simp only [h.1, h.2, Bool.and_self, if_true, fin, hc, taken_mayPerform, taken_parcel]
  split
  · rename_i hz
    simp at hz
    have := hh hz.1
    simp_all
  · rfl

/-- R477, R481: a refusal at a check is a reply of that status with an empty payload, but for a HELLO that is refused with
BAD_BASELINE. -/
theorem zRefuse_eq (tk : Ticket) (st : RStatus) (s : State) (h : tk.op ≠ 1 ∨ st ≠ .badBaseline) :
    zRefuse tk st s = reply tk st [] s := by
  unfold zRefuse
  rw [if_neg]
  · rfl
  · simp only [Bool.and_eq_true, beq_iff_eq, not_and]
    exact fun a b => h.elim (fun g => g a) (fun g => g b)

/-- R480, R481: a row's request that a check refuses is answered with that status. -/
theorem zRow_refuses {op : Nat} {form : Option Nat} {f : ZDo} {r : ZReq} {s : State} {st : RStatus}
    (h : rowFits op form r s) (hc : zCheck r s = .refused st) :
    zRow op form f r s = .next (refresh (zRefuse (ticketOf r s) st (taken r s))) := by
  unfold zRow zRun
  simp only [h.1, h.2, Bool.and_self, if_true, fin, hc]

/-- A request of another opcode or form, or that cannot be taken, changes nothing. -/
theorem zRow_ignores {op : Nat} {form : Option Nat} {f : ZDo} {r : ZReq} {s : State} (h : ¬ rowFits op form r s) :
    zRow op form f r s = .next s := by
  unfold zRow
  unfold rowFits at h
  rw [if_neg]
  simpa [Bool.and_eq_true] using h

end Sys2Proof.Machine
end

