-- ==== Sys2Proof/Laws/Events.lean ====
section
/-! SUPPORT. What a record of an event can do; the canonical form of the memories of a state under its updates; and what the
slots of a bundle come to. -/

namespace Sys2Proof.Machine

/-- Nothing differs but the logs, the parcels' tenancies (whose logs they hold), and what `SignalsOnly` names. -/
def RecordsOnly (s t : State) : Prop :=
  t = { s with
    pfLog := t.pfLog, bmcLog := t.bmcLog, parcels := t.parcels, blocks := t.blocks, outputs := t.outputs, delayed := t.delayed
    pcie := { s.pcie with msixPending := t.pcie.msixPending, statusShown := t.pcie.statusShown } }

theorem RecordsOnly.refl (s : State) : RecordsOnly s s := rfl

theorem RecordsOnly.trans {s t u : State} (a : RecordsOnly s t) (b : RecordsOnly t u) : RecordsOnly s u := by
  unfold RecordsOnly at *
  generalize u.blocks = x at *; generalize u.outputs = y at *; generalize u.delayed = z at *
  generalize u.pcie.msixPending = v at *; generalize u.pcie.statusShown = w at *
  generalize u.pfLog = k at *; generalize u.bmcLog = l at *; generalize u.parcels = m at *
  rw [a] at b; exact b

theorem SignalsOnly.records {s t : State} (h : SignalsOnly s t) : RecordsOnly s t := by
  have g := h.rest
  have e := h.eqs
  unfold RecordsOnly
  rw [e.2.2.2.2.2.2.2.2.2.2.1, e.2.2.2.2.2.2.2.2.2.2.2.2.2.2.2.2.2.2.2.2.2.1, e.2.2.2.2.2.2.2.2.2.2.2.2.2.2.2.2.2.2.2.2.2.2.1]
  exact g

theorem RecordsOnly.foldl {α : Type} {f : State → α → State} (h : ∀ s a, RecordsOnly s (f s a)) (l : List α) (s : State) :
    RecordsOnly s (l.foldl f s) := by
  induction l generalizing s with
  | nil => exact .refl s
  | cons a r ih => exact (h s a).trans (ih _)

theorem logPf_records (e : Event) (s : State) : RecordsOnly s (logPf e s) := by
  unfold logPf
  dsimp only
  refine RecordsOnly.trans ?_ (setIrq_signals _ _ _).records
  split
  · exact RecordsOnly.trans (t := { s with pfLog := logAppend 4096 (operatorCopy s e) s.pfLog }) rfl
      (msix_signals _ _ _).records
  · rfl

theorem logTen_records (p t : Nat) (e : Event) (s : State) : RecordsOnly s (logTen p t e s) := by
  unfold logTen
  dsimp only
  have h : RecordsOnly s (s.modTen p t (fun x => { x with log := logAppend 512 { e with cycle := 0, flags := 1 } x.log })) := rfl
  split
  · exact h
  · exact h.trans (setIrq_signals _ _ _).records

/-- R553: what a record may change. -/
theorem recordNow_records (kind p t seq len : Nat) (a b : List Byte) (s : State) :
    RecordsOnly s (recordNow kind p t seq len a b s) := by
  have h := logPf_records ⟨s.time.postmark, s.time.stamp, kind, p, t, len, 0, seq, a⟩ s
  have g (x : State) (l : EvLog) : RecordsOnly x { x with bmcLog := l } := rfl
  unfold recordNow
  dsimp only
  repeat' split
  all_goals first
    | exact h
    | exact h.trans (g _ _)
    | exact (h.trans (g _ _)).trans (RecordsOnly.foldl (fun s k => logTen_records p k _ s) _ _)

/-- R556: what the SAT events of logs may change. -/
theorem satLogs_records (ps : List Nat) (n : Nat) (old s : State) : RecordsOnly s (satLogs ps n old s) := by
  induction n generalizing old s with
  | zero => exact .refl s
  | succ n ih =>
    unfold satLogs
    dsimp only
    split
    · exact .refl s
    · exact (RecordsOnly.foldl (fun s x => recordNow_records _ _ _ _ _ _ _ s) _ _).trans (ih _ _)

/-- R553, R556: what a record with its SAT events may change. -/
theorem recordP_records (kind p t seq len : Nat) (a b : List Byte) (s : State) :
    RecordsOnly s (recordP kind p t seq len a b s) := by
  exact (recordNow_records kind p t seq len a b s).trans (satLogs_records _ _ _ _)

/-- R553, R556: what a record that concerns parcels may change. -/
theorem recordShared_records (kind len : Nat) (ps : List Nat) (a : List Byte) (b : Nat → List Byte) (s : State) :
    RecordsOnly s (recordShared kind len ps a b s) := by
  refine ((recordNow_records kind 0xFF 0xFF 0xFFFFFFFF len a a s).trans ?_).trans (satLogs_records _ _ _ _)
  exact RecordsOnly.foldl (fun u p => RecordsOnly.foldl (fun u t => logTen_records p t _ u) _ u) _ _

theorem recordM_records (kind len : Nat) (a : List Byte) (s : State) : RecordsOnly s (recordM kind len a s) :=
  recordP_records _ _ _ _ _ _ _ _

/-- What a record leaves of a state. -/
theorem RecordsOnly.eqs {s t : State} (h : RecordsOnly s t) :
    t.pending = s.pending ∧ t.free = s.free ∧ t.time = s.time ∧ t.power = s.power ∧ t.store = s.store ∧ t.cores = s.cores ∧
      t.metas = s.metas ∧ t.dies = s.dies ∧ t.hs = s.hs ∧ t.hbm = s.hbm ∧ t.copyA = s.copyA ∧ t.copyB = s.copyB ∧
      t.recovery = s.recovery ∧ t.changes = s.changes ∧ t.fails = s.fails ∧ t.bmcSession = s.bmcSession ∧ t.sessions = s.sessions ∧
      t.sec = s.sec ∧ t.ports = s.ports ∧ t.fed = s.fed ∧ t.telem = s.telem ∧ t.host = s.host := by
  unfold RecordsOnly at h
  generalize t.blocks = x at h; generalize t.outputs = y at h; generalize t.delayed = z at h
  generalize t.pcie = w at h; generalize t.pfLog = k at h; generalize t.bmcLog = l at h; generalize t.parcels = m at h
  subst h
  exact ⟨rfl, rfl, rfl, rfl, rfl, rfl, rfl, rfl, rfl, rfl, rfl, rfl, rfl, rfl, rfl, rfl, rfl, rfl, rfl, rfl, rfl, rfl⟩

/-- R399: a cadastre change is a record, at most, and the two stored copies. -/
theorem cadastreWrite_records (img : List (Nat × List Byte)) (s : State) :
    RecordsOnly { s with copyA := (cadastreWrite img s).copyA, copyB := (cadastreWrite img s).copyB } (cadastreWrite img s) := by
  have fix (good : Bool) (k : Nat) (x : State) :
      RecordsOnly x (if good then x else recordM evCadastre 2 (pay [(0, 1), (k, 1)]) x) := by
    split
    · exact .refl x
    · exact recordM_records _ _ _ _
  have h := (fix s.copyA.good 0 s).trans (fix s.copyB.good 1 _)
  unfold RecordsOnly at h ⊢
  unfold cadastreWrite
  dsimp only
  rw [h]

/-! The canonical form of the memories of a state. -/

theorem memsWf_iff {s : State} : memsWf s = true ↔ memWf s.hbm.mem = true ∧ memWf s.host.mem = true ∧
    (∀ c ∈ s.cores, memWf c.2.sp = true) ∧ ∀ d ∈ s.dies, memWf d.2.store = true := by
  simp [memsWf, and_assoc]

/-- What reads of a state with the same memories say of the canonical form. -/
theorem memsWf_of_eq {s t : State} (h : memsWf s = true) (a : t.hbm = s.hbm) (b : t.host = s.host) (c : t.cores = s.cores)
    (d : t.dies = s.dies) : memsWf t = true := by
  rw [memsWf_iff] at *
  rw [a, b, c, d]; exact h

theorem SignalsOnly.wf {s t : State} (g : SignalsOnly s t) (h : memsWf s = true) : memsWf t = true :=
  memsWf_of_eq h (by have := g.eqs; tauto) (by have := g.eqs; tauto) (by have := g.eqs; tauto) (by have := g.eqs; tauto)

theorem RecordsOnly.wf {s t : State} (g : RecordsOnly s t) (h : memsWf s = true) : memsWf t = true :=
  memsWf_of_eq h (by have := g.eqs; tauto) (by have := g.eqs; tauto) (by have := g.eqs; tauto) (by have := g.eqs; tauto)

/-- A core reads in canonical form. -/
theorem memsWf_core {s : State} (h : memsWf s = true) (k : Nat) : memWf (s.core k).sp = true := by
  have g := (memsWf_iff.1 h).2.2.1
  unfold State.core tblGet
  cases e : s.cores.find? (fun e => e.1 == k) with
  | none => rfl
  | some c => exact g c (List.mem_of_find?_eq_some e)

/-- A die reads in canonical form. -/
theorem memsWf_die {s : State} (h : memsWf s = true) (d : Nat) : memWf (s.die d).store = true := by
  have g := (memsWf_iff.1 h).2.2.2
  unfold State.die tblGet
  cases e : s.dies.find? (fun e => e.1 == d) with
  | none => rfl
  | some c => exact g c (List.mem_of_find?_eq_some e)

/-- Setting a core whose scratchpad is in canonical form. -/
theorem memsWf_setCore {s : State} (h : memsWf s = true) {k : Nat} {c : Core} (hc : memWf c.sp = true) :
    memsWf (s.setCore k c) = true := by
  rw [memsWf_iff] at *
  refine ⟨h.1, h.2.1, fun e he => ?_, h.2.2.2⟩
  simp only [State.setCore, tblPut, List.mem_cons, List.mem_filter] at he
  rcases he with rfl | he
  · exact hc
  · exact h.2.2.1 e he.1

/-- Setting a die whose store is in canonical form. -/
theorem memsWf_setDie {s : State} (h : memsWf s = true) {k : Nat} {c : Die} (hc : memWf c.store = true) :
    memsWf (s.setDie k c) = true := by
  rw [memsWf_iff] at *
  refine ⟨h.1, h.2.1, h.2.2.1, fun e he => ?_⟩
  simp only [State.setDie, tblPut, List.mem_cons, List.mem_filter] at he
  rcases he with rfl | he
  · exact hc
  · exact h.2.2.2 e he.1

/-! What an operation of a bundle comes to. -/

/-- A command that carries no error leaves its core as it is struck. -/
@[simp] theorem strikeCore_quiet {e : CoreEnv} (s : State) (h : e.upsets = []) : strikeCore e s = s := by
  unfold strikeCore; rw [h]; rfl

/-- R560: a core that issues has not been stopped in this cycle. -/
theorem reviveSlot_issuing {k : Nat} {s : State} (h : issuing (s.core k) = true) : reviveSlot k s = none := by
  have g : ((s.core k).seq.st == SeqState.idle) = false := by
    revert h; unfold issuing; cases (s.core k).seq.st <;> simp
  unfold reviveSlot reviveAt
  split
  · split
    · simp [g]
    · rfl
  · rfl

/-- R560: a row of a core that has not been stopped in this cycle runs as it is. -/
theorem slotRow_plain {e : CoreEnv} {row : State → Host.Outcome State Fault Refusal} {s : State} (hu : e.upsets = [])
    (h : reviveSlot e.core s = none) : slotRow e row s = row s := by
  unfold slotRow; rw [h, strikeCore_quiet s hu]

/-- A core that does not issue, and was not stopped in this cycle, takes nothing. -/
theorem slotCmd_ignored {e : CoreEnv} {op : Option SlotOp} {s : State} (hu : e.upsets = [])
    (h : issuing (s.core e.core) = false) (hr : reviveSlot e.core s = none) : slotCmd e op s = .next s := by
  unfold slotCmd; rw [slotRow_plain hu hr]; unfold slotRun; simp [h]

/-- A slot without an operation, of a bundle that reads sound. -/
theorem slotCmd_empty {e : CoreEnv} {s : State} (hu : e.upsets = []) (h : issuing (s.core e.core) = true)
    (hr : bundleBad (s.core e.core) (s.core e.core).seq.nextIdx = none) :
    slotCmd e none s = .next (s.atCycle (s.core e.core).frameCycle) := by
  unfold slotCmd; rw [slotRow_plain hu (reviveSlot_issuing h)]; unfold slotRun; simp [h, hr]

/-- R139 to R141: an operation that its core takes joins the bundle and is performed. -/
theorem slotCmd_performs {e : CoreEnv} {op : SlotOp} {s : State} (hu : e.upsets = []) (h : issuing (s.core e.core) = true)
    (hr : bundleBad (s.core e.core) (s.core e.core).seq.nextIdx = none)
    (hb : (s.core e.core).seq.bundle.any (fun x => slotNo x == slotNo op) = false) :
    slotCmd e (some op) s = .next (issueOp e.core op
      ((s.atCycle (s.core e.core).frameCycle).modCore e.core (fun c =>
        { c with seq := { c.seq with bundle := c.seq.bundle ++ [op] } }))) := by
  unfold slotCmd
  rw [slotRow_plain hu (reviveSlot_issuing h)]
  unfold slotRun
  simp only [h, hr, hb]
  simp

/-- R137, R227, R591: an operation whose operands read sound performs. -/
theorem issueOp_sound {k : Nat} {op : SlotOp} {s : State} (h : opFault (s.core k) op = none) :
    issueOp k op s = performOp k op s := by
  unfold issueOp; rw [h]

/-- R226: a read of a scratchpad that no error has struck finds none. -/
theorem spCheck_clean {k : Nat} {read : Nat → Bool} {s : State} (h : (s.core k).upsets = []) :
    spCheck k read s = (s, none) := by
  unfold spCheck; simp [Core.spFixed, Core.spBad, h]

/-- R226: counting corrected reads is that, and perhaps a record. -/
theorem countSp_records (k n : Nat) (s : State) : RecordsOnly
    (s.setCore k { s.core k with spCorrected := add48 (s.core k).spCorrected n }) (countSp k n s) := by
  unfold countSp
  dsimp only
  split
  · exact recordShared_records _ _ _ _ _ _
  · rfl

end Sys2Proof.Machine
end

