-- ==== Sys2Proof/WellFormed.lean ====
section
/-! DEFINITION. Well-formed commands: the operands that name a unit name one that the module has, and the fields of
an instruction fit the fields of its encoding (R148, R156, R157, R161, R200, R202, R210). -/

namespace Sys2Proof

/-- R30: a physical core index is 0 to 223. -/
def coreOk (c : Nat) : Bool := decide (c < 224)

/-- R96, R98, R107, R149, R165, R185, R216: an error strikes a part that the core has. -/
def Upset.wf : Upset → Bool
  | .reg _ a r c => decide (a < 12) && decide (r < 32) && decide (c < 32)
  | .scale _ a h c => decide (a < 12) && decide (h < 2) && decide (c < 32)
  | .acc a k => decide (a < 12) && decide (k < 2048)
  | .vec r b => decide (r < 64) && decide (b < 512)
  | .mask r b => decide (r < 8) && decide (b < 128)
  | .addr r b => decide (1 ≤ r) && decide (r < 32) && decide (b < 4)
  | .word w _ => decide (w < 1536 * 1024)
  | .bundle _ i => decide (i < 16384)
  | .entry _ i => decide (i < 1024)

/-- A core and what has struck it. -/
def CoreEnv.wf (e : CoreEnv) : Bool := coreOk e.core && e.upsets.all (·.wf)

/-- R156: the fields of a matrix operand instruction. -/
def MatF.wf (f : MatF) : Bool :=
  decide (f.array < 12) && decide (f.qset < 16) && decide (f.fmt < 6) && decide (f.bank < 2) && decide (f.row < 32)
    && decide (f.nvec < 64) && decide (f.vreg < 32) && decide (f.sreg < 32) && decide (f.qreg < 32)
    && decide (f.rmode < 3)

/-- R200: the fields of a vector instruction. -/
def VecF.wf (f : VecF) : Bool :=
  decide (f.width < 2) && decide (f.mreg < 8) && decide (f.vd < 64) && decide (f.va < 64) && decide (f.vb < 64)
    && decide (f.vc < 64) && decide (f.array < 12) && decide (f.bank < 2) && decide (f.rq < 8) && decide (f.cond < 6)
    && decide (f.gs < 2) && decide (f.sf < 9) && decide (f.tf < 9) && decide (f.part < 8) && decide (f.spos < 128)
    && decide (f.n ≤ 256)

/-- R210, R211: the fields of a vector load or store. -/
def LdF.wf (f : LdF) : Bool :=
  decide (f.vr < 64) && decide (f.areg < 32) && decide (f.rmode < 3) && decide (f.size < 4)
    && decide (f.part < (if f.size == 0 then 1 else if f.size == 1 then 2 else if f.size == 2 then 8 else 16))
    && (decide (f.size < 2) || f.rmode == 0)

/-- R161: the fields of an arm. -/
def ArmF.wf (f : ArmF) : Bool := decide (f.slot < 64) && decide (f.entry < 1024) && decide (f.breg < 32)

/-- R142, R148: the fields of `ct.step`. -/
def StepF.wf (f : StepF) : Bool :=
  decide (1 ≤ f.delta) && decide (f.delta < 65536) && decide (f.repeat_ < 65536) && decide (f.incaDst < 32)
    && decide (f.incaSrc < 32) && decide (f.incbDst < 32) && decide (f.incbSrc < 32)
    && (f.incaDst == 0 || f.incaDst != f.incbDst)

/-- R142: a DELTA. -/
def deltaOk (d : Nat) : Bool := decide (1 ≤ d) && decide (d < 65536)

/-- A ZMI request: one of the 64 blocks or the board management controller, and at least a header. -/
def ZReq.wf (r : ZReq) : Bool := decide (r.block ≤ 64) && decide (64 ≤ r.env.length)

/-- An SPDM endpoint: one of the 64 functions, or the management controller's. -/
def SpdmReq.wf (r : SpdmReq) : Bool := decide (r.endpoint ≤ 64)

/-- Well-formed commands. -/
def Instr.wf : Instr → Bool
  | .segmentStart p _ _ => decide (p < 48)
  | .sequencerFillStart c => coreOk c
  | .sequencerFillComplete c _ => coreOk c
  | .holdResume c _ => coreOk c
  | .holdBoundExceeded c _ => coreOk c
  | .streamDeadlock c _ => coreOk c
  | .mmNop e | .vxNop e | .stNop e | .ctEnd e => e.wf
  | .mmPass e f | .mmLds e f => e.wf && f.wf
  | .mmMode e a _ => e.wf && decide (a < 12)
  | .mmWake e m | .mmRest e m => e.wf && decide (m < 4096)
  | .vxAdd e f | .vxSub e f | .vxMul e f | .vxFma e f | .vxMin e f | .vxMax e f | .vxMov e f | .vxAbs e f
  | .vxNeg e f | .vxCmp e f | .vxGsum e f | .vxGmax e f | .vxGmin e f | .vxExp2 e f | .vxLog2 e f | .vxRcp e f
  | .vxRsqrt e f | .vxSqrt e f | .vxTanh e f | .vxSigm e f | .vxCvt e f | .vxQmx e f | .vxDqmx e f | .vxMand e f
  | .vxMor e f | .vxMxor e f | .vxMnot e f | .vxMfirst e f => e.wf && f.wf
  | .vxMovi e f _ => e.wf && f.wf
  | .vxLd e f => e.wf && f.wf
  | .vxSt e f => e.wf && f.wf && f.rmode == 0
  | .stArm e f | .stStash e f | .stUnstash e f => e.wf && f.wf
  | .spMov e s r d => e.wf && decide (s < 32) && decide (r < 3) && decide (d < 32)
  | .spFill e d _ => e.wf && decide (d < 32)
  | .spGate e m | .spUngate e m => e.wf && decide (m < 65536)
  | .gateGrant c q => coreOk c && decide (q < 16)
  | .ctStep e f => e.wf && f.wf
  | .ctBlk e d b c => e.wf && deltaOk d && decide (1 ≤ b) && decide (b ≤ 256) && decide (c < 65536)
  | .ctSeta e d r _ => e.wf && deltaOk d && decide (r < 32)
  | .ctAdda e d r q _ => e.wf && deltaOk d && decide (r < 32) && decide (q < 32)
  | .descriptorLanded c s _ _ => coreOk c && decide (s < 64)
  | .stackFatalError s c => decide (s < 12) && decide (c < 32)
  | .retrainWindow s _ => decide (s < 12)
  | .tempSample t => t.hs.length == 12 && t.cd.length == 8
  | .powerSample _ l => l.length == 8
  | .itemAdmit b => decide (b < 64)
  | .itemReissue p | .sliceExpiry p | .sliceEnd p | .tenancyRestore p | .heldCommandPerform p
  | .parcelSealApply p | .parcelCreateDone p | .parcelResetDone p | .parcelReleaseDone p
  | .sealedDelivery p | .upEnd p => decide (p < 48)
  | .updateGroupTakeUp p g | .updatePass1Complete p g | .updatePass2Start p g | .updatePass2Complete p g
  | .sealWaitExpiry p g | .sealCommitApply p g | .inDoubtQuery p g => decide (p < 48) && decide (g < 4096)
  | .collectiveBegin p _ => decide (p < 48)
  | .upAdd p f | .upSub p f | .upMul p f | .upFma p f | .upDiv p f | .upSqrt p f | .upRsqrt p f | .upMin p f
  | .upMax p f | .upAbs p f | .upNeg p f | .upSign p f | .upSel p f | .upExp2 p f | .upLog2 p f =>
    decide (p < 48) && decide (f.d < 8) && decide (f.a < 23) && decide (f.b < 23) && decide (f.c < 23)
  | .reservePromotion c => coreOk c
  | .hbmReadComplete _ rs => rs.all (fun r => decide (r.addr < 0xBA00000000) && decide (r.lane < 72))
  | .hbmWriteComplete w => decide (w.lane < 72) && decide (w.addr < 0xBA00000000) && decide (w.addr % 256 + w.data.length ≤ 256)
  | .hello r | .capsGet r | .parcelCreateNew r | .parcelCreateRestore r | .parcelCreateRestoreDone r
  | .parcelDestroyReset r | .parcelDestroyRelease r | .parcelSeal r | .parcelQuery r | .tenancySetWrite r
  | .tenancySetDeactivate r | .planLoad r | .planUnload r | .weightsLoad r | .weightsLoadWrapped r
  | .tensorWrite r | .tensorRead r | .ringSetupEnable r | .ringSetupDisable r | .itemSubmit r
  | .groupSetWriteGroup r | .groupSetReadGroup r | .groupSetWriteProgram r | .groupSetReadProgram r
  | .stepCommitUpdate r | .stepCommitResolveAbort r | .stepCommitClearHold r | .deedGetParcel r
  | .deedGetPackage r | .surveyRead r | .manifestOpAdd r | .manifestOpPause r | .manifestOpResume r
  | .manifestOpRemove r | .manifestOpRead r | .manifestOpRegister r | .manifestOpUnregister r
  | .telemetryGet r | .periodSet r | .maintDrainBegin r | .maintDrainEnd r | .hbmRepairList r
  | .hbmRepairRow r | .hbmRepairLane r | .hbmMargin r | .fenceQuery r | .reservePromote r | .eventRead r
  | .fwStage r | .fwActivate r | .linkQuery r | .linkConfigCourier r | .linkConfig8023 r
  | .linkConfigDisable r | .fedForm r | .fedLeave r | .routeSet r | .memberRestore r | .channelSet r
  | .channelFree r | .channelQuery r | .collectiveSubmit r => r.wf
  | .getVersion r | .getCapabilities r | .negotiateAlgorithms r | .getDigests r | .getCertificate r
  | .challenge r | .getMeasurements r | .keyExchange r | .finish r | .keyUpdate r | .heartbeat r
  | .endSession r | .keySet r | .keyClear r | .signerSet r | .deedParcel r | .deedPackage r => r.wf
  | .stopInterface r | .lockInterface r | .startInterface r => decide (1 ≤ r.vf) && decide (r.vf ≤ 63)
  | .ideKm r => decide (r.fn < 64)
  | .mbxDoorbellInline f b _ | .reqTailWrite f b _ | .envTailWrite f b _ | .cplHeadWrite f b _
  | .dlrHeadWrite f b _ | .mbxCtrlWrite f b _ | .mbxIrqStatusWrite f b _ | .mbxIrqMaskWrite f b _ =>
    decide (f < 64) && decide (b < 64)
  | .registerWrite f _ w _ => decide (f < 64) && (w == 1 || w == 2 || w == 4 || w == 8)
  | .bar2Read a n => decide (a + n ≤ 2 ^ 36)
  | .bar2Write a d => decide (a + d.length ≤ 2 ^ 36)
  | .atsInvalidate f _ => decide (f < 64)
  | .flrVf v => decide (1 ≤ v) && decide (v ≤ 63)
  | .quadPortFail q => decide (q < 56)
  | .dieLost d => decide (d < 9)
  | .edgeFail a b => decide (a < 8) && decide (b < 8)
  | .hubLinkLost r => decide (r < 2)
  | .laneFail p l => decide (p < 8) && decide (l < 5)
  | .portDown p | .portRetrain p => decide (p < 8)
  | .portUp p _ _ => decide (p < 8)
  | .flit p f => decide (p < 8) && f.length == 256
  | .courierFrameForward f | .data f | .credit f | .reset f | .abort f | .skew f | .hold f | .tick f | .vote f
  | .decision f | .query f | .answer f | .norm f | .tally f => decide (f.port < 8) && decide (32 ≤ f.bytes.length)
  | .peerLost m _ => decide (m < 16384)
  | .configurationWrite f _ _ => decide (f < 64)
  | .frameTick | .frameBoundaryChangeApply | .foldApply | .thermalHoldEnter | .thermalHoldExit
  | .maintDrainEffect | .pldmRequest _ | .mctpControl _ | .sensorUpdate | .telemetryWindowUpdate
  | .evlogHeadWrite _ | .flrPf | .perstAssert | .hotReset | .perstDeassert | .configReady | .powerOn _
  | .undervoltage _ _ | .overvoltage _ _ | .powerOverdraw _ | .modResetL | .modResetLDeassert | .coldBoot _
  | .warmReset _ | .bootHbmStep _ | .bootCoreSelfTest _ | .refclkLoss | .refclkReturn | .holdSend
  | .tickLost _ | .alignedRestore | .fedJoin _ | .granuleService _ | .debugToken _ _ => true

end Sys2Proof
end

