-- ==== Sys2Proof/Tests/Slice0.lean ====
section
/-! SUPPORT. Small tests of the commands, the smoke test of WellFormed, and for each statement a state and operands that
meet the hypotheses of each of its clauses. -/

namespace Sys2Proof.Tests

-- One theorem at a time: each waits for the kernel, and many waiting at once would take too many threads.
set_option Elab.async false

open Sys2Proof Sys2Proof.Machine Sys2Proof.Claims

/-! States of the tests. -/

/-- A plan image of one segment on one core: L = 64, H = 100 in its bounds table at byte 64. -/
def img : List Byte :=
  overlay (overlay (overlay (zeros 768) 40 (pay [(64, 8), (128, 8), (192, 8)])) 22 [1]) 64 (pay [(64, 4), (100, 4)])

/-- Its plan, stored at the start of lot slot 0. -/
def plan0 : Plan := ⟨0, 7, 0, 16, 0, 1, 2, 0, 0, 0, 1, img, zeros 32⟩

/-- An item that runs it. -/
def item0 : Item := { seq := 1, tenancy := 0, itemId := 7, length := 10, classMax := 16 }

/-- A parcel of one quad on die 0 with one tenancy, bound to mailbox block 1, and one lot. -/
def par : Parcel := {
  state := .active, running := 0, quads := [0], coreMap := [0, 1, 2, 3], lots := [(0, ⟨5, false, false, 0⟩)]
  tenancies := [(0, { mailbox := 1, slice := 20 })], slice := { first := 90, len := 20 }, plans := [plan0], items := [item0] }

/-- A module that is READY, with its host link up and that parcel. -/
def up : State := {
  power := { good := true, ready := true, readyOnce := true, inputMv := 54000 }
  pcie := { perst := false, linkUp := true, cfgReady := true, numVfs := 2, vfEnable := true }
  blocks := [(0, { enable := true, session := some ⟨2, 65538⟩ }), (1, { enable := true, session := some ⟨1, 65538⟩ })]
  parcels := [(0, par)], time := { postmark := 100, cycle := 2000, base := 6600000000 } }

/-- The same in a frame head. -/
def head : State := { up with time := { up.time with cycle := 10 } }

/-- The same with item 1 running on core 0, which issues in plan cycle 10. -/
def run : State :=
  { up with
    parcels := [(0, { par with items := [{ item0 with begun := true, segRunning := true, segStart := 1024, segFrame := 100 }] })]
    cores := [(0, { seq := { st := .issuing, item := some (0, 1, 0), plan := 10, start := 1024 } })] }

/-- Core 0 of that state changed. -/
def runWith (f : Core → Core) : State := run.modCore 0 f

/-- Core 0, of which no check finds anything. -/
def env0 : CoreEnv := { core := 0 }

/-- The fields of the tests' vector instructions. -/
def vf : VecF := { vd := 1, va := 2, vb := 3, vc := 4 }

/-! WellFormed: an ill-formed term for each check, which the check refuses. -/

theorem test_wf_refuses_cores : [Instr.segmentStart 48 0 0, .sequencerFillStart 224, .sequencerFillComplete 224 0, .holdResume 224 0,
    .holdBoundExceeded 224 0, .streamDeadlock 224 0, .mmNop { core := 224 }, .ctEnd { core := 224 }, .gateGrant 0 16,
    .descriptorLanded 0 64 0 0, .reservePromotion 224].all (fun i => !i.wf) = true := by decide +kernel

theorem test_wf_refuses_matrix_fields : [({ array := 12 } : MatF), { array := 0, qset := 16 }, { array := 0, fmt := 6 },
    { array := 0, bank := 2 }, { array := 0, row := 32 }, { array := 0, nvec := 64 }, { array := 0, vreg := 32 },
    { array := 0, sreg := 32 }, { array := 0, qreg := 32 }, { array := 0, rmode := 3 }].all
      (fun f => !(Instr.mmPass env0 f).wf && !(Instr.mmLds env0 f).wf) = true ∧
    [Instr.mmMode env0 12 true, .mmWake env0 4096, .mmRest env0 4096].all (fun i => !i.wf) = true := by decide +kernel

theorem test_wf_refuses_vector_fields : [({ width := 2 } : VecF), { mreg := 8 }, { vd := 64 }, { va := 64 }, { vb := 64 },
    { vc := 64 }, { array := 12 }, { bank := 2 }, { rq := 8 }, { cond := 6 }, { gs := 2 }, { sf := 9 }, { tf := 9 },
    { part := 8 }, { spos := 128 }, { n := 257 }].all (fun f => !(Instr.vxAdd env0 f).wf) = true ∧
    [({ vr := 64, areg := 0 } : LdF), { vr := 0, areg := 32 }, { vr := 0, areg := 0, rmode := 3 },
      { vr := 0, areg := 0, size := 4 }, { vr := 0, areg := 0, part := 1 }, { vr := 0, areg := 0, rmode := 1, size := 2 }].all
      (fun f => !(Instr.vxLd env0 f).wf) = true ∧ (Instr.vxSt env0 { vr := 0, areg := 0, rmode := 1 }).wf = false := by
  decide +kernel

theorem test_wf_refuses_stream_and_control_fields : [Instr.stArm env0 ⟨64, 0, 0⟩, .stArm env0 ⟨0, 1024, 0⟩, .stArm env0 ⟨0, 0, 32⟩,
    .spMov env0 32 0 0, .spMov env0 0 3 0, .spMov env0 0 0 32, .spFill env0 32 0, .spGate env0 65536, .spUngate env0 65536,
    .ctStep env0 { delta := 0 }, .ctStep env0 { delta := 65536 }, .ctStep env0 { repeat_ := 65536 },
    .ctStep env0 { incaDst := 32 }, .ctStep env0 { incaSrc := 32 }, .ctStep env0 { incbDst := 32 }, .ctStep env0 { incbSrc := 32 },
    .ctStep env0 { incaDst := 1, incbDst := 1 }, .ctBlk env0 0 1 0, .ctBlk env0 1 0 0, .ctBlk env0 1 257 0, .ctBlk env0 1 1 65536,
    .ctSeta env0 0 1 0, .ctSeta env0 1 32 0, .ctAdda env0 0 0 0 0, .ctAdda env0 1 32 0 0, .ctAdda env0 1 0 32 0].all
      (fun i => !i.wf) = true := by decide +kernel

theorem test_wf_refuses_package_operands : [Instr.stackFatalError 12 0, .stackFatalError 0 32, .retrainWindow 12 true,
    .tempSample ⟨[], [], 0, 0⟩, .powerSample 0 [], .itemAdmit 64, .itemReissue 48, .updateGroupTakeUp 48 0,
    .updateGroupTakeUp 0 4096, .collectiveBegin 48 0, .upAdd 48 {}, .upAdd 0 { d := 8 }, .upAdd 0 { a := 23 }, .upAdd 0 { b := 23 },
    .upAdd 0 { c := 23 }, .hbmReadComplete 0 [{ addr := 0xBA00000000 }], .hbmWriteComplete { addr := 0xBA00000000, data := [] },
    .hbmWriteComplete { addr := 255, data := zeros 2 }].all (fun i => !i.wf) = true := by decide +kernel

theorem test_wf_refuses_host_operands : [Instr.hello { block := 65, env := zeros 64 }, .hello { block := 0, env := zeros 63 },
    .getVersion { endpoint := 65, msg := [] }, .lockInterface { vf := 0 }, .lockInterface { vf := 64 }, .ideKm ⟨64, 0, [], false⟩,
    .reqTailWrite 64 0 0, .reqTailWrite 0 64 0, .registerWrite 64 0 1 ⟨0, 0⟩, .registerWrite 0 0 3 ⟨0, 0⟩, .bar2Read (2 ^ 36) 1,
    .bar2Write (2 ^ 36) [0], .atsInvalidate 64 0, .flrVf 0, .flrVf 64, .quadPortFail 56, .dieLost 9, .edgeFail 8 0, .edgeFail 0 8,
    .hubLinkLost 2, .laneFail 8 0, .laneFail 0 5, .portDown 8, .portUp 8 0 0, .flit 8 (zeros 256), .flit 0 (zeros 255),
    .data { port := 8, bytes := zeros 32 }, .data { port := 0, bytes := zeros 31 }, .peerLost 16384 0, .configurationWrite 64 0 0].all
      (fun i => !i.wf) = true := by decide +kernel

/-! No row of the table has bits, so no word spells a command. -/

theorem test_no_word_spells_a_command : (up.withFetchWord 32 0x12345678) = up ∧ decodeTableWord 32 0 = none :=
  ⟨rfl, rfl⟩

/-! The hypotheses of the statements, clause by clause. -/

theorem test_hyps_CommandsLeaveTheQueue : ∃ c s t, exec c s = .next t ∧ s.pending ≠ [] :=
  ⟨.perstDeassert, { up with pending := [.flrPf] }, _, rfl, by simp⟩

theorem test_hyps_StepsKeepMemoriesCanonical : ∃ s t, memsWf s = true ∧ step s = .next t ∧ s.pending ≠ [] :=
  ⟨{ up with pending := [.perstDeassert] }, _, by decide +kernel, rfl, by simp⟩

theorem test_hyps_MatrixSlotCompletes : issuesSound env0 run = true ∧
    [SlotOp.pass { array := 11 }, .lds { array := 0 }, .mode 11 true, .wake 4095, .rest 1].all (fun o => takes env0 o run) = true ∧
    takes { env0 with upsets := [.vec 3 1, .addr 9 0] } (.mode 0 false) run = true := by decide +kernel

theorem test_hyps_AccumulatorsTakeColumnResults : (0x7FFFFFFF < 2 ^ 32 ∧ (addInt32 0x7FFFFFFF 1).2 = .overflow) ∧
    ([1, 255] : List Nat).length ≤ 32 ∧ (run.core 0).seq.item = some (0, 1, 0) ∧ Upset.acc 2 5 ∉ (run.core 0).upsets ∧
    Upset.acc 2 5 ∈ ((runWith (fun c => { c with upsets := [.acc 2 5] })).core 0).upsets ∧
    (∃ o : MatOp, o.isPass = true ∧ o.f.qset = 0 ∧ 33 ≤ o.f.nvec) :=
  ⟨by decide, by decide, by decide +kernel, by decide +kernel, by decide +kernel, ⟨true, 0, { array := 0, nvec := 40 }, 0, 0, 0, 0, [], []⟩, rfl, rfl, by decide⟩

/-- For the statements on lanes, masks, reductions and conversions alike. -/
theorem test_hyps_of_the_vector_slot : vf.width = 0 ∧ takes env0 (.movi vf 0) run = true ∧
    [VOp.add, .sub, .mul, .fma, .min, .max, .mov, .abs, .neg, .exp2, .log2, .rcp, .rsqrt, .sqrt, .tanh, .sigm, .cmp, .mand,
      .mor, .mxor, .mnot, .mfirst, .gsum, .gmax, .gmin, .cvt, .dqmx, .qmx].all (fun o => takes env0 (.vec o vf) run) = true := by
  decide +kernel

/-- R199: a mask destination, at either width. -/
theorem test_mask_lanes : maskLane [.mreg 6 3 1, .mreg 7 1 1] 6 0 = some true ∧ maskLane [.mreg 6 3 1, .mreg 7 1 1] 6 1 = some false ∧
    maskLane [.mreg 6 3 1, .mreg 7 1 1] 6 2 = none ∧ maskLane [.mreg 6 3 1, .mreg 7 1 1] 6 128 = some true := by decide +kernel

theorem test_hyps_ScratchpadAndArmsComplete : [SlotOp.ld { vr := 63, areg := 2 }, .st { vr := 1, areg := 31 }, .mov 1 0 2,
    .fill 1 0, .arm 0 ⟨63, 0, 0⟩, .arm 1 ⟨0, 0, 0⟩, .arm 2 ⟨0, 0, 0⟩].all (fun o => takes env0 o run) = true := by decide +kernel

theorem test_hyps_ScratchpadGatingCompletes : takes env0 (.gate 65535) run = true ∧ takes env0 (.ungate 1) run = true ∧
    ((run.core 0).seq.item.isSome = true ∧ (run.core 0).due = []) ∧
    (let s := runWith (fun c => c.setQuarter 3 { pendingGate := true, gateAt := 5 })
     ((s.core 0).quarter 3).pendingGate = true ∧ ((s.core 0).quarter 3).gateAt ≤ (s.core 0).seq.plan ∧ (s.core 0).due = [] ∧
      (s.core 0).descs = []) := by decide +kernel

theorem test_hyps_ControlSlotsComplete : issuesSound env0 run = true ∧
    [CtlOp.step {}, .blk 1 1 1, .seta 1 1 0, .adda 1 1 1 0].all (fun o => (ctlFault (struck env0 run) o).isNone) = true := by
  decide +kernel

theorem test_hyps_SegmentEndCompletes : issuesSound env0 run = true ∧
    ((coreTick 0 (slotStart env0 run)).core 0).seq.item = some (0, 1, 0) ∧
    ∃ i, (run.parcel 0).item 1 = some i ∧ ∃ v, run.planFor 0 i = some v ∧ i.seg + 1 < v.segments := by
  refine ⟨by decide +kernel, by decide +kernel, _, rfl, _, rfl, by decide +kernel⟩

theorem test_hyps_SegmentStartCompletes : (up.parcel 0).item 1 = some item0 ∧ up.planFor 0 item0 = some plan0 ∧
    mayStart up 0 item0 plan0 1024 = true ∧ item0.kind = .plan ∧ unitCores (up.parcel 0) plan0.unit = some [0] ∧
    coreUp up ((up.parcel 0).phys 0) = true ∧ (batchStart 0 item0 (up.atCycle 1024)).1 = .ok := by decide +kernel

theorem test_hyps_SequencerFillsComplete : nextFill up 0 = some (0, 1, 0) ∧ (up.core 0).seq.h0.seg = none ∧
    (up.parcel 0).item 1 = some item0 ∧ up.planFor 0 item0 = some plan0 ∧
    (readSegment 0 item0 plan0 (((up.parcel 0).logical 0).getD 0xFFFF) 0 up).1 = .ok ∧
    (let q : Seq := { h0 := { filling := true }, h1 := { filling := true, later := true } }
     q.h0.filling = true ∧ q.h1.later = true) ∧ (run.core 0).seq.h0.filling = false := by decide +kernel

/-- A descriptor of kind CORE whose deadline has passed. -/
def late : Desc := { far := 2, partner := 1, planDl := 5, waitBound := 20 }

/-- Core 0 holds since cycle 1040 for `late` in slot 2. -/
def held : State := runWith (fun c => { c with
  slots := [(2, { active := some late })], seq := { c.seq with st := .hold false 1040 } })

theorem test_hyps_HoldsComplete :
    (∃ i v, runOf held 0 = some (0, i, some v) ∧ (held.core 0).seq.item = some (0, 1, 0) ∧
      realHold held 0 (held.core 0) = true ∧ 1040 ≤ 1140 ∧
      (held.core 0).seq.hold.cycles + (1140 + 1 - 1040) = imgH v.image i.seg + 1) ∧
    (let s := runWith (fun c => { c with
      slots := [(2, { active := some { late with completeAt := some 1050 } })], seq := { c.seq with st := .hold false 1040 } })
     ∃ i v, runOf s 0 = some (0, i, some v) ∧ resumeAt s 0 (s.core 0) = some 1051 ∧
      (s.core 0).seq.hold.cycles + (1051 - 1040) ≤ imgH v.image i.seg) := by
  refine ⟨⟨_, _, rfl, ?_⟩, ⟨_, _, rfl, ?_⟩⟩ <;> decide +kernel

theorem test_hyps_DescriptorsLand :
    (let s := runWith (fun c => { c with
       gone := [(2, { late with landedAt := some 1050, completeAt := some 1050 })]
       slots := [(2, { active := some { late with far := 0, kind := 1, n0 := 0 }, next := some { late with order := 1 } })] })
     ∃ i v d, runOf s 0 = some (0, i, some v) ∧ ((s.core 0).slot 2).active = some d ∧ 1100 ≤ 1101 ∧ d.inbound = false ∧
      (s.core 0).gone.map (fun g => (g.1, g.2.landedAt)) = [(2, some 1050)] ∧ 1050 < 1100 ∧
      blocked s 0 0 (((s.parcel 0).logical 0).getD 0xFFFF) v d = false ∧
      (let r := moveDesc 0 0 (((s.parcel 0).logical 0).getD 0xFFFF) 2 i v d (s.atCycle 1101)
       r.1 = .done ∧ (r.2.core 0).seq.item = some (0, 1, 0) ∧ ((r.2.parcel 0).item 1).any (·.segRunning) = true)) := by
  refine ⟨_, _, _, rfl, rfl, ?_⟩
  decide +kernel

theorem test_hyps_DeadlocksEndItems :
    (let s := held.setCore 1 { seq := { st := .hold false 1030, item := some (0, 1, 0) } }
     ∃ i v, runOf s 0 = some (0, i, some v) ∧ lowest (awaited (s.core 0)) = some (2, late) ∧ awaited (s.core 0) = [(2, late)] ∧
      late.far = 2 ∧ late.moved = false ∧ partnerOf s 0 (((s.parcel 0).logical 0).getD 0xFFFF) late = none ∧
      (s.core ((s.parcel 0).phys late.partner)).seq.st = .hold false 1030 ∧
      1040 + ((awaited (s.core 0)).map (fun x => x.2.waitBound)).foldl min (2 ^ 32 - 1) ≤ 1059 + 1 ∧
      ((coresOf s 0 i.seq).map (fun j => heldAt (s.core j) 1059)).foldl max 0 ≤ imgH v.image i.seg) := by
  refine ⟨_, _, rfl, ?_⟩
  decide +kernel


theorem test_hyps_MemoriesReadBackWhatIsWritten : memWf { cells := [(3, 7), (9, 1)], undef := [⟨20, 4, 0⟩] } = true := by decide

theorem test_hyps_HashAndFolds : (744 * 2 ^ 30 - 1 < 744 * 2 ^ 30) ∧ (767 < 768 ∧ 4063231 < 4063232 ∧ 255 < 256) ∧
    (31 < 32 ∧ 1 < 2) := by decide

theorem test_hyps_WholeGranuleStores : (zeros 256).length = 256 ∧ memWf up.hbm.mem = true ∧ 511 / 256 ≠ 767 / 256 := by
  decide +kernel

/-- An outbound descriptor of 64 bytes to lot slot 0. -/
def outD : Desc := { kind := 1, n0 := 64 }

theorem test_hyps_HbmBurstsComplete :
    (let s := runWith (fun c => { c with slots := [(2, { active := some outD })] })
     let w : HbmWrite := { addr := 5 * 2 ^ 30, data := zeros 64, core := 0, slot := 2 }
     s.power.good = true ∧ ownerOf s w.addr = some (0, 0) ∧
      (∃ i v, agentOf (s.atCycle w.cycle) w.core w.slot = some (0, i, v, outD) ∧ i.tenancy = 0) ∧ outD.inbound = false ∧
      (outD.runs.any (fun r => decide (r.1 ≤ w.addr % 2 ^ 30 ∧ w.addr % 2 ^ 30 + w.data.length ≤ r.1 + outD.n0))) = true ∧
      (lotAt s (w.addr / 2 ^ 30)).any (fun e => e.2.2.owner == 0) = true ∧ w.addr % 256 + w.data.length ≤ 256 ∧
      w.exhausted = false ∧ (∃ i v, runOf (s.atCycle w.cycle) 0 = some (0, i, some v) ∧
        blocked (s.atCycle w.cycle) 0 0 (((s.parcel 0).logical 0).getD 0xFFFF) v outD = false) ∧
      (let c : MCtx := { ten := 0, seq := 1, quiet := true }
       (wrLine 0 w.addr w.data (outD.policy == 0) (0, 1) c (writeReplays w c (s.atCycle w.cycle))).1 = .ok)) ∧
    (let w : HbmWrite := { addr := 5 * 2 ^ 30, data := zeros 64, exhausted := true }
     up.power.good = true ∧ ownerOf up w.addr = some (0, 0) ∧ w.core = 0xFFFF ∧ agentOf (up.atCycle w.cycle) w.core w.slot = none ∧
      up.fails.cores = []) := by
  refine ⟨⟨by decide +kernel, by decide +kernel, ⟨_, _, rfl, rfl⟩, by decide +kernel, by decide +kernel, by decide +kernel,
    by decide +kernel, by decide +kernel, ⟨_, _, rfl, ?_⟩, ?_⟩, ?_⟩ <;> decide +kernel

theorem test_hyps_ChannelFailuresComplete : up.power.good = true ∧ head.time.cycle < 1024 ∧ (up.stack 0).unreachable = false ∧
    up.power.drainOn = false ∧ (up.stack 0).window ≠ some up.time.postmark ∧ (foldCh up 0 ≠ some 0 ∧ chanDead up 0 0 = false) ∧
    (up.stack 0).fails ≠ 2 ∧ ((up.setStack 0 { fails := 2 }).stack 0).fails = 2 ∧
    (let s : State := { up with store := { up.store with folds := [(0, 2 ^ 31)] } }
     foldCh s 0 = some (s.stack 0).nextCh) ∧ (up.stack 0).unmapDue = [] ∧ (up.stack 0).foldDue = none := by decide +kernel

theorem test_hyps_GranuleServiceCompletes :
    (let s := up.setGran (0, 3) { owner := some 0 }
     s.power.good = true ∧ (s.die 0).lost = false ∧ (s.gran (0, 3)).owner = some 0 ∧ (s.gran (0, 3)).cache = false ∧
      reviveAt 0 2000 s = none) ∧
    (let l : Line := ⟨2, true, [(0, 1)], zeros 256⟩
     let s := up.setGran (0, 3) { owner := some 0, cache := true, lines := [(17, l)] }
     let a := (2 * 4096 + 1) * 256
     (s.die 0).lost = false ∧ (s.gran (0, 3)).owner = some 0 ∧ (s.gran (0, 3)).cache = true ∧
      findWay (s.gran (0, 3)) (a / 256 % 4096) (a / 256 / 4096) = some 1 ∧ tblGet (s.gran (0, 3)).lines (16 * (a / 256 % 4096) + 1) = some l) := by
  decide +kernel

theorem test_hyps_TemperatureSamplesComplete : up.power.good = true ∧
    (let x : Temps := ⟨List.replicate 12 421, List.replicate 8 300, 300, 300⟩
     ¬ 440 < x.hub ∧ ¬ 500 < x.regulator ∧ (∀ d, d < 8 → ¬ 440 < nth x.cd d 0) ∧ (∀ k, k < 12 → ¬ 460 < nth x.hs k 0) ∧
      420 < nth x.hs 0 0) ∧ (up.setStack 3 { unreachable := true }).stack 3 ≠ {} := by decide +kernel

theorem test_hyps_PowerEventsComplete : up.power.good = true ∧ up.power.holdDue = 0 ∧ 3400 < 3401 ∧ 4000 < 4001 ∧
    State.reset.power.good = false ∧ State.reset.power.rails = [] ∧ State.reset.power.latchOff = false ∧ State.reset.power.modResetL = false ∧ 49000 < 54000 := by
  decide +kernel

theorem test_hyps_ThermalHoldsComplete :
    (let s : State := { head with power := { head.power with holdDue := 1 } }
     s.time.cycle < 1024 ∧ s.power.holdOn = false ∧ s.power.holdDue ≠ 0 ∧ s.power.holdAt < s.time.postmark) ∧
    (let s : State := { head with power := { head.power with holdOn := true, coolLast := true } }
     s.time.cycle < 1024 ∧ s.power.holdOn = true ∧ s.power.coolLast = true) := by decide +kernel

theorem test_hyps_ResetsClearTheModule : writingBack up = false ∧ 0 ∈ liveParcels up := by
  decide +kernel

theorem test_hyps_PinsAndResetsComplete : writingBack up = false ∧ writingBack (warmBegin false up) = true ∧ (warmBegin false up).power.good = true ∧
    (let s : State := { up with power := { up.power with modResetL := true } }
     s.power.modResetL = true ∧ s.power.latchOff = false ∧ 49000 < s.power.inputMv) ∧
    up.power.good = true ∧ up.power.readyOnce = true ∧ up.pcie.linkUp = true ∧ up.power.refclk = true ∧
    (let s : State := { up with power := { up.power with readyOnce := false }, pcie := { up.pcie with cfgReady := false } }
     s.power.good = true ∧ s.power.readyOnce = false ∧ s.pcie.linkUp = true ∧ s.pcie.cfgReady = false) := by decide +kernel

/-- Power has come. -/
def powered : State := { power := { good := true, bootStage := 1, inputMv := 54000 } }

theorem test_hyps_BootsComplete : (powered.power.good = true ∧ powered.power.stopped = false ∧ powered.power.bootWarm = false ∧
      powered.power.bootStage = 1 ∧ bootChoice {} powered = some {} ∧ bootChoice { badImage := [0, 1] } powered = none) ∧
    (let s : State := { powered with power := { powered.power with waitBoot := true, bootStage := 2 } }
     s.power.good = true ∧ s.power.waitBoot = true ∧ s.power.bootStage = 2) ∧
    (let s : State := { powered with power := { powered.power with waitBoot := true, bootStage := 3 } }
     s.power.good = true ∧ s.power.waitBoot = true ∧ s.power.bootStage = 3) ∧
    (let s : State := warmBegin false up
     s.power.good = true ∧ s.power.stopped = false ∧ s.power.bootWarm = true ∧ s.power.selfRefresh = true ∧
      bootChoice {} s = some {} ∧ bootChoice { badImage := [0, 1] } s = none) ∧
    diesHot powered = false ∧ diesHot (powered.setDie 2 { temp := 381 }) = true ∧
    stacksHot (powered.setStack 2 { temp := 401 }) = true := by
  decide +kernel

theorem test_hyps_FrameTicksComplete : (up.power.good = true ∧ up.fed.forming = none ∧ 0 ∈ liveParcels up ∧
    (up.parcel 0).items ≠ []) ∧
    (let s : State := { up with fed := { forming := some ({ block := 0 }, 1000, 66048) } }
     s.power.good = true ∧ s.fed.forming = some ({ block := 0 }, 1000, 66048) ∧ s.fed.upstream = 0xFF) ∧
    (let s : State := { up with fed := { upstream := 0, forming := some ({ block := 0 }, 0, 0) } }
     s.fed.forming ≠ none ∧ s.fed.upstream ≠ 0xFF) := by decide +kernel

/-- Core 1 fenced, in a frame head. -/
def fenced1 : State := head.setCmeta 1 { state := .fenced, promoteDue := true, fencedAt := 99 }

theorem test_hyps_FrameHeadChangesComplete :
    (head.time.cycle < 1024 ∧ 99 < head.time.postmark ∧ foldWaits head = false ∧ head.passed.1 ≠ head.time.postmark ∧
      head.fed.federated = false ∧ periodBusy head 3300032 = false) ∧
    (let c : List (Nat × Change) := [(99, .reset 0), (99, .drainBegin { block := 0 })]
     turnOf { head with changes := c } Change.drains = some 1) ∧
    ((parcelOfCore fenced1 1).isSome = true ∧ (fenced1.cmeta 1).state = .fenced ∧ reserves fenced1 (1 / 28) = [24, 25, 26, 27]) ∧
    promotionWaits (head.setCmeta 1 { state := .fenced, fencedAt := 99 }) = false ∧
    ((fenced1.cmeta 1).promoteDue = true ∧ (fenced1.cmeta 1).fencedAt < fenced1.time.postmark) ∧
    (liveParcels head).all (fun p => !outstanding head p) = true ∧
    parcelOfCore fenced1 1 = some 0 ∧ (24 : Nat) ≠ 1 := by decide +kernel

/-- Two tenancies; the slice of the one that runs is over, the other has an item. -/
def two : State := { head with parcels := [(0, { par with
  slice := { first := 70, len := 20, expired := true, expiredAt := 90 }
  tenancies := [(0, { mailbox := 1, slice := 20 }), (3, { mailbox := 2, slice := 20 })], items := [{ item0 with tenancy := 3 }] })] }

/-- A TENSOR_WRITE of 1,024 bytes that was suspended after its first granule. -/
def heldWrite : Held := { tk := { block := 1, session := 1, op := 0x31 }, payload := pay [(2 ^ 22, 8), (1024, 8), (512, 8)], susp := some { done := 256 } }

theorem test_hyps_SlicesComplete :
    (let x : State := { head with parcels := [(0, { par with slice := { first := 70, len := 20 } })] }
     x.time.cycle < 1024 ∧ inService (x.parcel 0) = true ∧ (x.parcel 0).slice.expired = false ∧
      (x.parcel 0).slice.first + (x.parcel 0).slice.len ≤ x.time.postmark) ∧
    (two.time.cycle < 1024 ∧ inService (two.parcel 0) = true ∧ sliceOver two 0 = true ∧ nextTen two 0 0 = some 3 ∧ 3 ≠ (two.parcel 0).running ∧
      (two.parcel 0).slice.deactivated = false ∧ ((two.parcel 0).ten (two.parcel 0).running).held = []) ∧
    (let x : State := two.modParcel 0 (fun y => { y with items := [], slice := { y.slice with deactivated := true } })
     inService (x.parcel 0) = true ∧ sliceOver x 0 = true ∧ (turnIn x (Change.deactivates 0)).isSome = true ∧
      nextTen x 0 0 = none ∧ nextUsed x 0 0 = some 3 ∧
      nextTen (two.modParcel 0 (fun y => { y with slice := { y.slice with deactivated := true } })) 0 0 = some 3) ∧
    (let x : State := { two with parcels := [(0, { two.parcel 0 with items := [] })] }
     inService (x.parcel 0) = true ∧ sliceOver x 0 = true ∧ (x.parcel 0).slice.deactivated = false ∧ nextTen x 0 0 = none) ∧
    (let x : State := { two with parcels := [(0, { two.parcel 0 with running := 0xFF, work := .switching 3 99 })] }
     (x.parcel 0).work = .switching 3 99 ∧ 99 < x.time.postmark ∧ (x.parcel 0).state = .active ∧ 3 ∈ (x.parcel 0).inUse) ∧
    (let h : Held := { tk := { block := 1, session := 1 }, payload := [] }
     let x : State := up.modTen 0 0 (fun y => { y with held := [h] })
     ((x.parcel 0).ten (x.parcel 0).running).held = [h] ∧ inService (x.parcel 0) = true ∧ ¬ x.time.cycle < 1024 ∧
      h.susp = none ∧ staleTicket x h.tk = false) ∧
    (let h := heldWrite
     let x : State := up.modTen 0 0 (fun y => { y with held := [h] })
     let y := x.modTen 0 0 (fun y => { y with held := [] })
     ((x.parcel 0).ten (x.parcel 0).running).held = [h] ∧ inService (x.parcel 0) = true ∧ ¬ x.time.cycle < 1024 ∧
      h.tk.op = 0x31 ∧ h.form = 0 ∧ h.susp = some { done := 256 } ∧ hostRead y 1 (le h.payload 0 8 + 256) 768 = some (zeros 768) ∧
      (pvWrite 0 0 (le h.payload 16 8 + 256) (zeros 768) false (0, 0xFFFFFFFF) { ten := 0 } y).1 = .ok) ∧
    (let b := heldWrite.payload
     stopAt 256 (le b 16 8) 256 1 (le b 8 8) = 512 ∧ 512 ≠ le b 8 8 ∧ hostRead up 1 (le b 0 8 + 256) 256 = some (zeros 256) ∧
      (pvWrite 0 0 (le b 16 8 + 256) (zeros 256) false (0, 0xFFFFFFFF) { ten := 0 } up).1 = .ok) := by decide +kernel

/-- R419: a TENSOR_WRITE that goes on to its end is answered and held no more. -/
theorem test_held_write_resumed :
    (match exec (.heldCommandPerform 0) (up.modTen 0 0 (fun y => { y with held := [heldWrite] })) with
     | .next s => ((s.parcel 0).ten 0).held == [] && ((s.parcel 0).ten 0).tensorWrites == 1
     | _ => false) = true := by decide +kernel

/-- Parcel 0 of `head` changed. -/
def headWith (f : Parcel → Parcel) : State := head.modParcel 0 f

theorem test_hyps_ParcelEventsComplete : (foldWaits head = false ∧ head.changes = [] ∧ turnIn head (Change.resets 0) = some head) ∧
    (turnIn { head with changes := [(99, .release 0)] } (Change.releases 0)).isSome = true ∧
    (turnIn { head with changes := [(99, .sealed 1), (99, .sealed 0)] } (Change.seals 0)).isSome = true ∧
    (∀ e ∈ ({ image := [(3, zeros 5632)] } : CadCopy).image, e.2.length = 5632) ∧
    ((headWith (fun x => { x with state := .free, work := .creating { block := 0 } })).parcel 0).work = .creating { block := 0 } ∧
    (let s := headWith (fun x => { x with state := .resetting, items := [], work := .resetting { block := 0 } .active none })
     (s.parcel 0).work = .resetting { block := 0 } .active none ∧ s.time.cycle < 1024 ∧ (s.parcel 0).items = [] ∧
      (s.parcel 0).running ∈ (s.parcel 0).inUse) ∧
    (let s := headWith (fun x => { x with state := .resetting, items := [], work := .resetting { block := 0 } .active (some 0) })
     (s.parcel 0).work = .resetting { block := 0 } .active (some 0) ∧ (s.parcel 0).items = [] ∧ 0 ∈ (s.parcel 0).inUse) ∧
    (let s := headWith (fun x => { x with state := .releasing, items := [], work := .releasing { block := 0 } })
     (s.parcel 0).work = .releasing { block := 0 } ∧ (s.parcel 0).items = []) ∧
    (let s := headWith (fun x => { x with sealPending := true })
     (s.parcel 0).sealPending = true ∧ (s.parcel 0).state = .active ∧ operatorHeld (s.parcel 0) = false) := by
  decide +kernel

/-- Block 1 with item rings and one entry at host address 4,096 x 16. -/
def ring1 : State := { up with
  blocks := [(1, { enable := true, itemRings := true, session := some ⟨1, 65538⟩, req := ⟨65536, 4, 0, 1⟩, cpl := ⟨131072, 4, 0, 0⟩
                   dlr := ⟨196608, 4, 0, 0⟩ })] }

theorem test_hyps_ItemsAreAdmitted :
    (boundTo ring1 1 = some (0, 0) ∧ ring1.power.ready = true ∧ mayAdmit ring1 0 0 = true ∧ (ring1.block 1).readStopped = false ∧
      (ring1.block 1).req.head ≠ (ring1.block 1).req.tail ∧ roomFor ring1 0 0 = true ∧ (tenItems ring1 0 0).length < 16 ∧
      hostRead ring1 1 ((ring1.block 1).req.addr (ring1.block 1).req.head 64) 64 = some (zeros 64)) ∧
    (let i : Item := { item0 with begun := true, reissuePending := true, segFrame := 99 }
     let s := headWith (fun x => { x with items := [i] })
     (s.parcel 0).items.find? (fun i => i.reissuePending && i.begun) = some i ∧ s.time.cycle < 1024 ∧
      i.segFrame < s.time.postmark ∧ s.power.holdOn = false) ∧
    (let i : Item := { seq := 1, tenancy := 0, kind := .coll }
     let s := headWith (fun x => { x with items := [i] })
     (s.parcel 0).item 1 = some i ∧ i.kind = .coll ∧ i.begun = false ∧ s.power.holdOn = false ∧ s.power.drainOn = false ∧
      inService (s.parcel 0) = true ∧ ((s.parcel 0).items.takeWhile (fun j => j.seq != 1)) = [] ∧
      (gateState s 0 i.tenancy i.gate).isSome = true) := by decide +kernel


/-- A group of one row of one element with its weights in lot slot 0, STEP 5, rule 0. -/
def grp : List Byte := overlay (overlay (overlay (overlay (zeros 160) 2 [1]) 4 [5]) 33 [1]) 40 (pay [(1, 4), (1, 4)])

/-- The same as a shard 0 of two on channel 2. -/
def grpS : List Byte := overlay (overlay grp 2 [9]) 152 (pay [(2, 2), (0, 2), (2, 2)])

/-- Parcel 0 with an update item whose group 4 stands at a phase. -/
def upd (g : List Byte) (f : GroupRun → GroupRun) : State := headWith (fun x => { x with
  groups := [(4, g)], items := [{ seq := 1, tenancy := 0, kind := .update, groups := [f { group := 4 }] }] })

theorem test_hyps_UpdateStepsComplete :
    (let s := upd grp id
     ∃ i r, runOfGroup s 0 4 = some (i, r) ∧ r.phase = .wait ∧
      (i.groups.find? (fun q => q.phase == .wait)).any (fun q => q.group == 4) = true ∧ gFrozen grp = false ∧
      tblGet (s.parcel 0).doomed 4 ≠ some (gStep grp + 1) ∧ gateState s 0 i.tenancy r.gate = some true ∧ s.power.holdOn = false ∧ gSkew grp = false ∧ gStep grp ≠ 0xFFFFFFFF) ∧
    (let s := upd grp (fun r => { r with phase := .pass1, step := 6 })
     ∃ i r, runOfGroup s 0 4 = some (i, r) ∧ r.phase = .pass1 ∧ (gSharded grp && gSkew grp) = false ∧
      (pass1 (whoOf 0 i) grp s).1 = .ok) ∧
    (let s := upd grp (fun r => { r with phase := .norm, normed := true, sgAll := 0 })
     ∃ i r, runOfGroup s 0 4 = some (i, r) ∧ r.phase = .norm ∧ governing (s.parcel 0) i r = some 0) ∧
    (let s := upd grp (fun r => { r with phase := .pass2, step := 6 })
     ∃ i r, runOfGroup s 0 4 = some (i, r) ∧ r.phase = .pass2 ∧ (gSharded grp && gSkew grp) = false ∧
      (pass2 (whoOf 0 i) r s).1 = .ok) ∧
    (let s := upd grpS (fun r => { r with phase := .voted, votedAt := 0 })
     ∃ i r, runOfGroup s 0 4 = some (i, r) ∧ gSharded grpS = true ∧ r.phase = .voted ∧ gShard grpS = 0 ∧
      (List.range (gShards grpS)).filter (fun k => k != gShard grpS && !(r.votes.map (·.1)).contains k) = [1] ∧
      sealWaitOver s 0 (8192 + 4) i r grpS [1] = true) ∧
    (let s := upd grpS (fun r => { r with phase := .inDoubt, votedAt := 0 })
     ∃ i r, runOfGroup s 0 4 = some (i, r) ∧ r.phase = .inDoubt ∧ r.votedAt ≠ s.time.postmark + 1) ∧
    (let j : Journal := { group := 4, t := 6, decision := some true, at_ := 99 }
     let s := headWith (fun x => { x with journal := [j] })
     journalOf (s.parcel 0) 4 = some j ∧ j.decision = some true ∧ j.applied = false ∧ j.at_ < s.time.postmark ∧
      s.time.cycle < 1024 ∧ s.changes = [] ∧ foldWaits s = false) := by
  refine ⟨⟨_, _, rfl, ?_⟩, ⟨_, _, rfl, ?_⟩, ⟨_, _, rfl, ?_⟩, ⟨_, _, rfl, ?_⟩, ⟨_, _, rfl, ?_⟩, ⟨_, _, rfl, ?_⟩, ?_⟩ <;>
    decide +kernel

/-- A group with program 0, whose first word is UP_ADD u1, u2, u3 and the rest UP_END. -/
def progState : State := { upd (overlay grp 0 [4]) (fun r => { r with phase := .pass2, elem := [0, 0, 1, 2, 3, 4, 5, 6, 7, 8] }) with
  parcels := [(0, { (upd (overlay grp 0 [4]) (fun r => { r with
    phase := .pass2, elem := [0, 0, 1, 2, 3, 4, 5, 6, 7, 8] })).parcel 0 with
      programs := [(0, pay ((2 ^ 26 + 2 ^ 23 + 2 * 2 ^ 18 + 3 * 2 ^ 13, 4) :: List.replicate 15 (0x3F * 2 ^ 26, 4)))] })] }

theorem test_hyps_UpdateProgramsRun : ∃ i r, progRun progState 0 = some (i, r) ∧
    (let w := nth (progOf (progState.parcel 0) ((progState.parcel 0).group r.group)) (nth r.elem 1 0) 0
     upOp w = 1 ∧ upF w = ⟨1, 2, 3, 0⟩) ∧
    upOp (nth (progOf (progState.parcel 0) ((progState.parcel 0).group r.group)) 1 0) = 0x3F := by
  refine ⟨_, _, rfl, ?_⟩
  decide +kernel

/-- A request of a block in its session of baseline 1.2. -/
def req (block op p t : Nat) (body : List Byte) : ZReq :=
  { block := block, env := envHeader 0 op 0 5 body.length p t (if op = 1 then 0 else 65538) 0 ++ body }

/-- A request of the PF owner that names no parcel, and one of the tenancy of block 1. -/
def pf (op : Nat) (body : List Byte) : ZReq := req 0 op 0xFFFF 0xFFFF body
def ten (op : Nat) (body : List Byte) : ZReq := req 1 op 0 0 body

/-- Such requests pass the checks. -/
def pfOk (op : Nat) (form : Option Nat) (body : List Byte) (s : State) : Bool :=
  passes op form (pf op body) 0xFFFF 0xFFFF body s
def pf0Ok (op : Nat) (form : Option Nat) (body : List Byte) (s : State) : Bool :=
  passes op form (req 0 op 0 0xFFFF body) 0 0xFFFF body s
def tenOk (op : Nat) (form : Option Nat) (body : List Byte) (s : State) : Bool :=
  passes op form (ten op body) 0 0 body s

theorem test_hyps_RequestsAreCheckedInOrder :
    (arrives 0x90 none (pf 0x90 [0, 0, 0]) up = true ∧ zCheck (pf 0x90 [0, 0, 0]) up = .refused .badLength) ∧
    (let s := up.modParcel 0 (fun x => { x with running := 3, tenancies := x.tenancies ++ [(3, { mailbox := 2 })] })
     arrives 0x51 (some 2) (ten 0x51 (overlay (zeros 32) 0 [2])) s = true ∧ mayPerform s 0 0 = false ∧
      (match zCheck (ten 0x51 (overlay (zeros 32) 0 [2])) s with
       | .ok z _ p t _ => z.held && p == 0 && t == 0
       | .refused _ => false) = true) ∧
    (let b := (pf 0x91 [0, 0, 0, 0]).env
     le b 0 2 = 0x5A45 ∧ le b 2 1 = 1 ∧ le b 3 1 = 0 ∧ le b 12 4 ≤ 960 ∧ le b 6 2 = 0 ∧ allZero b 24 40 = true ∧ 64 + le b 12 4 ≤ b.length ∧
      le b 4 2 ≠ 1 ∧ sessionOf up 0 = some ⟨2, 65538⟩ ∧ 65538 = le b 20 4 ∧ specOf 0x91 = some { minor := 1 } ∧
      specOf 0x03 = none ∧ privileged { minor := 1 } (ticketOf (ten 0x91 [0, 0, 0, 0]) up) up = false) ∧
    (let s : State := { up with blocks := [(0, { enable := true, session := some ⟨2, 65536⟩ })] }
     sessionOf s 0 = some ⟨2, 65536⟩ ∧ 65536 % 65536 < 1) ∧
    (let r : ZReq := { block := 0, env := (req 0 1 0xFFFF 0xFFFF (zeros 36)).env.set 20 1 }
     le r.env 4 2 = 1 ∧ le r.env 20 4 ≠ 0 ∧ zCheck r up = .refused .badBaseline) := by decide +kernel

theorem test_hyps_RefusedRequestsChangeNothing : (0x91, none, Instr.periodSet) ∈ zRows ∧
    zCheck (pf 0x91 [0, 0, 0]) up = .refused .badLength ∧ ∃ t, exec (.periodSet (pf 0x91 [0, 0, 0])) up = .next t :=
  ⟨by simp [zRows], by decide +kernel, _, rfl⟩

theorem test_hyps_RepliesLandWhereTheyBelong :
    (let tk : Ticket := { block := 1, session := 9 }
     tk.dead = false ∧ tk.indirect = none ∧ staleTicket up tk = true) ∧
    (let tk : Ticket := { block := 1, session := 1, slot := some 3 }
     tk.dead = false ∧ staleTicket up tk = false ∧ boundTo up 1 = some (0, 0) ∧ isSealed up 0 = false ∧ boundTo up 64 = none ∧
      (hostReach up 1 ((up.block 1).env.addr 3 2048 + 1024) 64).isSome = true) ∧
    isSealed (up.modParcel 0 (fun x => { x with state := .isSealed })) 0 = true := by decide +kernel

theorem test_hyps_ParcelCommands_sessions : (passes 0x01 none (req 0 1 0xFFFF 0xFFFF (zeros 36)) 0xFFFF 0xFFFF (zeros 36) up = true ∧
    ((taken (req 0 1 0xFFFF 0xFFFF (zeros 36)) up).block 0).open_ = 0 ∧ le (zeros 36) 2 2 ≠ 0xFFFF) ∧ pfOk 0x02 none [] up = true ∧
    (passes 0x01 none (req 64 1 0xFFFF 0xFFFF (zeros 36)) 0xFFFF 0xFFFF (zeros 36) up = true ∧ up.bmcOpen = 0) ∧
    (let s := up.modBlock 0 (fun b => { b with open_ := 1 })
     passes 0x01 none (req 0 1 0xFFFF 0xFFFF (zeros 36)) 0xFFFF 0xFFFF (zeros 36) s = true ∧ (s.block 0).open_ ≠ 0) := by
  decide +kernel


/-- PARCEL_CREATE NEW: quad 1, one tenancy on block 2 and one lot in slot 0. -/
def newBody : List Byte := pay [(0, 1), (1, 1), (1, 2), (0, 4), (2, 8)] ++ zeros 16 ++ pay [(2, 1), (0, 1), (10, 2), (0, 2)]
  ++ zeros 10 ++ (List.range 7).flatMap (fun _ => 0xFF :: zeros 15) ++ pay [(0, 2), (1, 2), (0, 4)]

/-- A request whose payload of n bytes lies in host memory at 2^20, with m bytes for the reply at 2^21. -/
def ireq (block op p t n m : Nat) : ZReq := { block := block, env := (envHeader 2 op 0 5 32 p t 65538 0 ++
    pay [(2 ^ 20, 8), (n, 4), (0, 4), (2 ^ 21, 8), (m, 4), (0, 4)]) }

/-- A state in recovery, whose host memory holds at 2^20 a RESTORE of parcel 1 (quad 1, tenancy 0 on block 2, lot 6). -/
def recov : State := { up with
  parcels := [], recovery := true
  host := { mem := { cells := [(2 ^ 20, 1), (2 ^ 20 + 8, 1), (2 ^ 20 + 10, 1), (2 ^ 20 + 16, 2), (2 ^ 20 + 72, 2), (2 ^ 20 + 74, 9)] ++
    (List.range 7).map (fun k => (2 ^ 20 + 88 + 16 * k, 0xFF)) ++ [(2 ^ 20 + 520, 6), (2 ^ 20 + 523, 0x80)] } } }
/-- Its payload, and the parcel's entry in it. -/
def recovBody : List Byte := memReadN recov.host.mem (2 ^ 20) 5640
def recovEntry : List Byte := recovBody.drop 8

/-- A field of the entry, read straight from the memory. -/
theorem recov_le (o k : Nat) (h : o + k ≤ 5632) : le recovEntry o k = leNat (memReadN recov.host.mem (2 ^ 20 + (8 + o)) k) := by
  have h1 : min k (5640 - 8 - o) = k := by omega
  simp only [le, slice, recovEntry, recovBody, memReadN_drop, memReadN_take, h1, memReadN_length, Nat.sub_self,
    List.replicate_zero, List.append_nil, Nat.add_assoc]

/-- The lot slots that the entry asks for. -/
theorem recov_slots : (askedEntry recovEntry).slots = [(0, false, 0)] := by
  have h : (askedEntry recovEntry).slots = (List.range 1024).filterMap (fun j =>
      let w := leNat (memReadN recov.host.mem (2 ^ 20 + (8 + (512 + 4 * j))) 4)
      if bit w 31 then some (j, bit w 30, leNat (memReadN recov.host.mem (2 ^ 20 + (8 + (4608 + j))) 1)) else none) := by
    simp only [askedEntry]
    apply List.filterMap_congr
    intro j hj
    have hj := List.mem_range.1 hj
    simp only [recov_le (512 + 4 * j) 4 (by omega), recov_le (4608 + j) 1 (by omega)]
  rw [h]
  decide +kernel

theorem recov_asked : askedEntry recovEntry = { askedEntry recovEntry with slots := [(0, false, 0)] } := by
  rw [← recov_slots]

theorem test_hyps_ParcelCommands_restore :
    passes 0x10 (some 1) (ireq 0 0x10 0xFFFF 0xFFFF 5640 64) 0xFFFF 0xFFFF recovBody recov = true ∧
    le recovEntry 0 2 < 48 ∧ le recovEntry 2 1 = 1 ∧ le recovEntry 3 1 = 0 ∧ (recov.parcel (le recovEntry 0 2)).state = .free ∧
    noRoom recov (askedEntry recovEntry) = false ∧ le recovEntry 16 16 = 0 ∧ usedLots recov = [] ∧
    (askedEntry recovEntry).slots = [(0, false, 0)] ∧ badAsk recov (askedEntry recovEntry) = false := by
  refine ⟨by decide +kernel, by decide +kernel, by decide +kernel, by decide +kernel, by decide +kernel, by decide +kernel,
    by decide +kernel, by decide +kernel, recov_slots, ?_⟩
  rw [recov_asked]
  decide +kernel

theorem test_hyps_ParcelCommands_create :
    (let s := up
     pfOk 0x10 (some 0) newBody s = true ∧ s.recovery = false ∧
      (List.range 48).find? (fun q => (s.parcel q).state == .free && (s.parcel q).work == .none) = some 1 ∧
      noRoom s (askedNew newBody) = false ∧ (askedNew newBody).slots.length ≤ (freeLots s).length ∧
      badAsk s (askedNew newBody) = false) ∧
    pfOk 0x10 (some 2) [2] recov = true := by decide +kernel

/-- Block 1's VF in RUN with an IDE stream and a finished SPDM session. -/
def inRun : State := { up with pcie := { up.pcie with tdisp := [(1, .run)], ide := [(1, 0, [])], spdm := [(1, { finished := true, number := 0 })] } }

theorem test_hyps_ParcelCommands_others :
    (pf0Ok 0x11 (some 0) [0] up = true ∧ pf0Ok 0x11 (some 1) [1] up = true ∧ (up.parcel 0).state = .active ∧
      (up.parcel 0).sealPending = false ∧ sealOpen up 0 = false) ∧
    (tenOk 0x12 none [] inRun = true ∧ mayAskSeal inRun 1 = true ∧ inRun.sec.error = false ∧ (inRun.parcel 0).inUse ≠ []) ∧
    (passes 0x13 none (ireq 0 0x13 0 0xFFFF 0 8192) 0 0xFFFF [] up = true) ∧
    (let b := pay [(0, 1), (0, 1), (0, 6), (1, 1), (1, 1), (7, 2), (2, 2)] ++ zeros 10
     let s := up.modParcel 0 (fun x => { x with plans := [], items := [] })
     pf0Ok 0x14 (some 0) b s = true ∧ posBusy s 0 (le b 0 1) = false ∧ ((s.parcel 0).ten (le b 0 1)).mailbox = le b 8 1 ∧
      1 ≤ le b 8 1 ∧ le b 8 1 ≤ 63) ∧
    (let b := pay [(0, 1), (1, 1)] ++ zeros 22
     let s := up.modParcel 0 (fun x => { x with plans := [], items := [], tenancies := x.tenancies ++ [(3, { mailbox := 2 })] })
     pf0Ok 0x14 (some 1) b s = true ∧ posBusy s 0 (le b 0 1) = false ∧ (s.parcel 0).inUse ≠ [le b 0 1] ∧ le b 0 1 ∈ (s.parcel 0).inUse) := by
  decide +kernel

/-- `ring1` without its item, so that the tenancy has none. -/
def calm : State := ring1.modParcel 0 (fun x => { x with items := [] })

/-- A registration and a manifest entry of tenancy 0. -/
def reg0 : Reg := ⟨0, 7, 0, 1, 0, 0, 1, 1⟩
def serving : State := calm.modParcel 0 (fun x => { x with regs := [(2, reg0)], manifest := [(5, { state := 1, reg := 2 })] })

theorem test_hyps_TenancyCommands :
    (tenOk 0x40 (some 0) [1, 0] calm = true ∧ ringOk (calm.block 1).req 4 16 = true ∧ ringOk (calm.block 1).cpl 4 16 = true ∧
      ringOk (calm.block 1).dlr 4 16 = true) ∧
    (tenOk 0x40 (some 1) [1, 1] calm = true ∧ tenItems calm 0 0 = []) ∧
    (tenOk 0x41 none [3, 0, 0, 0] calm = true ∧ (calm.block 1).itemRings = true ∧ (setReqTail 1 3 calm).isSome = true) ∧
    (let b := pay [(0, 1), (0, 1), (9, 2), (0, 4)] ++ overlay grp 2 [0]
     tenOk 0x50 (some 0) b calm = true ∧ groupReserved (slice b 8 160) = true ∧ gLocked ((calm.parcel 0).group 9) = false ∧
      gValid (slice b 8 160) = false) ∧
    tenOk 0x50 (some 1) [1, 0, 9, 0] calm = true ∧
    (let b := pay [(2, 1), (0, 1), (3, 2), (0, 4)] ++ pay (List.replicate 16 (0x3F * 2 ^ 26, 4))
     tenOk 0x50 (some 2) b calm = true ∧ (runWords (progWords (slice b 8 64))).all upWordOk = true ∧ (calm.parcel 0).groups = []) ∧
    tenOk 0x50 (some 3) [3, 0, 3, 0] calm = true ∧
    (let b := pay [(0, 1), (0, 1), (1, 2), (0xFFFF, 2), (1, 2), (0, 4)] ++ zeros 20 ++ pay [(4, 2), (1, 2), (0xFFFFFFFF, 4), (0, 8)]
     tenOk 0x51 (some 0) b calm = true ∧ hasDup ((namedGroups b).map (·.1)) = false ∧ le b 4 2 = 0xFFFF ∧
      (namedGroups b).all (fun g => !gLocked ((calm.parcel 0).group g.1)) = true ∧ roomFor calm 0 0 = true ∧ isSealed calm 0 = false) ∧
    (let b := pay [(1, 1), (0, 1), (1, 2), (0, 8)] ++ zeros 20 ++ pay [(4, 2), (1, 2), (0xFFFFFFFF, 4), (0, 8)]
     let s := upd grpS (fun r => { r with phase := .inDoubt })
     tenOk 0x51 (some 1) b s = true ∧ hasDup ((namedGroups b).map (·.1)) = false ∧
      (namedGroups b).all (fun g => inDoubt s 0 g.1) = true) ∧
    tenOk 0x51 (some 2) (2 :: zeros 31) calm = true ∧ tenOk 0x70 none [1, 0] calm = true := by decide +kernel

theorem test_hyps_TenancyCommands_serving :
    (let b := pay [(0, 8), (77, 4), (0, 1), (0, 1), (2, 2), (50, 4)] ++ zeros 12 ++ List.replicate 8 0xFF
     tenOk 0x80 (some 0) b serving = true ∧ ((serving.parcel 0).manifest.filter (fun e => e.2.state != 0)).length < 4096 ∧
      le b 13 1 = 0 ∧ tblGet (serving.parcel 0).regs (le b 14 2) = some reg0 ∧ reg0.tenancy = 0 ∧ reg0.kvl = 0 ∧
      (∀ k, k < 4 → le b (32 + 2 * k) 2 = 0xFFFF)) ∧
    (tblGet (serving.parcel 0).manifest 5 = some { state := 1, reg := 2 } ∧ (serving.parcel 0).items = [] ∧
      tenOk 0x80 (some 1) [1, 0, 5, 0] serving = true ∧ tenOk 0x80 (some 3) [3, 0, 5, 0] serving = true ∧
      tenOk 0x80 (some 4) [4, 0, 5, 0] serving = true) ∧
    (let s := serving.modParcel 0 (fun x => { x with manifest := [(5, { state := 2, reg := 2 })] })
     tblGet (s.parcel 0).manifest 5 = some { state := 2, reg := 2 } ∧ tenOk 0x80 (some 2) [2, 0, 5, 0] s = true) ∧
    (let b := pay [(5, 8), (7, 4), (0, 2), (1, 2), (2, 2), (1, 1), (1, 1), (1, 2)]
     let s := calm.modParcel 0 (fun x => { x with lots := [(0, ⟨5, false, false, 0⟩), (1, ⟨6, false, false, 0⟩), (2, ⟨7, false, false, 0⟩)] })
     tenOk 0x80 (some 5) b s = true ∧ (List.range 16).find? (fun k => (tblGet (s.parcel 0).regs k).isNone) = some 0 ∧
      [0, 1, 2].all (fun k => plainSlot (s.parcel 0) 0 k) = true ∧ dataSlots (s.parcel 0) = []) ∧
    (let s := serving.modParcel 0 (fun x => { x with manifest := [] })
     tenOk 0x80 (some 6) [6, 0, 2, 0] s = true ∧ tblGet (s.parcel 0).regs 2 = some reg0 ∧ (s.parcel 0).manifest = [] ∧ (s.parcel 0).items = []) ∧
    (let s := serving.modParcel 0 (fun x => { x with manifest := [(5, { state := 1, reg := 2, pendingOp := some 0 })] })
     (tblGet (s.parcel 0).manifest 5).map (·.pendingOp) = some (some 0) ∧ tenOk 0x80 (some 1) [1, 0, 5, 0] s = true) ∧
    pfOk 0xC0 none [3, 0] up = true ∧ tenOk 0xC0 none [3, 0] up = true ∧
    passes 0xC0 none (req 64 0xC0 0xFFFF 0xFFFF [3, 0]) 0xFFFF 0xFFFF [3, 0] { up with bmcSession := some ⟨3, 65538⟩ } = true := by
  decide +kernel

/-- A plan image of 1,088 bytes for core 0: one segment of one bundle, `ct.end` with DELTA 1. -/
def endBody : List Byte := [(0, pay [(0x4E414C50, 4), (2, 2), (256, 2), (1088, 8), (9, 4), (0, 2), (1, 2), (0, 4), (16, 4), (1, 2), (0, 2),
    (0, 4), (320, 8), (256, 8), (384, 8), (960, 8)]),
  (264, pay [(704, 8)]), (320, pay [(1, 4), (100, 4)]), (704, pay [(0, 2), (1, 2), (0, 4), (224, 8), (192, 4), (1, 2)]),
  (704 + 192, pay [(0xFC00040000000000, 8)])].foldl (fun b x => overlay b x.1 x.2) (zeros 960)
def endImage : List Byte := endBody ++ sha256 endBody ++ zeros 96

/-- Host memory with that image at 2^22. -/
def withImage : State := { calm with
  host := { mem := { cells := (endImage.zipIdx.filter (fun x => x.1 != 0)).map (fun x => (2 ^ 22 + x.2, x.1)) } } }

theorem test_hyps_DataCommands_planLoad :
    (let s := withImage
     let b := pay [(2 ^ 22, 8), (1088, 8), (0, 2), (0, 2), (4096, 4)]
     tenOk 0x20 none b s = true ∧ slotsIn 4096 1088 = [0] ∧
      (tblGet (s.parcel 0).lots 0).any (fun e => !e.classA && e.owner == 0) = true ∧ dataSlots (s.parcel 0) = [] ∧
      (s.parcel 0).plans.all (fun v => decide (v.slot * 2 ^ 30 + v.offset + v.image.length ≤ 4096)) = true ∧
      ((s.parcel 0).variants 0 9).length < 8) := by decide +kernel

theorem test_hyps_DataCommands_image : layoutFail endImage = none ∧ signatureOk endImage [] = true ∧
    [0, 1, 2, 3].all (fun k => (partFail (calm.parcel 0) 0 endImage k).isNone) = true ∧
    (match (List.range (imgSegments endImage)).foldlM (fun y k => segmentFail calm 0 0 endImage k y) ([] : Tbl Int) with
     | .ok _ => true
     | .error _ => false) = true := by decide +kernel

theorem test_hyps_DataCommands_read : hostRead withImage 1 (2 ^ 22) 1088 = some endImage := by decide +kernel

theorem test_hyps_DataCommands_write : (pvWrite 0 0 4096 endImage false (0, 0xFFFFFFFF) { ten := 0 } calm).1 = .ok := by
  decide +kernel

theorem test_hyps_DataCommands_others :
    (tenOk 0x21 none (pay [(7, 4), (16, 4)]) calm = true ∧ (calm.parcel 0).plans.any (fun v => v.itemId == 7 && v.classMax == 16) = true) ∧
    (let b := pay [(2 ^ 22, 8), (256, 8), (512, 8), (0, 1)]
     tenOk 0x30 (some 0) b calm = true ∧ rangeHeld (calm.parcel 0) 0 512 256 = true ∧ rangePlan (calm.parcel 0) 512 256 = false ∧
      ((calm.parcel 0).ten 0).ledger.length < 4096 ∧ hostRead calm 1 (2 ^ 22) 256 = some (zeros 256) ∧
      (pvWrite 0 0 512 (zeros 256) false (0, 0xFFFFFFFF) { ten := 0 } calm).1 = .ok) ∧
    (let s := (List.range 12).foldl (fun s k => s.setStack k { unreachable := true }) calm
     tenOk 0x30 (some 0) (pay [(2 ^ 22, 8), (256, 8), (512, 8), (0, 1)]) s = true ∧
      (pvWrite 0 0 512 (zeros 256) false (0, 0xFFFFFFFF) { ten := 0 } s).1 ≠ .ok) ∧
    (let h := pay [(0x50415257, 4), (1, 2), (0, 1), (12, 1), (0, 8), (0, 8)] ++ zeros 40
     let s : State := { calm.modTen 0 0 (fun y => { y with keys := [(0, ⟨zeros 32, [], 0⟩)] }) with host := { mem := memWriteN {} (2 ^ 22) h } }
     tenOk 0x30 (some 1) (pay [(2 ^ 22, 8), (64, 8), (512, 8), (1, 1)]) s = true ∧ s.sec.error = false ∧
      hostRead s 1 (2 ^ 22) 64 = some h ∧ wrapOk h 64 = true ∧ rangeHeld (s.parcel 0) 0 512 (le h 16 8) = true ∧
      rangePlan (s.parcel 0) 512 (le h 16 8) = false ∧ (tblGet ((s.parcel 0).ten 0).keys (le h 6 1)).isSome = true ∧
      (le h 16 8 + 2 ^ le h 7 1 - 1) / 2 ^ le h 7 1 = 0) ∧
    (let b := pay [(2 ^ 22, 8), (64, 8), (512, 8)]
     tenOk 0x31 none b calm = true ∧ tenOk 0x32 none b calm = true ∧ rangeHeld (calm.parcel 0) 0 512 64 = true ∧
      rangePlan (calm.parcel 0) 512 64 = false ∧ hostRead calm 1 (2 ^ 22) 64 = some (zeros 64) ∧
      (let d := pvRead 0 0 512 64 false { ten := 0 } calm
       (hostWrite d.2.2.2 1 (2 ^ 22) d.2.2.1).isSome = true)) ∧
    tenOk 0x60 (some 1) (pay [(1, 1), (0, 7)] ++ zeros 32) calm = true ∧
    (let s : State := { up with host := { mem := { cells := [(2 ^ 20, 2)] } } }
     passes 0x60 (some 2) (ireq 0 0x60 0xFFFF 0xFFFF 40 2048) 0xFFFF 0xFFFF (2 :: zeros 39) s = true ∧ s.sec.error = false) := by
  decide +kernel


/-- The module drained for maintenance. -/
def drained : State := { up with power := { up.power with drainOn := true } }

/-- HBM_REPAIR of the row that granule 0 of pseudo-channel 0 lies in. -/
def rowBody : List Byte := [1, 0, 0, 0] ++ leBytes (Config.rowOf 0 0).toNat 4

theorem row_is_checked : zCheck (pf 0xA1 rowBody) drained = .ok { form := some 0 } 1 0xFFFF 0xFFFF rowBody := by rfl

theorem test_hyps_MaintenanceCommands_row : passes 0xA1 (some 1) (pf 0xA1 rowBody) 0xFFFF 0xFFFF rowBody drained = true ∧ (0 : Nat) < 2 ^ 22 ∧
    (Config.rowOf (64 * le rowBody 1 1 + 2 * le rowBody 2 1 + le rowBody 3 1) 0).toNat = le rowBody 4 4 ∧
      rowLeft drained (le rowBody 1 1) = true := by
  have h : arrives 0xA1 (some 1) (pf 0xA1 rowBody) drained = true := by decide +kernel
  have h1 : le rowBody 1 1 = 0 ∧ le rowBody 2 1 = 0 ∧ le rowBody 3 1 = 0 := by decide +kernel
  have h4 : le rowBody 4 4 = (Config.rowOf 0 0).toNat := by
    have hl := (Config.rowOf 0 0).isLt
    simp [rowBody, le, slice, leBytes, leNat]
    omega
  refine ⟨by simp [passes, h, row_is_checked], by decide, by rw [h4]; simp [h1], ?_⟩
  simp only [h1.1]
  decide +kernel

theorem test_hyps_MaintenanceCommands :
    pfOk 0x90 none [0xFF, 0xFF] up = true ∧
    ([66048, 3300032, 66000000].all (fun n => pfOk 0x91 none (leBytes n 4) up && n % 64 == 0 && !periodBusy up n) = true ∧
      up.fed.federated = false) ∧
    (pfOk 0xA0 (some 0) [0] up = true ∧ up.power.drainOn = false ∧ up.changes = []) ∧
    (pfOk 0xA0 (some 1) [1] drained = true ∧ drained.changes = []) ∧ (pfOk 0xA1 (some 0) (zeros 8) up = true ∧ up.power.holdOn = false) ∧
    (pfOk 0x90 none [0, 0] up = true ∧ (up.parcel 0).state ≠ .free) ∧
    (pfOk 0xA1 (some 2) (pay [(2, 1), (11, 1), (0, 2), (7, 4)]) drained = true ∧ drained.power.holdOn = false ∧ laneLeft drained 11 = true) ∧
    (pfOk 0xA2 none [0, 11, 31, 0, 1, 32] drained = true ∧ bit ((tblGet drained.store.folds 11).getD 0) 31 = false ∧
      (drained.stack 11).foldDue = none) ∧
    pfOk 0xB0 none [0xFF, 0xFF] up = true ∧ pfOk 0xB0 none [223, 0] up = true ∧
    (pfOk 0xB1 none (pay [(1, 2), (24, 2)]) fenced1 = true ∧ pfOk 0xB1 none (pay [(1, 2), (0xFFFF, 2)]) fenced1 = true ∧
      (fenced1.cmeta 1).state = .fenced ∧ (parcelOfCore fenced1 1).isSome = true ∧ 24 ∈ reserves fenced1 0) ∧
    (pfOk 0xF0 none (pay [(2 ^ 22, 8), (64, 8)]) up = true ∧ hostRead up 0 (2 ^ 22) 64 = some (zeros 64)) ∧
    (let s : State := { up with store := { up.store with staged := some 1 } }
     pfOk 0xF1 none [] s = true ∧ s.store.staged = some 1) := by decide +kernel

/-- The package is member 5 of federation 3, with ports 0 and 1 up; parcel 0 has a POINT channel 2 to member 9 and a
COLLECTIVE channel 3 with it. -/
def fedS : State := { calm with
  blocks := up.blocks.take 1 ++ calm.blocks
  fed := { federated := true, aligned := true, number := 3, member := 5, datum := 1, upstream := 0, lostMembers := [12] }
  ports := [(0, { st := .up }), (1, { st := .up })]
  parcels := [(0, { calm.parcel 0 with channels := [(2, { kind := 1, peerMember := 9 }), (3, { kind := 2, members := [5, 9] })] })] }

/-- R513, R524: one credit is 4 KiB, however many frames carry it; the rest of the message waits for the peer. -/
theorem test_stream_credit :
    let st (n k : Nat) : State := fedS.modParcel 0 (fun x => { x with
      channels := tblPut x.channels 2 { (x.chan 2) with
        streams := [(7, { tx := zeros n, txDl := [{ left := n, dl := 5 }], credit := k, used := 4094 })] } })
    let f (n k : Nat) : Option Stream × List Nat :=
      let s := flushTx 0 2 7 3 (st n k)
      (tblGet ((s.parcel 0).chan 2).streams 7, s.fed.waits.map (·.key))
    f 1 1 = (some { credit := 1, used := 4095 }, []) ∧
      f 3 1 = (some { tx := [0], txDl := [{ left := 1, sent := 2, dl := 5 }], credit := 0 }, [512 + 7]) ∧
      f 3 2 = (some { credit := 1, used := 1 }, []) := by decide +kernel

/-- R513: the frames of one message of 4,100 bytes: OFFSET counts from its first byte, and LAST stands in its last frame. -/
theorem test_stream_frames :
    (let routed : State := { fedS with fed := { fedS.fed with routes := [(9, 1)] } }
     let s := flushTx 0 2 7 3 (routed.modParcel 0 (fun x => { x with channels := tblPut x.channels 2 { (x.chan 2) with
       streams := [(7, { tx := zeros 4100, txDl := [{ left := 4100, dl := 5 }], credit := 2 })] } }))
     s.outputs.filterMap (fun o => match o with
       | .frame _ b => some (fLen b, fOffset b, fLast b)
       | _ => none)) = [(4096, 0, false), (4, 4096, true)] := by decide +kernel

theorem test_hyps_FederationCommands :
    pfOk 0xD0 none [] fedS = true ∧ fedS.fed.upstream ≠ 1 ∧ pfOk 0xD1 (some 0) [1, 0] fedS = true ∧
    pfOk 0xD1 (some 1) [1, 1] fedS = true ∧ pfOk 0xD1 (some 2) [7, 2] fedS = true ∧
    (pfOk 0xD2 none (pay [(8191, 2), (16383, 2), (1, 2), (7, 1), (0, 1), (3300032, 4), (0, 4), (1000, 8)]) up = true ∧
      up.fed.federated = false ∧ up.fed.forming = none) ∧
    (let b := pay [(8191, 2), (16383, 2), (16383, 2), (0xFF, 1), (0, 1), (66048, 4), (0, 4), (100, 8)]
     pfOk 0xD2 none b up = true ∧ le b 2 2 = le b 4 2 ∧ periodOk (le b 8 4) = true ∧ up.time.postmark ≤ le b 16 8 ∧
      periodBusy up (le b 8 4) = false) ∧
    (pfOk 0xD3 none [] fedS = true ∧ fedBusy fedS = false) ∧
    pfOk 0xD4 none (pay [(16382, 2), (2, 2), (0, 4)] ++ [1, 0xFF]) fedS = true ∧
    (pfOk 0xD5 none [12, 0] fedS = true ∧ 12 ∈ fedS.fed.lostMembers) ∧
    (let b := pay [(4, 1), (0, 1), (0, 6), (1, 1), (0xFF, 1), (0, 1), (0, 1), (9, 2), (0, 2), (500, 2)] ++ zeros 54
     tenOk 0xD6 (some 0) b fedS = true ∧ channelOk fedS 0 0 (channelOf b) = true ∧ ((fedS.parcel 0).chan 4).kind = 0 ∧
      (channelOf b).keySlot = 0xFF ∧ channelUsed (fedS.parcel 0) 4 = false) ∧
    (tenOk 0xD6 (some 1) [2, 1] fedS = true ∧ ((fedS.parcel 0).chan 2).tenancy = 0 ∧ channelUsed (fedS.parcel 0) 2 = false) ∧
    tenOk 0xD7 none [4] fedS = true ∧ (tenOk 0xD7 none [2] fedS = true ∧ ((fedS.parcel 0).chan 2).kind ≠ 0) ∧
    (let b := pay [(1, 1), (0, 3), (0, 4), (0, 8)] ++ pay [(0, 1), (0, 1), (0, 1), (0, 1), (3, 2), (0, 2), (0, 8), (4096, 8), (16, 4), (0, 4)]
     tenOk 0xD8 none b fedS = true ∧ (collOps b).all (fun o => collOk (fedS.parcel 0) 0 o) = true ∧
      (allZero b 19 1 && allZero b 44 4) = true ∧ tenItems fedS 0 0 = [] ∧ roomFor fedS 0 0 = true ∧
      ((fedS.parcel 0).ten 0).divHold = false ∧ isSealed fedS 0 = false ∧ fedS.fed.aligned = true) := by decide +kernel

/-- The SPDM connections of the PF and of VF 1 have got as far as they can; VF 1 has a finished session. -/
def spdmS : State := { inRun with pcie := { inRun.pcie with spdmConn := [(0, 3), (1, 3)] } }

/-- A vendor-defined request of an opcode. -/
def vend (op : Nat) (b : List Byte) : List Byte :=
  pay [(0x13, 1), (0xFE, 1), (0, 2), (3, 2), (2, 1), (0x1FD4, 2), (b.length + 1, 2), (op, 1)] ++ b

theorem test_hyps_SecurityRequests :
    (spdmReach spdmS 0 = true ∧ spdmConn spdmS 0 = 3 ∧ spdmReach spdmS 64 = true ∧ spdmReach spdmS 1 = true ∧ spdmConn spdmS 1 = 3 ∧
      spdmS.sec.error = false) ∧
    ([0xE1, 0xE3, 0x81, 0x82, 0x83, 0xE4].all (fun c => let m := pay [(0x13, 1), (c, 1), (0, 30)]
      le m 1 1 == c && le m 0 1 == 0x13 && le m 2 1 == 0 && le m 3 1 == 0) = true) ∧
    (let m : List Byte := [0x13, 0xE0, 0, 0xFF]
     le m 1 1 = 0xE0 ∧ le m 3 1 = 0xFF) ∧
    (let m : List Byte := pay [(0x13, 1), (0xE3, 1), (0, 6), (16, 4), (1, 4)]
     le m 1 1 = 0xE3 ∧ bit (le m 8 4) 4 = true ∧ bit (le m 12 4) 0 = true) ∧
    (bit (le [0x13, 0xE0, 1, 0xFF] 2 1) 0 = true ∧
      onCurve (4 :: slice (pay [(0x13, 1), (0xE4, 1), (0, 38)] ++ (p256Point 1).drop 1) 40 64) = true) ∧
    (let s : State := { spdmS with pcie := { spdmS.pcie with spdm := [(0, { finished := false, number := 0 })] } }
     spdmOf s 0 = some { finished := false, number := 0 }) ∧
    (spdmOf spdmS 1 = some { finished := true, number := 0 } ∧ spdmTenancy spdmS 1 = some (0, 0)) ∧
    [(1, zeros 49), (2, [3]), (3, []), (3, 4 :: zeros 64), (4, 1 :: zeros 32), (4, 2 :: zeros 32)].all (fun x =>
      let m := vend x.1 x.2
      le m 1 1 == 0xFE && le m 0 1 == 0x13 && le m 4 2 == 3 && le m 6 1 == 2 && le m 7 2 == 0x1FD4 && le m 11 1 == x.1 &&
        slice m 12 (le m 9 2 - 1) == x.2) = true := by decide +kernel

theorem test_hyps_Interfaces :
    (let s : State := { inRun with pcie := { inRun.pcie with tdisp := [] } }
     spdmReach s 1 = true ∧ vfExists s 1 = true ∧ tsmOpen s 1 = true ∧ tdispOf s 1 = .unlocked) ∧
    (let s : State := { inRun with pcie := { inRun.pcie with tdisp := [(1, .locked)], tdispNonce := [(1, zeros 32)] } }
     tsmOpen s 1 = true ∧ tdispOf s 1 = .locked ∧ tblGet s.pcie.tdispNonce 1 = some (zeros 32)) ∧
    (spdmReach inRun 1 = true ∧ tsmOpen inRun 1 = true ∧ inRun.sec.error = false) ∧
    (let s := up.modParcel 0 (fun x => { x with state := .isSealed })
     0 ∈ liveParcels s ∧ sealedOrPending s 0 = true) ∧
    (let s : State := { up with store := { up.store with production := false } }
     (∀ p ∈ liveParcels s, sealedOrPending s p = false) ∧ (s.store.production && s.store.dbgPermLock) = false) := by decide +kernel

theorem test_hyps_LeavingRun : (tdispOf inRun 1 = .run ∧ blockFn inRun 1 = 1 ∧ boundTo inRun 1 = some (0, 0)) ∧
    sealedOrPending (inRun.modParcel 0 (fun x => { x with sealPending := true })) 0 = true := by decide +kernel

theorem test_hyps_SidebandCompletes : (up.power.good = true ∧ head.power.ready = true ∧ head.time.cycle < 1024 ∧ sideUp up = true) ∧
    ([[0x80, 0, 2], [0x80, 2, 0x11, 1, 0], [0x80, 2, 0x21, 30, 0], [0x80, 5, 0], [0x80, 1, 0, 9], [0x80, 1, 2, 0], [0x80, 2]].all
      (fun m : List Byte => decide (2 ≤ m.length) && bit (le m 0 1) 7)) = true ∧
    (numericSensor up.telem 1).isSome = true ∧ (numericSensor up.telem 25).isSome = true ∧ (stateSensor up.telem 30).isSome = true ∧
      (stateSensor up.telem 33).isSome = true := by decide +kernel

/-- Block 1 with rings that have moved. -/
def rings : State := ring1.modBlock 1 (fun b => { b with cpl := ⟨131072, 4, 0, 1⟩, dlr := ⟨196608, 4, 0, 1⟩, env := ⟨4096, 4, 0, 0⟩ })

theorem test_hyps_MailboxWrites : regOpen rings 1 1 = true ∧ (rings.block 1).enable = true ∧ (rings.block 1).inlineBusy = false ∧
    ((rings.modBlock 1 (fun b => { b with inlineBusy := true })).block 1).inlineBusy = true ∧
    ((rings.block 1).req.moveTail 16).isSome = true ∧ (rings.block 1).req.moveTail 17 = none ∧ (rings.block 1).req.moveTail 0 = none ∧
    ((rings.block 1).env.moveTail 16).isSome = true ∧ ((rings.block 1).cpl.moveHead 1).isSome = true ∧
    ((rings.block 1).dlr.moveHead 1).isSome = true ∧ boundTo rings 1 = some (0, 0) ∧ hostUp rings = true ∧
    (rings.pfLog.head ≤ 0 ∧ 0 ≤ rings.pfLog.tail) := by decide +kernel

theorem test_hyps_RingIndices : (let q : Ring := ⟨0, 16, 2 ^ 32 - 1, 0⟩
    q.head < 2 ^ 32 ∧ q.tail < 2 ^ 32 ∧ q.log2 ≤ 16 ∧ q.count ≤ 2 ^ q.log2 ∧ (65535 : Nat) < 2 ^ 31 ∧ q.count + 65535 ≤ 2 ^ q.log2 ∧
      ¬ q.count + 65536 ≤ 2 ^ q.log2 ∧ 1 ≤ q.count ∧ ¬ 2 ≤ q.count) := by decide

/-- Window slot 0 leads to slot 0 of parcel 0, for writing too. -/
def windowed : State := { up with pcie := { up.pcie with bar2En := true, windows := [(0, 2 ^ 63 + 2 ^ 62)], atsOn := [1] } }

theorem test_hyps_HostAccesses : hostUp windowed = true ∧ (0 % 256 + 256 ≤ 256 ∧ 255 % 256 + 1 ≤ 256) ∧
    (blockFn windowed 1 = 1 ∧ blockFn windowed 0 = 0 ∧ windowed.power.ready = true ∧ blockSealed windowed 0 = false) ∧
    bar2At windowed 0 false = .go 0 0 0 ∧ bar2At windowed (2 ^ 30 - 1) true = .go 0 0 (2 ^ 30 - 1) ∧ 1 ∈ windowed.pcie.atsOn ∧
    vfExists windowed 1 = true ∧ vfExists windowed 2 = true ∧ vfExists windowed 3 = false ∧ (0x200007 : Nat) < 0x200008 ∧
    (let s : State := { windowed with pcie := { windowed.pcie with cfgReady := false } }
     s.power.good = true ∧ s.pcie.linkUp = true ∧ s.pcie.cfgReady = false) ∧
    (blockFn windowed 0 ∉ windowed.pcie.atsOn ∧ spanOk windowed (4096, 8) = true) ∧
    (blockFn windowed 1 ∈ windowed.pcie.atsOn ∧ 4000 % 4096 + 96 ≤ 4096 ∧ atsPage windowed 1 (4000 / 4096) = some 0) := by
  decide +kernel

/-- R495: with ATS on, an access that crosses a page uses each page's translation, and fails where one is refused; the block of a
function whose ATS is off uses its own addresses. -/
theorem test_ats_translates_pages :
    (let s (t : Option Nat) : State := { windowed with host := { mem := memWriteN {} (7 * 4096) [5], ats := [(1, 2, t)] } }
     hostRead (s (some 7)) 1 (2 * 4096 - 1) 2 = some [0, 5] ∧ hostRead (s none) 1 (2 * 4096 - 1) 2 = none ∧
      hostRead (s none) 0 (2 * 4096 - 1) 2 = some [0, 0]) := by decide +kernel

/-- R501: a window of a released parcel misses until VALID is set again; a write of its other fields does not set it. -/
theorem test_window_lapses :
    let s := lapseWindows 0 windowed
    bar2At s 0 false = .miss ∧ s.pcie.windows = windowed.pcie.windows ∧
      bar2At (wrPf 0x2000 0 (zeros 4) 0 s) 0 false = .miss ∧
      bar2At (wrPf 0x2004 0 (leBytes (2 ^ 31) 4) 0 s) 0 false = .go 0 0 0 := by decide +kernel

theorem test_hyps_PartFailures : (up.power.good = true ∧ quadMembers up 6 = [24, 25, 26, 27] ∧ (up.cmeta 24).state = .reserve ∧ coreUp up 3 = true ∧ coreUp up 223 = false ∧ coreUp up 219 = true ∧
      (up.die 7).lost = false) ∧
    (let s := run.modCore 0 (fun c => { c with upsets := [.bundle true 0] })
     issuing (struck env0 s) = true ∧ (bundleBad (struck env0 s) (s.core env0.core).seq.nextIdx).isSome = true) ∧
    ((2 : Nat) / 4 = 3 / 4 ∧ (2 : Nat) + 1 = 3) ∧ (3 : Nat) + 4 = 7 := by decide +kernel

/-- A CRC has 64 bits. -/
theorem crc64Bit_lt (c : Nat) : crc64Bit c < 2 ^ 64 := by
  unfold crc64Bit
  split
  · exact Nat.xor_lt_two_pow (Nat.mod_lt _ (by decide)) (by decide)
  · exact Nat.mod_lt _ (by decide)

theorem crc64_lt (bs : List Byte) : crc64 bs < 2 ^ 64 := by
  have h : ∀ (bs : List Byte) (c : Nat), c < 2 ^ 64 → bs.foldl crc64Byte c < 2 ^ 64 := by
    intro bs
    induction bs with
    | nil => exact fun _ h => h
    | cons b r ih =>
      refine fun c _ => ih _ ?_
      unfold crc64Byte
      rw [show List.range 8 = List.range 7 ++ [7] from rfl, List.foldl_append]
      exact crc64Bit_lt _
  exact Nat.xor_lt_two_pow (h bs _ (by decide)) (by decide)

/-- A flit of type t and sequence number q, its first content byte b, and the number c in its CRC field; no content beyond. -/
def flitBody (t q b : Nat) : List Byte := pay [(t, 1), (0, 1), (q, 2), (0, 4), (b, 1), (0, 239)]
def flitBy (h : List Byte) (c : Nat) : List Byte := h ++ leBytes c 8

theorem flit_fields (h : List Byte) (c : Nat) (hl : h.length = 248) : (flitBy h c).length = 256 ∧ (flitBy h c).take 248 = h ∧
    le (flitBy h c) 248 8 = c % 2 ^ 64 ∧ ∀ o k, o + k ≤ 248 → le (flitBy h c) o k = le h o k := by
  have h8 : (leBytes c 8).length = 8 := rfl
  refine ⟨by rw [flitBy, List.length_append, hl, h8], List.take_left' hl, ?_, fun o k ho => ?_⟩
  · simp only [le, slice, flitBy, List.drop_left' hl]
    simp [leBytes, leNat]
    omega
  · rw [le, le, slice, slice, flitBy, List.drop_append_of_le_length (by omega), List.take_append_of_le_length (by simp; omega)]

/-- Flits in order, of content and of a replay request, one too early, one that came before, and one whose CRC is wrong. -/
theorem test_hyps_PortEvents_flit :
    (∀ x ∈ [(0, 0, 0), (1, 0, 0), (2, 0, 1), (1, 3, 0), (1, 4095, 0)], let h := flitBody x.1 x.2.1 x.2.2
      let f := flitBy h (crc64 h)
      f.length = 256 ∧ crc64 (f.take 248) = le f 248 8 ∧ le f 0 1 = x.1 ∧ le f 2 2 % 4096 = x.2.1 ∧ le f 8 1 = x.2.2) ∧
    ((fedS.port 0).st = .up ∧ (fedS.port 0).mode8023 = false ∧ (fedS.port 0).rxNext = 0 ∧ (fedS.port 0).replayTo = none) ∧
    (let f := flitBy (zeros 248) (crc64 (zeros 248) + 1)
     f.length = 256 ∧ crc64 (f.take 248) ≠ le f 248 8) := by
  refine ⟨fun x hx => ?_, by decide +kernel, ?_⟩
  · have hb : (flitBody x.1 x.2.1 x.2.2).length = 248 ∧ le (flitBody x.1 x.2.1 x.2.2) 0 1 = x.1 ∧
        le (flitBody x.1 x.2.1 x.2.2) 2 2 % 4096 = x.2.1 ∧ le (flitBody x.1 x.2.1 x.2.2) 8 1 = x.2.2 := by
      revert x
      decide +kernel
    have hc := crc64_lt (flitBody x.1 x.2.1 x.2.2)
    have g := flit_fields (flitBody x.1 x.2.1 x.2.2) (crc64 (flitBody x.1 x.2.1 x.2.2)) hb.1
    refine ⟨g.1, ?_, ?_, ?_, ?_⟩
    · rw [g.2.1, g.2.2.1]; omega
    · rw [g.2.2.2 0 1 (by omega)]; exact hb.2.1
    · rw [g.2.2.2 2 2 (by omega)]; exact hb.2.2.1
    · rw [g.2.2.2 8 1 (by omega)]; exact hb.2.2.2
  · have hc := crc64_lt (zeros 248)
    have g := flit_fields (zeros 248) (crc64 (zeros 248) + 1) List.length_replicate
    refine ⟨g.1, ?_⟩
    rw [g.2.1, g.2.2.1]; omega

/-- R504, R506: a frame of 300 bytes is cut out of the contents of the two flits that carry it, filler before it or not. -/
theorem test_frames_cut_from_flits :
    (let fr : List Byte := pay [(1, 1), (0, 11), (268, 4)] ++ List.replicate 284 9
     (flitsOf 4095 3 fr).map (·.1) = [4095, 0] ∧
      cutFrames 20 (zeros 5 ++ (flitsOf 4095 3 fr).flatMap (fun f => slice f.2 8 240)) = ([fr], [])) := by decide +kernel

/-- R510: a Courier frame comes out of the Ethernet frame that carries it, padding or not, and not where a byte has changed. -/
theorem test_8023_round_trip :
    [32, 60].all (fun n => let fr : List Byte := pay [(1, 2), (5, 2), (9, 2), (3, 2), (0, 4), (n - 32, 4)] ++ List.replicate (n - 16) 7
      let e := wrap8023 3 5 9 fr
      decide (64 ≤ e.length) && unwrap8023 3 e == fr && unwrap8023 3 (e.set 20 1) == []) = true := by decide +kernel

theorem test_hyps_PortEvents : (fedS.port 0).st = .up ∧ ((fedS.setPort 0 { st := .training }).port 0).st = .training ∧
    ((fedS.setPort 7 { st := .down }).port 7).st = .down ∧
    (bit (fedS.port 0).failed 4 = false ∧ bit (fedS.port 0).active 4 = false ∧ bit (fedS.port 0).active 0 = true ∧ (fedS.port 0).failed = 0) ∧
    (let x := (fedS.setPort 0 { st := .up, failed := 1, active := 0x1E }).port 0
     bit x.failed 4 = false ∧ bit x.active 4 = true ∧ bit x.failed 0 = true) := by decide +kernel

/-- A frame from member 9 on a channel of parcel 0, marked as the last. -/
def frame (ty dest ch hops : Nat) (body : List Byte) : CFrame :=
  ⟨0, pay [(ty, 1), (2, 1), (dest, 2), (9, 2), (3, 2), (0, 1), (ch, 1), (4, 1), (hops, 1), (body.length, 4), (0, 4), (0, 4), (0, 8)] ++ body, false⟩

/-- Such a frame is for this package and is opened to its payload. -/
def opens (ty ch : Nat) (body : List Byte) (s : State) : Bool :=
  let fr := frame ty 5 ch 32 body
  (received s fr == fr) && forUs s fr ty && (openFrame (fParcel fr.bytes) (fChan fr.bytes) fr.bytes s).1 == some body && fOffset fr.bytes == 0 && fLast fr.bytes

theorem test_hyps_CourierFrames :
    (fedS.parcel 0).state ≠ .free ∧
    (opens 0x01 2 [1, 2, 3] fedS = true ∧ opens 0x02 2 [0, 1, 0, 0] fedS = true ∧ opens 0x03 2 [] fedS = true ∧
      ((fedS.parcel 0).chan 2).kind = 1 ∧ ((fedS.parcel 0).chan 2).peerMember = 9) ∧
    (opens 0x01 3 [1, 2] fedS = true ∧ opens 0x04 3 [] fedS = true ∧ opens 0x05 3 [0xFF, 0x0F, 0, 0] fedS = true ∧
      ((fedS.parcel 0).chan 3).kind = 2 ∧ srcRank ((fedS.parcel 0).chan 3) 9 true = some 1 ∧ srcRank ((fedS.parcel 0).chan 3) 9 false = some 1) ∧
    ([0x20, 0x21, 0x22].all (fun ty => opens ty 3 (zeros 16) fedS) = true ∧ opens 0x24 3 (zeros 24) fedS = true ∧ opens 0x25 3 (zeros 24) fedS = true) ∧
    (let s := (upd grpS (fun r => { r with phase := .inDoubt, step := 6 })).modParcel 0 (fun x => { x with
       channels := (fedS.parcel 0).channels })
     let t : State := { s with fed := fedS.fed, ports := fedS.ports }
     opens 0x23 3 (pay [(4, 2), (0, 2), (6, 4), (1, 1), (0, 7)]) t = true ∧
      (runOfGroup t 0 4).any (fun x => x.2.phase == .inDoubt && x.2.step == 6) = true) ∧
    (let fr := frame 0x01 7 2 2 []
     received fedS fr = fr ∧ fSrc fr.bytes ∉ fedS.fed.lostMembers ∧ portOpen fedS fr = true ∧ fDest fr.bytes ≠ fedS.fed.member ∧ fType fr.bytes ≠ 0x11 ∧ 2 ≤ fHops fr.bytes) ∧
    (received fedS (frame 0x10 5 0 32 (zeros 8)) = frame 0x10 5 0 32 (zeros 8) ∧ forUs fedS (frame 0x10 5 0 32 (zeros 8)) 0x10 = true ∧ fLen (frame 0x10 5 0 32 (zeros 8)).bytes = 8 ∧ fedS.fed.holdSeen = []) ∧
    (let b := (frame 0x11 5 0 2 (zeros 20)).bytes
     fedS.power.ready = true ∧ fedS.fed.member ≠ fedS.fed.datum ∧ 0 = fedS.fed.upstream ∧ fFed b = fedS.fed.number ∧ fWhole b = true ∧
      fLen b = 20 ∧ fSrc b ∉ fedS.fed.lostMembers ∧ 2 ≤ fHops b) := by decide +kernel

theorem test_hyps_FederationEvents :
    (let w : Wait := ⟨0, 2, 4, 9, 0, 0⟩
     let s : State := { fedS with fed := { fedS.fed with waits := [w] } }
     s.fed.waits.find? (fun w => w.member == 9 && w.channel == 2 && waitOver s w) = some w) ∧
    ([(100, 0), (0, 8)].all (fun x =>
      let f : Fed := { fedS.fed with noTick := x.1, outFrames := x.2 }
      f.federated && f.aligned && decide (f.offset = 0) && decide (100 ≤ f.noTick ∨ 8 ≤ f.outFrames)) = true ∧ fedS.fed.member ≠ fedS.fed.datum) ∧
    (let s : State := { fedS with fed := { fedS.fed with aligned := false, inFrames := 8 } }
     s.fed.federated = true ∧ s.fed.aligned = false ∧ s.fed.member ≠ s.fed.datum ∧ 8 ≤ s.fed.inFrames) ∧
    (let s : State := { head with
       fed := { upstream := 0, forming := some ({ block := 0 }, 0, 0), quiet := true, lengthened := true, samples := List.replicate 8 0, offset := -132, tickPostmark := 200, tickPeriod := 3300032 }
       changes := [(99, .fedJoin)] }
     s.fed.forming = some ({ block := 0 }, 0, 0) ∧ s.fed.upstream ≠ 0xFF ∧ s.fed.quiet = true ∧ s.fed.lengthened = true ∧ s.fed.astray = false ∧
      (turnIn s Change.joins).isSome = true ∧ s.time.postmark ≤ s.fed.tickPostmark + 1 + s.fed.noTick ∧ periodBusy s s.fed.tickPeriod = false) := by decide +kernel

theorem test_hyps_EventsAreLogged :
    (let l : EvLog := { recs := [(1, { postmark := 5, kind := 1 }), (2, { postmark := 6, kind := 1 })], tail := 2 }
     (1 ≤ 2 ∧ ∀ r ∈ l.recs, r.1 ≤ l.tail) ∧ (∃ r ∈ l.recs, r.1 + 2 = l.tail + 1 ∧ l.head < r.1) ∧
      (∀ r ∈ l.recs, r.1 + 2 = ({ l with head := 1 } : EvLog).tail + 1 → r.1 ≤ ({ l with head := 1 } : EvLog).head)) ∧
    sealedOrPending (up.modParcel 0 (fun x => { x with state := .isSealed })) 0 = true := by decide +kernel

theorem test_hyps_DeedsSayWhatIsTrue : (zeros 32).length = 32 ∧ 47 < 65536 ∧ 7 < 256 ∧ up.sec.measure.flatten.length = 256 ∧
    ((up.modParcel 0 (fun x => { x with sealedAt := 7 })).parcel 0).sealedAt ≠ 0 ∧ (up.parcel 0).sealedAt = 0 := by decide +kernel

/-! The manual's worked examples. -/

/-- 04, worked encoding: the bundle of the manual's four words is F0's SWAP pass beside CT_STEP, its control word first. -/
theorem test_worked_encoding :
    decodeBundle (pay [(0x00001C0000440000, 8), (0, 8), (0, 8), (0x0400301F08000000, 8)]) =
      .ok ⟨[.pass { array := 0, swap := true, add := true, nvec := 31, vreg := 1 }],
        .step { delta := 7, incaDst := 2, incaSrc := 4 }, 0⟩ := by rfl

/-- 08, worked examples: the granule at 0x12_3456_7800, and where it moves when HS8's channel 14 is folded. -/
theorem test_worked_granule_and_fold : hashOf 0x1234567800 = (541, 397682) ∧ granOf 541 397682 = 0x12345678 ∧
    541 = 64 * 8 + 29 ∧ foldPlace 14 1 397682 = (14, 4135182) := by decide +kernel

/-- 06, worked example: the home of that line among three cache-mode granules. -/
theorem test_worked_home : homeOf { granules := [(1, 14, true), (1, 15, true), (5, 15, true)] } 0x1234567800 = some (1, 15) := by
  decide +kernel

/-- 02, worked example: one MXFP8 block; −0.3 and 0.001 as their nearest FP32 codes. -/
theorem test_worked_mxfp8_block :
    quantBlock fmtE4M3 ([0x447A0000, 0x40E00000, 0xBE99999A, 0x3A83126F].map f32) =
      (0x80, [0x7E, 0x46, 0xA2, 0x00], [.none, .none, .none, .none]) := by decide +kernel

/-- 05, worked example: an element of a block whose largest magnitude is 20.0; 2.857722 as its nearest FP32 code. -/
theorem test_worked_silu_block : (let q := quantBlock fmtE4M3 ([0x4036E4EB, 0x41A00000].map f32)
    q.1 = 0x7B ∧ q.2.1 = [0x63, 0x7A]) := by decide +kernel

/-- The AdamW group of 10's worked example: LR 0.001, WD 0.1, BETA1 0.9, BETA2 0.999, EPS 10^−8, STEP 0. -/
def adamW : List Byte := overlay (zeros 160) 0 (pay [(1, 1), (0, 1), (1, 2), (0, 4), (0x3A83126F, 4), (0x3DCCCCCD, 4),
  (0x3F666666, 4), (0x3F7FBE77, 4), (0x322BCC77, 4)])

/-- 10, worked example: one element with w = 0.5 and g = 2^−7: the stored weight, and the moments in their blocks. -/
theorem test_worked_adamw_element :
    (let c := (upConst adamW one32 one32).1
     let x := elemUpdate adamW c [] 0 (rowPow adamW c none) 0 0x3F000000 0x3C000000 0 0
     (narrowW adamW x.w).1 = 0x3EFF ∧ (quantBlock fmtE4M3 [f32 x.m]).1 = 0x6C ∧ (quantBlock fmtE4M3 [f32 x.m]).2.1 = [0x7D] ∧
      (quantBlock fmtUE5M3 [f32 x.v]).1 = 0x57 ∧ (quantBlock fmtUE5M3 [f32 x.v]).2.1 = [0xF8]) := by decide +kernel

/-- R16: the magic of an envelope lies with its low byte first. -/
theorem test_envelope_magic : (envHeader 0 1 0 0 0 0 0 0 0).take 2 = [0x45, 0x5A] := by decide +kernel

/-- R71: products of infinities of both signs make a column's result NaN; a sum of zero products is +0. -/
theorem test_column_of_infinities : (dot 1 1 [0x7C, 0xFC] [0x3C, 0x3C] 127 127).1 = 0x7FC00000 ∧
    (dot 0 0 [0x00, 0x80] [0x38, 0x38] 127 127).1 = 0 := by decide +kernel

/-- 05, worked example: sigm(3.0) = 0.9525741, of which every choice stays within 2 units in the last place. -/
theorem test_worked_sigm : (List.range 6).all (fun k =>
    let c := sigmCode k false 3 0
    decide (0x3F73DBE4 ≤ c ∧ c ≤ 0x3F73DBE8)) = true := by decide +kernel

/-- R23: the published examples of FIPS 180-4 (SHA-256 of "abc"), RFC 4231 (HMAC, case 1), the GCM of a 256-bit key of zeros on
an empty text, and RFC 6979 A.2.5 (an ECDSA signature of SHA-256 of "sample"). -/
theorem test_sha256_hmac : be (sha256 (ascii "abc")) = 0xba7816bf8f01cfea414140de5dae2223b00361a396177a9cb410ff61f20015ad ∧
    be (hmac (List.replicate 20 0x0b) (ascii "Hi There")) =
      0xb0344c61d8db38535ca8afceaf0bf12b881dc200c9833da726e9376c2e32cff7 := by decide +kernel

theorem test_gcm_of_nothing : be (gcmTag (aesKeys (zeros 32)) (zeros 12) [] []) = 0x530f8afbc74536b9a963b4f1c4cb738b := by
  decide +kernel

theorem test_ecdsa_sign : ecdsaSign 0xC9AFA9D845BA75166B5C215767B1D6934E50C3DB36E89B127B8A622B120F6721
    0xA6E3C57DD01ABE90086538398355DD4C3B17AA873382B0F24D6129493D8AAD60 (sha256 (ascii "sample")) =
      (0xEFD48B2AACB6A8FD1140DD9CD45E81D69D2C877B56AAF991C34D0EA84EAF3716,
       0xF7CB1C942D657C41D436C7A1B6E29F65F3E900DBB9AFF4064DC4AB2F843ACDA8) := by decide +kernel

end Sys2Proof.Tests
end

section
/-! SUPPORT. Two's complement codes, the integer additions of an accumulator and the multiplies of a pass over a whole array
(R73, R103 to R108); the statement about accumulators is settled at the end. -/

namespace Sys2Proof.Machine

/-! Two's complement codes. -/

/-- The library's facts about balanced remainders hold of the values of codes. -/
theorem toSigned_eq_bmod (c n : Nat) : toSigned c (n + 1) = (c : Int).bmod (2 ^ (n + 1)) := by
  unfold toSigned
  rw [Int.bmod_def, ← Int.natCast_emod, Nat.add_sub_cancel]
  have half : (2 : Int) ^ n = ((2 ^ n : Nat) : Int) := (Nat.cast_pow 2 n).symm
  rw [pow_succ, pow_succ, half]
  generalize 2 ^ n = m
  generalize c % (m * 2) = r
  push_cast
  split <;> split <;> omega

/-- Both halves of the range of an (n + 1)-bit code. -/
theorem toSigned_mem_range (c n : Nat) : -2 ^ n ≤ toSigned c (n + 1) ∧ toSigned c (n + 1) < 2 ^ n := by
  have pos : 0 < 2 ^ (n + 1) := by positivity
  have lo := Int.le_bmod (x := c) pos
  have hi := Int.bmod_lt (x := c) pos
  rw [← toSigned_eq_bmod] at lo hi
  push_cast [pow_succ] at lo hi
  omega

theorem toSigned_ofSigned {i : Int} {n : Nat} (lo : -2 ^ n ≤ i) (hi : i < 2 ^ n) :
    toSigned (ofSigned i (n + 1)) (n + 1) = i := by
  have code : (ofSigned i (n + 1) : Int) = i % ((2 ^ (n + 1) : Nat) : Int) := by
    push_cast
    exact Int.toNat_of_nonneg (Int.emod_nonneg _ (by positivity))
  rw [toSigned_eq_bmod, code, Int.emod_bmod]
  apply Int.bmod_eq_of_le <;> push_cast [pow_succ] <;> omega

/-! INT8 sums (R73). -/

/-- A product of two INT8 elements. -/
theorem abs_mul_int8_le (x y : Nat) : |toSigned x 8 * toSigned y 8| ≤ 2 ^ 14 := by
  have elem (c : Nat) : |toSigned c 8| ≤ 2 ^ 7 := by
    obtain ⟨lo, hi⟩ := toSigned_mem_range c 7
    exact abs_le.2 ⟨lo, hi.le⟩
  rw [abs_mul]
  exact mul_le_mul (elem x) (elem y) (abs_nonneg _) (by norm_num)

theorem abs_sum_le_length_mul {l : List Int} {m : Int} (h : ∀ x ∈ l, |x| ≤ m) : |l.sum| ≤ l.length * m := by
  have lo := l.card_nsmul_le_sum (-m) fun x hx => (abs_le.1 (h x hx)).1
  have hi := l.sum_le_card_nsmul m fun x hx => (abs_le.1 (h x hx)).2
  rw [nsmul_eq_mul] at lo hi
  exact abs_le.2 ⟨by linarith, hi⟩

/-- 32 products of INT8 elements stay far within 32 bits, so that nothing is lost in the code of their sum. -/
theorem toSigned_dotInt {xs : List Nat} (ss : List Nat) (h : xs.length ≤ 32) : toSigned (dotInt xs ss) 32 =
    (List.zipWith (fun x s => toSigned x 8 * toSigned s 8) xs ss).foldl (· + ·) 0 := by
  unfold dotInt
  rw [← List.sum_eq_foldl]
  have small : ∀ p ∈ List.zipWith (fun x s => toSigned x 8 * toSigned s 8) xs ss, |p| ≤ 2 ^ 14 := by
    rw [← List.map_uncurry_zip_eq_zipWith]
    simp only [List.mem_map]
    rintro _ ⟨⟨x, s⟩, -, rfl⟩
    exact abs_mul_int8_le x s
  have bound := abs_le.1 (abs_sum_le_length_mul small)
  rw [List.length_zipWith] at bound
  apply toSigned_ofSigned <;> omega

/-! Saturating additions (R73). -/

/-- An addition stops at either end of the range with an overflow, or is exact without one. -/
theorem addInt32_cases {a b : Nat} {x : Int} (sum : x = toSigned a 32 + toSigned b 32) :
    2147483647 < x ∧ addInt32 a b = (0x7FFFFFFF, .overflow) ∨
    x < -2147483648 ∧ addInt32 a b = (0x80000000, .overflow) ∨
    (-2147483648 ≤ x ∧ x ≤ 2147483647) ∧ addInt32 a b = (ofSigned x 32, .none) := by
  subst sum
  unfold addInt32
  dsimp only
  split
  case isTrue above => exact .inl ⟨above, rfl⟩
  case isFalse notAbove =>
    split
    case isTrue below => exact .inr (.inl ⟨below, rfl⟩)
    case isFalse notBelow => exact .inr (.inr ⟨⟨by omega, by omega⟩, rfl⟩)

theorem toSigned_addInt32 (a b : Nat) : toSigned (addInt32 a b).1 32 =
    max (-2147483648) (min 2147483647 (toSigned a 32 + toSigned b 32)) := by
  obtain ⟨above, eq⟩ | ⟨below, eq⟩ | ⟨⟨lo, hi⟩, eq⟩ := addInt32_cases (a := a) (b := b) rfl
  · have top : toSigned 0x7FFFFFFF 32 = 2147483647 := rfl
    rw [eq, top]
    omega
  · have bottom : toSigned 0x80000000 32 = -2147483648 := rfl
    rw [eq, bottom]
    omega
  · rw [eq, toSigned_ofSigned (n := 31) lo (by omega)]
    omega

theorem addInt32_overflow_iff (a b : Nat) : (addInt32 a b).2 = .overflow ↔
    toSigned a 32 + toSigned b 32 < -2147483648 ∨ 2147483647 < toSigned a 32 + toSigned b 32 := by
  obtain ⟨above, eq⟩ | ⟨below, eq⟩ | ⟨⟨lo, hi⟩, eq⟩ := addInt32_cases (a := a) (b := b) rfl
  · simp [eq, above]
  · simp [eq, below]
  · simp [eq, lo, hi]

@[simp] theorem none_excMerge (e : Exc) : excMerge .none e = e := by cases e <;> rfl

/-- R107: a column result that carries no exception yet is added to an INT32 word by `addInt32` alone. -/
theorem accStore_add_int (old val : Nat) : accStore old val .none true true = addInt32 old val := by
  simp [accStore]

theorem countExc_addInt32 (a b : Nat) : countExc [(addInt32 a b).2] =
    if (addInt32 a b).2 = .overflow then [0, 0, 1, 0] else [0, 0, 0, 0] := by
  obtain ⟨_, eq⟩ | ⟨_, eq⟩ | ⟨_, eq⟩ := addInt32_cases (a := a) (b := b) rfl <;> rw [eq] <;> rfl

/-! A column result that falls due (R107, R540). -/

@[simp] theorem Core.heal_array (c : Core) (p : Upset → Bool) (a : Nat) : (c.heal p).array a = c.array a := rfl

/-- A table of words lists no zero, and an unlisted word reads zero. -/
theorem tblGet_putWord_same (t : Tbl Nat) (key v : Nat) :
    (tblGet (if v == 0 then tblDel t key else tblPut t key v) key).getD 0 = v := by
  by_cases h : v = 0 <;> simp [h]

theorem applyDue_acc_sound {k a key : Nat} {g : Nat × Nat × Nat} {s : State} (val : Nat) (exc : Exc) (add int : Bool)
    (running : (s.core k).seq.item = some g) (sound : Upset.acc a key ∉ (s.core k).upsets) :
    ∃ c, (tblGet (c.array a).acc key).getD 0 =
        (accStore ((tblGet ((s.core k).array a).acc key).getD 0) val exc add int).1 ∧
      applyDue k (.acc a key val exc add int) s =
        excOn k (countExc [(accStore ((tblGet ((s.core k).array a).acc key).getD 0) val exc add int).2]) (s.setCore k c) := by
  simp only [applyDue, running, List.contains_eq_mem, sound, Option.isNone_some, Bool.and_false, decide_false,
    Bool.false_eq_true, if_false]
  refine ⟨_, ?_, rfl⟩
  rw [Core.heal_array, Core.setArray_array_same]
  exact tblGet_putWord_same _ _ _

theorem applyDue_acc_struck {k a key : Nat} {g : Nat × Nat × Nat} {s : State} (val : Nat) (exc : Exc) (int : Bool)
    (running : (s.core k).seq.item = some g) (struck : Upset.acc a key ∈ (s.core k).upsets) :
    applyDue k (.acc a key val exc true int) s = coreFault k { cause := 1, array := a } s := by
  simp [applyDue, running, struck]

/-! Multiplies of a pass over a whole array (R103 to R105). -/

/-- The one unit of an operation without quadrants. -/
def wholeArray : MUnit := ⟨0, 0, 0, 0, 32⟩

theorem unitsOf_zero : unitsOf 0 = [wholeArray] := rfl

/-- R105: the write of the column result of vector i in column j, with the cycle in which it is due. -/
def columnDue (o : MatOp) (a : MArray) (i j : Nat) : Nat × Due :=
  let c := colOf a wholeArray j
  let r := dot o.f.fmt c.2.1 (dataOf o 0 i) c.1 (scaleOf o 0 i) c.2.2
  (entryAt o i + j + mulDelay o.f.fmt, .acc o.f.array (accKey o wholeArray i j) r.1 r.2 o.f.add (o.f.fmt == 3))

theorem columnDue_mem_mulStep {o : MatOp} {i j : Nat} (a : MArray) (pass : o.isPass = true) (whole : o.f.qset = 0)
    (vector : i ≤ o.f.nvec) (column : j < 32) : columnDue o a i j ∈ mulStep (entryAt o i + j) o a := by
  have working : entryAt o i ≤ entryAt o i + j ∧ entryAt o i + j < entryAt o i + wholeArray.w := by
    simp only [wholeArray]; omega
  simp only [mulStep, pass, whole, unitsOf_zero, List.flatMap_singleton, Bool.not_true, Bool.false_eq_true, if_false,
    List.mem_flatMap, List.mem_range]
  refine ⟨i, by omega, ?_⟩
  simp only [Bool.and_eq_true, decide_eq_true_eq, if_pos working, Nat.add_sub_cancel_left, List.mem_singleton]
  rfl

theorem mulDelay_eq (fmt : Nat) : mulDelay fmt = if fmt = 4 ∨ fmt = 5 then 7 else 6 := by
  simp [mulDelay]

theorem accKey_wholeArray (o : MatOp) (i j : Nat) : accKey o wholeArray i j =
    1024 * (if o.f.row + i < 32 then o.f.bank else 1 - o.f.bank) + 32 * ((o.f.row + i) % 32) + j := by
  simp [accKey, wholeArray]

end Sys2Proof.Machine

open Sys2Proof Sys2Proof.Machine

/-- Settles O6: the sums and saturation by the range of two's complement codes, the frame of a due column result, and the
place of vector i and column j among the multiplies of their cycle. -/
theorem accumulatorsTakeColumnResults : Obligations.AccumulatorsTakeColumnResults := by
  unfold Obligations.AccumulatorsTakeColumnResults
  refine ⟨fun a b _ _ => ⟨toSigned_addInt32 a b, addInt32_overflow_iff a b⟩,
    fun _ _ _ _ ss short => ⟨toSigned_dotInt ss short, rfl⟩, fun k a key val g s running => ⟨fun sound => ?_, ?_⟩,
    fun o a i j pass whole vector column => ?_⟩
  · have written := applyDue_acc_sound val .none true true running sound
    rwa [accStore_add_int, countExc_addInt32] at written
  · exact applyDue_acc_struck val .none true running
  · have due := columnDue_mem_mulStep a pass whole vector column
    rwa [columnDue, mulDelay_eq, accKey_wholeArray] at due
end

section
/-! SUPPORT. An operation of a bundle that its core takes, a vector instruction that counts no exception, and the writes of
mask registers (R139 to R141, R193, R197 to R199); the statement about comparisons and mask instructions is settled at the end. -/

namespace Sys2Proof.Machine

open Sys2Proof.Claims

/-! What has struck a core before a command (R540). -/

theorem foldl_strike_eq (us : List Upset) (c : Core) :
    us.foldl Core.strike c = { c with upsets := (us.foldl Core.strike c).upsets } := by
  induction us generalizing c with
  | nil => rfl
  | cons u us ih =>
    have one : c.strike u = { c with upsets := (c.strike u).upsets } := by
      unfold Core.strike
      split
      · rfl
      · split <;> rfl
    rw [List.foldl_cons]
    generalize (c.strike u).upsets = x at one
    rw [one]
    exact ih _

/-- Errors change the record of what is struck alone. -/
theorem struck_eq (e : CoreEnv) (s : State) : struck e s = { s.core e.core with upsets := (struck e s).upsets } :=
  foldl_strike_eq _ _

theorem struck_seq (e : CoreEnv) (s : State) : (struck e s).seq = (s.core e.core).seq := by rw [struck_eq]

theorem issuing_struck (e : CoreEnv) (s : State) : issuing (struck e s) = issuing (s.core e.core) := by
  unfold issuing
  rw [struck_seq]

@[simp] theorem strikeCore_core (e : CoreEnv) (s : State) : (strikeCore e s).core e.core = struck e s := by
  unfold strikeCore
  split
  case isTrue quiet => simp [struck, List.isEmpty_iff.1 quiet]
  case isFalse => exact State.setCore_core_same ..

/-! What stays outside a core. -/

theorem besideCore_refl (k : Nat) (s : State) : besideCore k s s := by simp [besideCore]

theorem besideCore_setCore {k : Nat} {s t : State} (beside : besideCore k s t) (c : Core) :
    besideCore k s (t.setCore k c) :=
  beside.imp_left fun others j other => (State.setCore_core_other t k c j other).trans (others j other)

theorem besideCore_atCycle {k : Nat} {s t : State} (beside : besideCore k s t) (u : Nat) : besideCore k s (t.atCycle u) :=
  beside

theorem besideCore_modItem {k : Nat} {s t : State} (beside : besideCore k s t) (p seq : Nat) (f : Item → Item) :
    besideCore k s (t.modItem p seq f) :=
  beside

theorem besideCore_strikeCore (e : CoreEnv) (s : State) : besideCore e.core s (strikeCore e s) := by
  unfold strikeCore
  split
  · exact besideCore_refl _ s
  · exact besideCore_setCore (besideCore_refl _ s) _

@[simp] theorem strikeCore_parcel (e : CoreEnv) (s : State) (p : Nat) : (strikeCore e s).parcel p = s.parcel p := by
  unfold strikeCore
  split <;> rfl

/-- The items of a parcel are no part of it when it is bare. -/
theorem bare_modItem (s : State) (p seq q : Nat) (f : Item → Item) :
    bare ((s.modItem p seq f).parcel q) = bare (s.parcel q) := by
  unfold State.modItem State.modParcel
  by_cases same : q = p
  · subst same
    rw [State.setParcel_parcel_same]
    rfl
  · rw [State.setParcel_parcel_other _ _ _ _ same]

/-! An operation that its core takes (R139 to R141). -/

/-- The state in which an operation is performed: it has joined the bundle of its core. -/
def joinedStart (e : CoreEnv) (op : SlotOp) (s : State) : State :=
  (slotStart e s).modCore e.core (fun c => { c with seq := { c.seq with bundle := c.seq.bundle ++ [op] } })

@[simp] theorem joinedStart_core (e : CoreEnv) (op : SlotOp) (s : State) : (joinedStart e op s).core e.core =
    { struck e s with seq := { (struck e s).seq with bundle := (struck e s).seq.bundle ++ [op] } } := by
  simp [joinedStart, State.modCore, slotStart]

theorem besideCore_joinedStart (e : CoreEnv) (op : SlotOp) (s : State) : besideCore e.core s (joinedStart e op s) :=
  besideCore_setCore (besideCore_atCycle (besideCore_strikeCore e s) _) _

@[simp] theorem joinedStart_parcel (e : CoreEnv) (op : SlotOp) (s : State) (p : Nat) :
    (joinedStart e op s).parcel p = s.parcel p := by
  simp [joinedStart, State.modCore, slotStart]

/-- The operand reads of an operation do not depend on its bundle. -/
theorem opFault_seq (c : Core) (q : Seq) (op : SlotOp) : opFault { c with seq := q } op = opFault c op := by
  cases op <;> rfl

/-- R139 to R141, R540: an operation that its core takes joins the bundle and is performed, whatever has struck the core. -/
theorem slotCmd_takes {e : CoreEnv} {op : SlotOp} {s : State} (taken : takes e op s = true) :
    slotCmd e (some op) s = .next (performOp e.core op (joinedStart e op s)) := by
  simp only [takes, issuesSound, Bool.and_eq_true, Bool.not_eq_true', Option.isNone_iff_eq_none, struck_seq] at taken
  obtain ⟨⟨⟨⟨⟨issues, bundleSound⟩, slotFree⟩, operandsSound⟩, -⟩, -⟩ := taken
  have quiet : reviveSlot e.core s = none := reviveSlot_issuing (issuing_struck e s ▸ issues)
  have sound : opFault ((joinedStart e op s).core e.core) op = none := by
    rw [joinedStart_core, opFault_seq, operandsSound]
  rw [← issueOp_sound sound]
  unfold slotCmd slotRow
  rw [quiet]
  unfold slotRun
  simp only [strikeCore_core, issues, struck_seq, bundleSound, slotFree, Bool.not_true, Bool.false_eq_true, if_false]
  rfl

/-! A vector instruction (R193). -/

theorem joined_vec (e : CoreEnv) (op : VOp) (f : VecF) (s : State) : joined e (.vec op f) s =
    { struck e s with seq := { (struck e s).seq with bundle := (struck e s).seq.bundle ++ [.vec op f] } } := by
  have noReads : (struck e s).spFixed (List.contains []) = 0 := by
    unfold Core.spFixed
    rw [List.length_eq_zero_iff, List.filter_eq_nil_iff]
    intro u _
    split <;> simp
  simp only [joined, readsOf, noReads, if_true]

/-- R193: what a vector operation leaves depends on the registers of its core, not on its bundle or what is struck. -/
theorem vecOp_seq_upsets (c : Core) (q : Seq) (us : List Upset) (op : VOp) (f : VecF) :
    vecOp { c with seq := q, upsets := us } op f = vecOp c op f := by
  cases op <;> rfl

theorem vecOp_joinedStart (e : CoreEnv) (x : SlotOp) (s : State) (op : VOp) (f : VecF) :
    vecOp ((joinedStart e x s).core e.core) op f = vecOp (s.core e.core) op f := by
  rw [joinedStart_core, struck_eq]
  exact vecOp_seq_upsets ..

/-- What a vector operation that its core takes leaves of the core: it has joined the bundle, and its writes fall due. -/
def vecDone (e : CoreEnv) (op : VOp) (f : VecF) (s : State) : Core :=
  let o := vecOp (s.core e.core) op f
  { joined e (.vec op f) s with
    due := (s.core e.core).due ++ vecDue (s.core e.core).seq.plan (latency op) o
    rng := o.rng.getD (joined e (.vec op f) s).rng }

theorem vecIssue_joinedStart (e : CoreEnv) (op : VOp) (f : VecF) (s : State) :
    vecIssue op f ((joinedStart e (.vec op f) s).core e.core) = (vecDone e op f s, (vecOp (s.core e.core) op f).exc) := by
  unfold vecIssue vecDone
  rw [vecOp_joinedStart, joinedStart_core, joined_vec, struck_eq]

/-- R193: a vector operation that its core takes leaves its writes due, and its exceptions are counted. -/
theorem slotCmd_vec {e : CoreEnv} {op : VOp} {f : VecF} {s : State} (taken : takes e (.vec op f) s = true) :
    slotCmd e (some (.vec op f)) s = .next (excOn e.core (vecOp (s.core e.core) op f).exc
      ((joinedStart e (.vec op f) s).setCore e.core (vecDone e op f s))) := by
  rw [slotCmd_takes taken]
  simp only [performOp, vecIssue_joinedStart]

/-- R86: no exception to count changes the counters of one item, at most, and nothing else. -/
theorem excOn_noExc_cases (k : Nat) (s : State) :
    excOn k noExc s = s ∨ ∃ p seq f, excOn k noExc s = s.modItem p seq f := by
  have noHit (i : Item) : (List.range 4).filter (fun n => reaches48 (nth i.exc n 0) (nth noExc n 0)) = [] := by
    rw [List.filter_eq_nil_iff]
    intro n small
    have zero : nth noExc n 0 = 0 := by
      have := List.mem_range.1 small
      interval_cases n <;> rfl
    simp only [reaches48, zero, Bool.and_eq_true, decide_eq_true_eq]
    omega
  unfold excOn addExcItem
  split
  · split
    · exact .inl rfl
    · simp only [noHit, List.foldl_nil]
      exact .inr ⟨_, _, _, rfl⟩
  · exact .inl rfl

/-- The effect that a write of a vector instruction is. -/
def dueOfWrite (w : Bool × Nat × Nat × Nat) : Due := if w.1 then .mreg w.2.1 w.2.2.1 w.2.2.2 else .vreg w.2.1 w.2.2.1 w.2.2.2

theorem vecDue_eq_map (t l : Nat) (o : VecOut) :
    vecDue t l o = (o.writes.map dueOfWrite).map (fun d => (t + l - 1, d)) := by
  rw [List.map_map]
  rfl

/-- R193: a vector instruction without exceptions leaves its writes due at the end of plan cycle T + latency − 1. -/
theorem writesDue_vec {cmd : Instr} {e : CoreEnv} {op : VOp} {f : VecF} {s : State} {ws : List (Bool × Nat × Nat × Nat)}
    (row : exec cmd s = slotCmd e (some (.vec op f)) s) (out : vecOp (s.core e.core) op f = { writes := ws }) :
    writesDue cmd e (.vec op f) (latency op) (ws.map dueOfWrite) s := by
  intro taken
  have due : vecDone e op f s = { joined e (.vec op f) s with
      due := (s.core e.core).due ++
        (ws.map dueOfWrite).map (fun d => ((s.core e.core).seq.plan + latency op - 1, d)) } := by
    rw [vecDone, out, vecDue_eq_map]
    rfl
  have beside := besideCore_setCore (besideCore_joinedStart e (.vec op f) s) (vecDone e op f s)
  have core := ((joinedStart e (.vec op f) s).setCore_core_same e.core (vecDone e op f s)).trans due
  rw [row, slotCmd_vec taken, out]
  rcases excOn_noExc_cases e.core ((joinedStart e (.vec op f) s).setCore e.core (vecDone e op f s)) with
    same | ⟨p, seq, g, item⟩
  · rw [same]
    exact ⟨_, rfl, beside, fun q => by simp, core⟩
  · rw [item]
    exact ⟨_, rfl, besideCore_modItem beside p seq g, fun q => by simp [bare_modItem], core⟩

/-- R201: a mask instruction leaves its whole register due. -/
theorem writesDue_maskOp {cmd : Instr} {e : CoreEnv} {op : VOp} {f : VecF} {s : State} (g : Nat → Nat → Nat)
    (row : exec cmd s = slotCmd e (some (.vec op f)) s) (out : vecOp (s.core e.core) op f = maskOp (s.core e.core) f g) :
    writesDue cmd e (.vec op f) (latency op)
      [.mreg (f.vd % 8) (2 ^ 128 - 1) (g ((s.core e.core).mreg (f.va % 8)) ((s.core e.core).mreg (f.vb % 8)))] s :=
  writesDue_vec row out

/-! The fields of a write (R194, R198). -/

/-- The mask of a field: all ones where it is written. -/
def writtenMask (w : Nat) : Option Nat → Nat
  | some _ => 2 ^ w - 1
  | none => 0

/-- The value of a field: zero where it is not written. -/
def writtenValue (w : Nat) : Option Nat → Nat
  | some v => v % 2 ^ w
  | none => 0

theorem writtenMask_lt (w : Nat) (x : Option Nat) : writtenMask w x < 2 ^ w := by
  have := Nat.two_pow_pos w
  cases x <;> simp only [writtenMask] <;> omega

theorem writtenValue_lt (w : Nat) (x : Option Nat) : writtenValue w x < 2 ^ w := by
  cases x
  · exact Nat.two_pow_pos w
  · exact Nat.mod_lt _ (Nat.two_pow_pos w)

/-- One step of `packFields`: the number of the field, the mask and the value so far. -/
def packField (w : Nat) (a : Nat × Nat × Nat) (x : Option Nat) : Nat × Nat × Nat :=
  (a.1 + 1, a.2.1 + writtenMask w x * 2 ^ (w * a.1), a.2.2 + writtenValue w x * 2 ^ (w * a.1))

theorem packFields_eq_foldl (w : Nat) (l : List (Option Nat)) : packFields w l = (l.foldl (packField w) (0, 0, 0)).2 := by
  unfold packFields
  congr 2
  funext a x
  cases x <;> simp [packField, writtenMask, writtenValue]

theorem foldl_packField (w : Nat) (l : List (Option Nat)) (n m v : Nat) : l.foldl (packField w) (n, m, v) =
    (n + l.length, m + 2 ^ (w * n) * (packFields w l).1, v + 2 ^ (w * n) * (packFields w l).2) := by
  induction l generalizing n m v with
  | nil => simp [packFields]
  | cons x l ih =>
    rw [packFields_eq_foldl, List.foldl_cons, List.foldl_cons]
    simp only [packField, ih, List.length_cons, Prod.mk.injEq]
    refine ⟨by omega, ?_, ?_⟩ <;> ring

/-- The first field is the lowest. -/
theorem packFields_cons (w : Nat) (x : Option Nat) (l : List (Option Nat)) : packFields w (x :: l) =
    (writtenMask w x + 2 ^ w * (packFields w l).1, writtenValue w x + 2 ^ w * (packFields w l).2) := by
  rw [packFields_eq_foldl, List.foldl_cons]
  simp [packField, foldl_packField]

/-- Each field of a write stands in its own place. -/
theorem packFields_field (w : Nat) (l : List (Option Nat)) (i : Nat) :
    (packFields w l).1 / 2 ^ (w * i) % 2 ^ w = writtenMask w (l.getD i none) ∧
    (packFields w l).2 / 2 ^ (w * i) % 2 ^ w = writtenValue w (l.getD i none) := by
  induction l generalizing i with
  | nil => simp [packFields, writtenMask, writtenValue]
  | cons x l ih =>
    rw [packFields_cons]
    cases i with
    | zero => simp [Nat.mod_eq_of_lt, writtenMask_lt, writtenValue_lt]
    | succ i =>
      have up {low high : Nat} (small : low < 2 ^ w) : (low + 2 ^ w * high) / 2 ^ (w * (i + 1)) = high / 2 ^ (w * i) := by
        rw [Nat.mul_succ, Nat.add_comm (w * i), pow_add, ← Nat.div_div_eq_div_mul,
          Nat.add_mul_div_left _ _ (Nat.two_pow_pos w), Nat.div_eq_of_lt small, Nat.zero_add]
      rw [up (writtenMask_lt w x), up (writtenValue_lt w x), List.getD_cons_succ]
      exact ih i

/-! The writes of mask registers (R197, R199). -/

theorem bit_packFields (l : List (Option Nat)) (i : Nat) :
    bit (packFields 1 l).1 i = (l.getD i none).isSome ∧
    bit (packFields 1 l).2 i = ((l.getD i none).getD 0 % 2 == 1) := by
  obtain ⟨mask, value⟩ := packFields_field 1 l i
  rw [Nat.one_mul, pow_one] at mask value
  unfold bit
  rw [mask, value]
  cases l.getD i none <;> simp [writtenMask, writtenValue]

/-- What the write of fields of one bit to the register of lane i leaves of the bit of lane i. -/
theorem maskLane_packFields {d : List Due} {md i : Nat} {l : List (Option Nat)}
    (write : d[i / 128]? = some (.mreg (md + i / 128) (packFields 1 l).1 (packFields 1 l).2)) :
    maskLane d md i = (l.getD (i % 128) none).map (fun v => v % 2 == 1) := by
  obtain ⟨mask, value⟩ := bit_packFields l (i % 128)
  simp only [maskLane, write, mask, value, true_and]
  cases l.getD (i % 128) none <;> simp

/-- R199: the bit of lane i of a mask destination takes field i, at either width. -/
theorem maskLane_maskWrites {width i : Nat} (md : Nat) (l : List (Option Nat)) (lane : i < lanes width) :
    maskLane ((maskWrites width md l).map dueOfWrite) md i = (l.getD i none).map (fun v => v % 2 == 1) := by
  unfold maskWrites
  unfold lanes at lane
  split at lane
  case isTrue narrow =>
    have first : i / 128 = 0 := Nat.div_eq_of_lt lane
    rw [if_pos narrow, maskLane_packFields (l := l) (by rw [first]; rfl), Nat.mod_eq_of_lt lane]
  case isFalse wide =>
    rw [if_neg wide]
    by_cases low : i < 128
    · have first : i / 128 = 0 := Nat.div_eq_of_lt low
      rw [maskLane_packFields (l := l.take 128) (by rw [first]; rfl), Nat.mod_eq_of_lt low]
      simp [List.getD_eq_getElem?_getD, low]
    · have second : i / 128 = 1 := by omega
      have place : 128 + i % 128 = i := by omega
      rw [maskLane_packFields (l := l.drop 128) (by rw [second]; rfl)]
      simp [List.getD_eq_getElem?_getD, List.getElem?_drop, place]

/-- R199: the bit of lane i of a mask destination takes the field of lane i, at either width. -/
theorem maskLane_maskWrites_lanes {width i : Nat} (md : Nat) (field : Nat → Option Nat) (lane : i < lanes width) :
    maskLane ((maskWrites width md ((List.range (lanes width)).map field)).map dueOfWrite) md i =
      (field i).map (fun v => v % 2 == 1) := by
  rw [maskLane_maskWrites md _ lane]
  simp [List.getD_eq_getElem?_getD, lane]

theorem b2n_odd (b : Bool) : (b2n b % 2 == 1) = b := by cases b <;> rfl

/-- R198, R199: a comparison's field of a mask destination. -/
theorem maskedLane_b2n (c : Core) (f : VecF) (r : Nat → Bool) (i : Nat) :
    (maskedLane c f (fun i => (b2n (r i), .none)) i).1.map (fun v => v % 2 == 1) =
      if laneActive c f i then some (r i) else if f.zero then some false else none := by
  unfold maskedLane
  split
  · simp [b2n_odd]
  · split <;> rfl

end Sys2Proof.Machine

open Sys2Proof Sys2Proof.Machine

/-- Settles O8: a vector instruction that counts no exception leaves its writes due, and the bit of a lane of a mask
destination is the field of that lane. -/
theorem vectorMasksComplete : Obligations.VectorMasksComplete := by
  unfold Obligations.VectorMasksComplete
  intro e f s
  refine ⟨⟨_, writesDue_vec rfl rfl, fun i lane => ?cmp⟩, ⟨_, writesDue_vec rfl rfl, fun i lane => ?mfirst⟩,
    writesDue_maskOp (fun x y => x &&& y) rfl rfl, writesDue_maskOp (fun x y => x ||| y) rfl rfl,
    writesDue_maskOp (fun x y => x ^^^ y) rfl rfl, writesDue_maskOp (fun x _ => 2 ^ 128 - 1 - x) rfl rfl⟩
  case cmp => rw [maskLane_maskWrites_lanes _ _ lane, maskedLane_b2n]
  case mfirst => rw [maskLane_maskWrites_lanes _ _ lane, Option.map_some, b2n_odd]
end

section
/-! SUPPORT. The address hash and its inverse (R292, R293) and the places of a fold (R315); the statement about both is settled at
the end. -/

namespace Sys2Proof.Machine

/-! The address hash (R292) and its inverse (R293). -/

theorem fold8_eq (row : Nat) : fold8 row = row % 256 ^^^ row / 256 % 256 ^^^ row / 65536 % 64 := by simp [fold8, bits]

theorem fold8_lt (row : Nat) : fold8 row < 256 := by
  rw [fold8_eq]
  exact Nat.xor_lt_two_pow (n := 8) (Nat.xor_lt_two_pow (by omega) (by omega)) (by omega)

theorem xor_fold8_lt {low : Nat} (row : Nat) (byte : low < 256) : low ^^^ fold8 row < 256 :=
  Nat.xor_lt_two_pow (n := 8) byte (fold8_lt row)

/-- R292: the hash of byte x of the granule that lies at third t and byte low of the 768 granules of a row. -/
theorem hashOf_granule {t low x : Nat} (row : Nat) (third : t < 3) (byte : low < 256) (inside : x < 256) :
    hashOf (256 * ((3 * row + t) * 256 + low) + x) = (256 * ((t + row % 3) % 3) + (low ^^^ fold8 row), row) := by
  have granule : (256 * ((3 * row + t) * 256 + low) + x) / 256 = (3 * row + t) * 256 + low := by omega
  have high : ((3 * row + t) * 256 + low) / 256 = 3 * row + t := by omega
  have lowByte : ((3 * row + t) * 256 + low) % 256 = low := by omega
  have row3 : (3 * row + t) / 3 = row := by omega
  have third3 : (3 * row + t) % 3 = t := by omega
  simp only [hashOf, granule, high, lowByte, row3, third3]

/-- R293: the granule of a pseudo-channel given by its third u of the 768 and its number m in that third. -/
theorem granOf_channel {m : Nat} (u row : Nat) (byte : m < 256) :
    granOf (256 * u + m) row = (3 * row + (u + 3 - row % 3) % 3) * 256 + (m ^^^ fold8 row) := by
  have third : (256 * u + m) / 256 = u := by omega
  have number : (256 * u + m) % 256 = m := by omega
  simp only [granOf, third, number]

/-- R292: every address is a byte of a granule of some row. -/
theorem exists_granule (a : Nat) :
    ∃ row t low x, t < 3 ∧ low < 256 ∧ x < 256 ∧ a = 256 * ((3 * row + t) * 256 + low) + x :=
  ⟨a / 196608, a / 65536 % 3, a / 256 % 256, a % 256, by omega⟩

theorem hashOf_channel_lt (a : Nat) : (hashOf a).1 < 768 := by
  obtain ⟨row, t, low, x, third, byte, inside, rfl⟩ := exists_granule a
  have number := xor_fold8_lt row byte
  rw [hashOf_granule row third byte inside]
  omega

theorem hashOf_row (a : Nat) : (hashOf a).2 = a / 196608 := by
  obtain ⟨row, t, low, x, third, byte, inside, rfl⟩ := exists_granule a
  rw [hashOf_granule row third byte inside]
  omega

/-- R293: the inverse leads from a granule's pseudo-channel and index back to the granule: the turn by row mod 3 is taken back,
and the second exclusive-or with the fold undoes the first. -/
theorem granOf_hashOf (a : Nat) : granOf (hashOf a).1 (hashOf a).2 = a / 256 := by
  obtain ⟨row, t, low, x, third, byte, inside, rfl⟩ := exists_granule a
  have turn : ((t + row % 3) % 3 + 3 - row % 3) % 3 = t := by omega
  rw [hashOf_granule row third byte inside, granOf_channel _ _ (xor_fold8_lt row byte), turn, Nat.xor_xor_cancel_right]
  omega

/-- R293: the hash leads from the granule of a pseudo-channel and index back to both, from each of its 256 bytes. -/
theorem hashOf_granOf {pc x : Nat} (row : Nat) (channel : pc < 768) (inside : x < 256) :
    hashOf (256 * granOf pc row + x) = (pc, row) := by
  have byte : pc % 256 < 256 := by omega
  have turn : ((pc / 256 + 3 - row % 3) % 3 + row % 3) % 3 = pc / 256 := by omega
  rw [granOf, hashOf_granule row (by omega) (xor_fold8_lt row byte) inside, turn, Nat.xor_xor_cancel_right, Nat.div_add_mod]

/-- R293: the granule of a pseudo-channel and index is one of the 768 of its row. -/
theorem granOf_mem_row (pc row : Nat) : 768 * row ≤ granOf pc row ∧ granOf pc row ≤ 768 * row + 767 := by
  have low := xor_fold8_lt row (Nat.mod_lt pc (by decide : 256 > 0))
  simp only [granOf]
  omega

/-! The places of a fold (R315). -/

/-- R315: the survivors of dead channel k are the pseudo-channels below its two, then those above them. -/
theorem survivors_eq {k : Nat} (channel : k < 32) : (List.range 64).filter (fun i => i / 2 != k) =
    List.range' 0 (2 * k) ++ List.range' (2 * k + 2) (62 - 2 * k) := by
  have parts : List.range 64 = List.range' 0 (2 * k) ++ (List.range' (2 * k) 2 ++ List.range' (2 * k + 2) (62 - 2 * k)) := by
    have low := List.range'_append_1 (s := 0) (m := 2 * k) (n := 2 + (62 - 2 * k))
    have all : 2 * k + (2 + (62 - 2 * k)) = 64 := by omega
    rw [Nat.zero_add, all] at low
    rw [List.range'_append_1, low, List.range_eq_range']
  have below : (List.range' 0 (2 * k)).filter (fun i => i / 2 != k) = List.range' 0 (2 * k) := by
    simp only [List.filter_eq_self, List.mem_range'_1, bne_iff_ne]
    omega
  have dead : (List.range' (2 * k) 2).filter (fun i => i / 2 != k) = [] := by
    simp only [List.filter_eq_nil_iff, List.mem_range'_1, bne_iff_ne]
    omega
  have above : (List.range' (2 * k + 2) (62 - 2 * k)).filter (fun i => i / 2 != k) =
      List.range' (2 * k + 2) (62 - 2 * k) := by
    simp only [List.filter_eq_self, List.mem_range'_1, bne_iff_ne]
    omega
  rw [parts, List.filter_append, List.filter_append, below, dead, above, List.nil_append]

/-- R315: the survivor of rank j. -/
theorem survivors_getElem? {k j : Nat} (channel : k < 32) (rank : j < 62) :
    ((List.range 64).filter (fun i => i / 2 != k))[j]? = some (if j < 2 * k then j else j + 2) := by
  rw [survivors_eq channel]
  split
  case isTrue below =>
    rw [List.getElem?_append_left (by simpa using below), List.getElem?_range' below]
    simp
  case isFalse above =>
    rw [List.getElem?_append_right (by simpa using above), List.length_range', List.getElem?_range' (by omega)]
    congr 1
    omega

/-- R315: the quotient of an index by the 62 survivors stays within one of the two halves of a remap reserve. -/
theorem foldPlace_row_lt {b row : Nat} (k : Nat) (half : b < 2) (index : row < 4063232) : (foldPlace k b row).2 < 4194304 := by
  simp only [foldPlace]
  omega

/-- R315: the survivor's rank gives the remainder of the index, the place in its reserve the half and the quotient. -/
theorem foldPlace_injective {k b b' row row' : Nat} (index : row < 4063232) (index' : row' < 4063232)
    (same : foldPlace k b' row' = foldPlace k b row) : b' = b ∧ row' = row := by
  obtain ⟨partner, place⟩ := Prod.mk.inj same
  have remainder : row' % 62 = row % 62 := by
    split at partner <;> split at partner <;> omega
  have quotient : row / 62 < 65536 ∧ row' / 62 < 65536 := by omega
  omega

end Sys2Proof.Machine

open Sys2Proof Sys2Proof.Machine

/-- Settles O21: the hash and its inverse undo one another in both directions, and the partner and the place in its remap
reserve give back the half and the index of a folded granule. -/
theorem hashAndFoldsGiveEveryGranuleAPlace : Obligations.HashAndFoldsGiveEveryGranuleAPlace := by
  unfold Obligations.HashAndFoldsGiveEveryGranuleAPlace
  refine ⟨fun a inHbm => ⟨hashOf_channel_lt a, ?_, granOf_hashOf a⟩, fun pc row channel _ => ?_,
    fun k b row channel half index => ⟨survivors_getElem? channel (Nat.mod_lt row (by decide)), rfl,
      foldPlace_row_lt k half index, fun _ _ _ index' => foldPlace_injective index index'⟩⟩
  · rw [hashOf_row]
    omega
  · obtain ⟨first, last⟩ := granOf_mem_row pc row
    refine ⟨?_, first, last, fun _ => hashOf_granOf row channel⟩
    rw [← fold8_eq, granOf]
end

section
/-! SUPPORT. What the reply to a request leaves of a state: its own mailbox block but for what carries the request and the reply,
every other block but for what it signals, host memory but for what a reply into it writes, and the count of the board management
controller's open commands (R474 to R478); the statement about refused requests is settled at the end. -/

namespace Sys2Proof.Machine

open Sys2Proof.Claims

/-! What a mailbox block holds besides signals, and besides what carries requests and replies. -/

/-- A mailbox block with its interrupt status and shown state left out. -/
def MBlock.unsignalled (b : MBlock) : MBlock := { b with irqStatus := 0, stateShown := 0 }

/-- A mailbox block with everything left out that a request and its reply may write. -/
def MBlock.unmailed (b : MBlock) : MBlock :=
  { b with
    inlineBusy := false, inlineReq := [], inlineRpl := [], env := { b.env with head := 0, tail := 0 }, envNext := 0
    envAnswered := [], irqStatus := 0, stateShown := 0, open_ := 0 }

theorem MBlock.unsignalled_eq_iff {a b : MBlock} : b.unsignalled = a.unsignalled ↔
    b = { a with irqStatus := b.irqStatus, stateShown := b.stateShown } := by
  cases a; cases b
  simp [unsignalled]

theorem MBlock.unmailed_eq_iff {a b : MBlock} : b.unmailed = a.unmailed ↔
    b = { a with
      inlineBusy := b.inlineBusy, inlineReq := b.inlineReq, inlineRpl := b.inlineRpl, env := b.env, envNext := b.envNext
      envAnswered := b.envAnswered, irqStatus := b.irqStatus, stateShown := b.stateShown, open_ := b.open_ } ∧
    b.env = { a.env with head := b.env.head, tail := b.env.tail } := by
  obtain ⟨_, _, _, _, _, _, _, _, _, _, ⟨⟩, _⟩ := a
  obtain ⟨_, _, _, _, _, _, _, _, _, _, ⟨⟩, _⟩ := b
  simp only [unmailed, mk.injEq, Ring.mk.injEq]
  tauto

theorem MBlock.unmailed_of_unsignalled {a b : MBlock} (h : b.unsignalled = a.unsignalled) : b.unmailed = a.unmailed :=
  (congrArg unmailed h :)

theorem MBlock.session_of_unmailed {a b : MBlock} (h : b.unmailed = a.unmailed) : b.session = a.session :=
  (congrArg session h :)

theorem envAdvance_unmailed (k : Nat) (b : MBlock) : (envAdvance k b).unmailed = b.unmailed := by
  induction k generalizing b with
  | zero => rfl
  | succ k ih =>
    unfold envAdvance
    split
    · exact ih _
    · rfl

/-! What a reply can do, by where it goes. -/

/-- R465, R474, R475: a reply envelope goes to the board management controller, or it changes what carries replies in its block,
after the write of its slot in host memory where the request came from one. -/
theorem deliver_cases (tk : Ticket) (env : List Byte) (s : State) :
    (tk.block = 64 ∧ deliver tk env s =
      { s with outputs := s.outputs ++ [.bmcReply env], bmcOpen := s.bmcOpen - b2n (ofSession s tk) }) ∨
    (tk.block ≠ 64 ∧ ∃ u b k, (u = s ∨ tk.slot ≠ none ∧ ∃ a, hostWrite s tk.block a env = some u) ∧
      deliver tk env s = setIrqNow tk.block k (u.setBlock tk.block b) ∧ b.unmailed = (s.block tk.block).unmailed) := by
  unfold deliver
  by_cases controller : tk.block = 64
  · rw [if_pos (beq_iff_eq.2 controller)]
    exact .inl ⟨controller, rfl⟩
  · rw [if_neg (mt beq_iff_eq.1 controller)]
    refine .inr ⟨controller, ?_⟩
    cases tk.slot with
    | none => exact ⟨s, _, _, .inl rfl, rfl, rfl⟩
    | some k =>
      dsimp only
      split
      case h_1 => exact ⟨s, _, _, .inl rfl, rfl, rfl⟩
      case h_2 u written => exact ⟨u, _, _, .inr ⟨nofun, _, written⟩, rfl, envAdvance_unmailed _ _⟩

/-- R471 to R473: a reply is one envelope, after the write of its payload where the request names a place for it. -/
theorem replyNow_cases (tk : Ticket) (st : RStatus) (f : Bool) (b : List Byte) (s : State) :
    ∃ env u, replyNow tk st f b s = deliver tk env u ∧
      (u = s ∨ tk.indirect ≠ none ∧ ∃ a bs, hostWrite s tk.block a bs = some u) := by
  unfold replyNow
  generalize (if (carries st || f) = true then b else []) = body
  cases tk.indirect with
  | none => exact ⟨_, s, rfl, .inl rfl⟩
  | some place =>
    dsimp only
    split
    · exact ⟨_, s, rfl, .inl rfl⟩
    · split
      case h_1 => exact ⟨_, s, rfl, .inl rfl⟩
      case h_2 u written => exact ⟨_, u, rfl, .inr ⟨nofun, _, _, written⟩⟩

/-- R460, R468: a reply is dropped, waits for the frame head, or is made now. -/
theorem replyWith_cases (tk : Ticket) (st : RStatus) (f : Bool) (b : List Byte) (s : State) :
    (tk.dead = true ∧ replyWith tk st f b s = s) ∨
    (staleTicket s tk = true ∧ replyWith tk st f b s = dropReply tk s) ∨
    (tk.block ≠ 64 ∧ ∃ l, replyWith tk st f b s = { s with delayed := l }) ∨
    replyWith tk st f b s = replyNow tk st f b s := by
  unfold replyWith
  split
  case isTrue dead => exact .inl ⟨dead, rfl⟩
  case isFalse =>
    split
    case isTrue stale => exact .inr (.inl ⟨stale, rfl⟩)
    case isFalse =>
      split
      case h_2 => exact .inr (.inr (.inr rfl))
      case h_1 =>
        split
        case isTrue waits =>
          rw [Bool.and_eq_true, bne_iff_ne] at waits
          exact .inr (.inr (.inl ⟨waits.2, _, rfl⟩))
        case isFalse => exact .inr (.inr (.inr rfl))

/-! Changes that carry requests and replies of one block. -/

/-- Nothing differs but what a reply may change; of the host's side host memory alone, and of the mailbox blocks what they signal
and what carries the requests and replies of block n. -/
structure MailsOnly (n : Nat) (s t : State) : Prop where
  replies : RepliesOnly s t
  host : t.host = { s.host with mem := t.host.mem }
  other : ∀ m, m ≠ n → (t.block m).unsignalled = (s.block m).unsignalled
  own : (t.block n).unmailed = (s.block n).unmailed

theorem MailsOnly.refl (n : Nat) (s : State) : MailsOnly n s s := ⟨.refl s, rfl, fun _ _ => rfl, rfl⟩

theorem MailsOnly.trans {n : Nat} {s t u : State} (a : MailsOnly n s t) (b : MailsOnly n t u) : MailsOnly n s u where
  replies := a.replies.trans b.replies
  host := by rw [b.host, a.host]
  other m h := (b.other m h).trans (a.other m h)
  own := b.own.trans a.own

theorem SignalsOnly.host {s t : State} (h : SignalsOnly s t) : t.host = s.host := by rw [h.rest]

theorem SignalsOnly.bmcOpen {s t : State} (h : SignalsOnly s t) : t.bmcOpen = s.bmcOpen := by rw [h.rest]

theorem SignalsOnly.mails {s t : State} (h : SignalsOnly s t) (n : Nat) : MailsOnly n s t where
  replies := h.replies
  host := by rw [h.host]
  other m _ := MBlock.unsignalled_eq_iff.2 (h.block m)
  own := MBlock.unmailed_of_unsignalled (MBlock.unsignalled_eq_iff.2 (h.block n))

theorem setBlock_mails {n : Nat} {s : State} {b : MBlock} (h : b.unmailed = (s.block n).unmailed) :
    MailsOnly n s (s.setBlock n b) where
  replies := setBlock_replies n s b (MBlock.session_of_unmailed h)
  host := rfl
  other m hm := by rw [State.setBlock_block_other _ _ _ _ hm]
  own := by rwa [State.setBlock_block_same]

theorem hostWrite_mails {s t : State} {k a : Nat} {bs : List Byte} (n : Nat) (h : hostWrite s k a bs = some t) :
    MailsOnly n s t where
  replies := hostWrite_replies h
  host := by obtain ⟨l, -, rfl, -⟩ := hostWrite_some h; rfl
  other m _ := by obtain ⟨l, -, rfl, -⟩ := hostWrite_some h; rfl
  own := by obtain ⟨l, -, rfl, -⟩ := hostWrite_some h; rfl

/-- What goes to the board management controller is in no block. -/
theorem bmc_mails (n : Nat) (s : State) (o : List Output) (k : Nat) : MailsOnly n s { s with outputs := o, bmcOpen := k } :=
  ⟨⟨rfl, fun _ => rfl, fun w => w⟩, rfl, fun _ _ => rfl, rfl⟩

theorem deliver_mails (tk : Ticket) (env : List Byte) (s : State) : MailsOnly tk.block s (deliver tk env s) := by
  obtain ⟨-, sent⟩ | ⟨-, u, b, k, written, sent, mail⟩ := deliver_cases tk env s <;> rw [sent]
  · exact bmc_mails _ _ _ _
  · have mem : MailsOnly tk.block s u := by
      obtain rfl | ⟨-, a, written⟩ := written
      · exact .refl _ _
      · exact hostWrite_mails _ written
    exact (mem.trans (setBlock_mails (mail.trans mem.own.symm))).trans ((setIrqNow_signals _ _ _).mails _)

theorem replyNow_mails (tk : Ticket) (st : RStatus) (f : Bool) (b : List Byte) (s : State) :
    MailsOnly tk.block s (replyNow tk st f b s) := by
  obtain ⟨env, u, sent, rfl | ⟨-, a, bs, written⟩⟩ := replyNow_cases tk st f b s <;> rw [sent]
  · exact deliver_mails _ _ _
  · exact (hostWrite_mails _ written).trans (deliver_mails _ _ _)

theorem dropReply_mails (tk : Ticket) (s : State) : MailsOnly tk.block s (dropReply tk s) := by
  unfold dropReply
  split
  · exact .refl _ s
  · exact setBlock_mails rfl

/-- R460: what waits for the frame head is in no block. -/
theorem delayed_mails (n : Nat) (s : State) (l : List (Nat × Nat × Delayed)) : MailsOnly n s { s with delayed := l } :=
  ⟨⟨rfl, fun _ => rfl, fun w => w⟩, rfl, fun _ _ => rfl, rfl⟩

theorem replyWith_mails (tk : Ticket) (st : RStatus) (f : Bool) (b : List Byte) (s : State) :
    MailsOnly tk.block s (replyWith tk st f b s) := by
  obtain ⟨-, done⟩ | ⟨-, done⟩ | ⟨-, l, done⟩ | done := replyWith_cases tk st f b s <;> rw [done]
  · exact .refl _ s
  · exact dropReply_mails _ _
  · exact delayed_mails _ _ _
  · exact replyNow_mails _ _ _ _ _

theorem taken_mails (r : ZReq) (s : State) : MailsOnly r.block s (taken r s) := by
  unfold taken
  split
  · exact bmc_mails _ _ s.outputs _
  · split <;> exact setBlock_mails rfl

/-! Host memory: a reply that stays inline writes none. -/

theorem deliver_inline_host {tk : Ticket} (env : List Byte) (s : State) (inline : tk.slot = none) :
    (deliver tk env s).host = s.host := by
  obtain ⟨-, sent⟩ | ⟨-, u, b, k, rfl | ⟨slot, -⟩, sent, -⟩ := deliver_cases tk env s
  · rw [sent]
  · rw [sent, (setIrqNow_signals _ _ _).host, State.setBlock_host]
  · exact absurd inline slot

theorem replyNow_inline_host {tk : Ticket} (st : RStatus) (f : Bool) (b : List Byte) (s : State) (inline : tk.slot = none)
    (direct : tk.indirect = none) : (replyNow tk st f b s).host = s.host := by
  obtain ⟨env, u, sent, rfl | ⟨indirect, -⟩⟩ := replyNow_cases tk st f b s
  · rw [sent, deliver_inline_host _ _ inline]
  · exact absurd direct indirect

theorem dropReply_host (tk : Ticket) (s : State) : (dropReply tk s).host = s.host := by
  unfold dropReply
  split <;> rfl

theorem replyWith_inline_host {tk : Ticket} (st : RStatus) (f : Bool) (b : List Byte) (s : State) (inline : tk.slot = none)
    (direct : tk.indirect = none) : (replyWith tk st f b s).host = s.host := by
  obtain ⟨-, done⟩ | ⟨-, done⟩ | ⟨-, l, done⟩ | done := replyWith_cases tk st f b s <;> rw [done]
  · exact dropReply_host _ _
  · exact replyNow_inline_host _ _ _ _ inline direct

theorem taken_host (r : ZReq) (s : State) : (taken r s).host = s.host := by
  unfold taken
  split <;> rfl

/-! The board management controller's open commands (R478): a reply takes back what the request has counted. -/

theorem RepliesOnly.sessionOf_eq {s t : State} (h : RepliesOnly s t) (n : Nat) : sessionOf t n = sessionOf s n := by
  have bmc : t.bmcSession = s.bmcSession := by rw [h.rest]
  simp only [sessionOf, h.session, bmc]

theorem RepliesOnly.ofSession_eq {s t : State} (h : RepliesOnly s t) (tk : Ticket) : ofSession t tk = ofSession s tk := by
  simp only [ofSession, h.sessionOf_eq]

theorem RepliesOnly.staleTicket_eq {s t : State} (h : RepliesOnly s t) (tk : Ticket) : staleTicket t tk = staleTicket s tk := by
  simp only [staleTicket, h.sessionOf_eq]

/-- What a request of a ticket adds to the count of the controller's open commands. -/
def bmcShare (s : State) (tk : Ticket) : Nat := if tk.block = 64 then b2n (ofSession s tk) else 0

theorem RepliesOnly.bmcShare_eq {s t : State} (h : RepliesOnly s t) (tk : Ticket) : bmcShare t tk = bmcShare s tk := by
  simp only [bmcShare, h.ofSession_eq]

theorem bmcShare_of_ne {s : State} {tk : Ticket} (h : tk.block ≠ 64) : bmcShare s tk = 0 := if_neg h

theorem taken_bmcOpen (r : ZReq) (s : State) : (taken r s).bmcOpen = s.bmcOpen + bmcShare s (ticketOf r s) := by
  have block : (ticketOf r s).block = r.block := rfl
  unfold taken bmcShare
  rw [block]
  by_cases controller : r.block = 64 <;> simp [controller, State.modBlock]

theorem hostWrite_bmcOpen {s t : State} {k a : Nat} {bs : List Byte} (h : hostWrite s k a bs = some t) :
    t.bmcOpen = s.bmcOpen := by
  obtain ⟨l, -, rfl, -⟩ := hostWrite_some h
  rfl

theorem deliver_bmcOpen (tk : Ticket) (env : List Byte) (s : State) :
    (deliver tk env s).bmcOpen = s.bmcOpen - bmcShare s tk := by
  obtain ⟨controller, sent⟩ | ⟨other, u, b, k, written, sent, -⟩ := deliver_cases tk env s <;> rw [sent]
  · rw [bmcShare, if_pos controller]
  · rw [(setIrqNow_signals _ _ _).bmcOpen, State.setBlock_bmcOpen, bmcShare_of_ne other, Nat.sub_zero]
    obtain rfl | ⟨-, a, written⟩ := written
    · rfl
    · exact hostWrite_bmcOpen written

theorem replyNow_bmcOpen (tk : Ticket) (st : RStatus) (f : Bool) (b : List Byte) (s : State) :
    (replyNow tk st f b s).bmcOpen = s.bmcOpen - bmcShare s tk := by
  obtain ⟨env, u, sent, rfl | ⟨-, a, bs, written⟩⟩ := replyNow_cases tk st f b s <;> rw [sent, deliver_bmcOpen]
  rw [hostWrite_bmcOpen written, (hostWrite_replies written).bmcShare_eq]

/-- A reply to a session that has not ended; one that waits for the frame head is never the controller's (R460). -/
theorem replyWith_bmcOpen {tk : Ticket} (st : RStatus) (f : Bool) (b : List Byte) (s : State) (alive : tk.dead = false)
    (fresh : staleTicket s tk = false) : (replyWith tk st f b s).bmcOpen = s.bmcOpen - bmcShare s tk := by
  obtain ⟨dead, -⟩ | ⟨stale, -⟩ | ⟨other, l, done⟩ | done := replyWith_cases tk st f b s
  · exact absurd dead (by simp [alive])
  · exact absurd stale (by simp [fresh])
  · rw [done, bmcShare_of_ne other, Nat.sub_zero]
  · rw [done, replyNow_bmcOpen]

/-! Refusals. -/

/-- R468: the ticket of a request names the session that its partner has now, or none. -/
theorem ticketOf_fresh (r : ZReq) (s : State) : staleTicket s (ticketOf r s) = false := by
  simp only [staleTicket, ticketOf]
  cases sessionOf s r.block with
  | none => simp
  | some x => by_cases hello : le r.env 4 2 = 1 <;> simp [hello]

/-- R472: a request without the flag of an indirect payload has a direct reply. -/
theorem ticketOf_direct {r : ZReq} (s : State) (h : le r.env 3 1 = 0) : (ticketOf r s).indirect = none := by
  simp [ticketOf, h, bit]

theorem zRefuse_eq_replyWith (tk : Ticket) (st : RStatus) (s : State) :
    ∃ f b, zRefuse tk st s = replyWith tk st f b s := by
  unfold zRefuse
  split
  · exact ⟨_, _, rfl⟩
  · exact ⟨_, _, rfl⟩

/-- R481: the state after a refusal, which is answered and shown. -/
def refusedState (r : ZReq) (st : RStatus) (s : State) : State := refresh (zRefuse (ticketOf r s) st (taken r s))

theorem refusedState_mails (r : ZReq) (st : RStatus) (s : State) : MailsOnly r.block s (refusedState r st s) := by
  obtain ⟨f, b, reply⟩ := zRefuse_eq_replyWith (ticketOf r s) st (taken r s)
  rw [refusedState, reply]
  exact ((taken_mails r s).trans (replyWith_mails (ticketOf r s) st f b _)).trans ((refresh_signals _).mails _)

theorem refusedState_bmcOpen (r : ZReq) (st : RStatus) (s : State) : (refusedState r st s).bmcOpen = s.bmcOpen := by
  obtain ⟨f, b, reply⟩ := zRefuse_eq_replyWith (ticketOf r s) st (taken r s)
  have took := taken_replies r s
  have fresh : staleTicket (taken r s) (ticketOf r s) = false := by rw [took.staleTicket_eq, ticketOf_fresh]
  rw [refusedState, (refresh_signals _).bmcOpen, reply, replyWith_bmcOpen st f b _ rfl fresh, taken_bmcOpen, took.bmcShare_eq,
    Nat.add_sub_cancel]

theorem refusedState_inline_host {r : ZReq} (st : RStatus) (s : State) (inline : r.slot = none) (direct : le r.env 3 1 = 0) :
    (refusedState r st s).host = s.host := by
  obtain ⟨f, b, reply⟩ := zRefuse_eq_replyWith (ticketOf r s) st (taken r s)
  rw [refusedState, (refresh_signals _).host, reply, replyWith_inline_host st f b _ inline (ticketOf_direct s direct), taken_host]

/-- Every command of the table is dealt with under its row's opcode and form. -/
theorem exec_eq_zRow : ∀ row ∈ zRows, ∃ f, ∀ r s, exec (row.2.2 r) s = zRow row.1 row.2.1 f r s := by
  simp only [zRows, List.cons_append, List.nil_append, List.forall_mem_cons, List.not_mem_nil, false_implies, implies_true,
    and_true]
  and_intros <;> exact ⟨_, fun _ _ => rfl⟩

/-- R481: a request that a check refuses leads to the state of its refusal, or, where it cannot be taken under its row's name,
changes nothing. -/
theorem exec_refused {row : Nat × Option Nat × (ZReq → Instr)} {r : ZReq} {s t : State} {st : RStatus} (listed : row ∈ zRows)
    (refusal : zCheck r s = .refused st) (step : exec (row.2.2 r) s = .next t) : t = refusedState r st s ∨ t = s := by
  obtain ⟨f, runs⟩ := exec_eq_zRow row listed
  rw [runs] at step
  by_cases fits : rowFits row.1 row.2.1 r s
  · rw [zRow_refuses fits refusal] at step
    exact .inl (Host.Outcome.next.inj step).symm
  · rw [zRow_ignores fits] at step
    exact .inr (Host.Outcome.next.inj step).symm

end Sys2Proof.Machine

open Sys2Proof Sys2Proof.Machine

/-- Settles O40: taking the request, the reply and the look at the status registers only mail; the reply takes back what the
request has counted of the controller's open commands; an inline reply with no indirect payload leaves host memory. -/
theorem refusedRequestsChangeNothing : Obligations.RefusedRequestsChangeNothing := by
  unfold Obligations.RefusedRequestsChangeNothing
  intro row listed r s t st refusal step
  have outcome := exec_refused listed refusal step
  have mails : MailsOnly r.block s t := by
    obtain rfl | rfl := outcome
    exacts [refusedState_mails r st s, .refl _ _]
  have bmcOpen : t.bmcOpen = s.bmcOpen := by
    obtain rfl | rfl := outcome
    exacts [refusedState_bmcOpen r st s, rfl]
  have inline (slot : r.slot = none) (direct : le r.env 3 1 = 0) : t.host.mem = s.host.mem := by
    obtain rfl | rfl := outcome
    exacts [congrArg HostMem.mem (refusedState_inline_host st s slot direct), rfl]
  obtain ⟨⟨rest, -, -⟩, host, other, own⟩ := mails
  refine ⟨?_, ?_, ?_, ?_, ?_, ?_, ?_, ?_, ?_, ?_, ?_, ?_, ?_, ?_, ?_, ?_, ?_, ?_, ?_, ?_, ?_, ?_, ?_, ?_, ?_, ?_, host, inline,
    bmcOpen, fun n away => MBlock.unsignalled_eq_iff.1 (other n away), MBlock.unmailed_eq_iff.1 own⟩
  all_goals rw [rest]
end

section
/-! SUPPORT. A refutation: HOLD_BOUND_EXCEEDED puts a core that a failure stopped in this very cycle back as `State.fails` notes it
(R536, R560), and `memsWf` says nothing of the scratchpads noted there. -/

namespace Sys2Proof.Machine

/-- A core that holds for the first segment of item 0, with a zero cell in its scratchpad: not the canonical form. -/
def strayCore : Core := { sp := { cells := [(0, 0)] }, seq := { st := .hold true 0, item := some (0, 0, 0) } }

/-- A state in which core 0 stands noted as `strayCore` for the present cycle. -/
def strayState : State := {
  parcels := [(0, { plans := [⟨0, 0, 0, 0, 0, 0, 0, 0, 0, 0, 0, [], []⟩], items := [{ seq := 0, tenancy := 0 }] })]
  fails := { cores := [(0, strayCore)] }, pending := [.holdBoundExceeded 0 0] }

/-- Whether a step answers a state with a memory that is not in canonical form. -/
def stepStrays (s : State) : Bool :=
  match step s with
  | .next t => !memsWf t
  | _ => false

theorem exists_next_of_stepStrays {s : State} (strays : stepStrays s = true) : ∃ t, step s = .next t ∧ memsWf t = false := by
  unfold stepStrays at strays
  split at strays
  · exact ⟨_, ‹_›, by simpa using strays⟩
  · exact absurd strays Bool.false_ne_true

theorem memsWf_strayState : memsWf strayState = true := by decide +kernel

theorem stepStrays_strayState : stepStrays strayState = true := by decide +kernel

end Sys2Proof.Machine

open Sys2Proof.Machine

/-- Refutes O4: the item of the core that is put back fails, and what no failure undoes of its scratchpad stays in the state. -/
theorem not_stepsKeepMemoriesCanonical : ¬ Obligations.StepsKeepMemoriesCanonical := by
  unfold Obligations.StepsKeepMemoriesCanonical
  intro keeps
  obtain ⟨t, answered, strayed⟩ := exists_next_of_stepStrays stepStrays_strayState
  exact Bool.false_ne_true (strayed.symm.trans (keeps strayState t memsWf_strayState answered))
end

section
/-! SUPPORT. What every command leaves: the queue of commands. One lemma for each function of the model that gives a state,
proved from those of the functions that it calls, outermost first; `exec_answers` puts them together. -/

namespace Sys2Proof.Machine

/-- From s to t the queue of commands stays. -/
structure Keeps (s t : State) : Prop where
  queue : t.pending = s.pending

/-- A command answers a next state and keeps the queue. -/
def Answers (s : State) (o : Host.Outcome State Fault Refusal) : Prop := ∃ t, o = .next t ∧ Keeps s t

namespace Keeps

variable {s t u : State}

theorem refl (s : State) : Keeps s s := ⟨rfl⟩

theorem trans (a : Keeps s t) (b : Keeps t u) : Keeps s u := ⟨b.queue.trans a.queue⟩

theorem ite {c : Prop} {_ : Decidable c} (a : Keeps s t) (b : Keeps s u) : Keeps s (if c then t else u) := by
  split <;> assumption

/-- A step that is taken or not. -/
theorem when {c : Prop} {_ : Decidable c} (a : Keeps s t) (b : Keeps s t → Keeps s u) : Keeps s (if c then u else t) :=
  .ite (b a) a

/-- A step that is left out or not. -/
theorem whenNot {c : Prop} {_ : Decidable c} (a : Keeps s t) (b : Keeps s t → Keeps s u) : Keeps s (if c then t else u) :=
  .ite a (b a)

/-- One of two ways to go on. -/
theorem branch {c : Prop} {_ : Decidable c} {v : State} (b : Keeps s t → Keeps s u) (b' : Keeps s t → Keeps s v)
    (a : Keeps s t) : Keeps s (if c then u else v) := .ite (b a) (b' a)

theorem foldl {α : Type} {f : State → α → State} {l : List α} (k : Keeps s t)
    (h : ∀ u a, Keeps s u → Keeps s (f u a)) : Keeps s (l.foldl f t) := by
  induction l generalizing t with
  | nil => exact k
  | cons a r ih => exact ih (h t a k)

/-- What an operation that can fail leaves. -/
theorem orElse {o : Option State} (h : ∀ u, o = some u → Keeps s u) (k : Keeps s t) : Keeps s (o.getD t) := by
  cases o with
  | none => exact k
  | some u => exact h u rfl

section
variable {α β γ δ : Type} {c : Prop} {_ : Decidable c}

/-! A component of a tuple, which the kernel would else look for by evaluating the tuple it is compared with. -/

theorem mk1 {a : α} (h : Keeps s t) : Keeps s (t, a).1 := h
theorem mk2 {a : α} (h : Keeps s t) : Keeps s (a, t).2 := h
theorem mk22 {a : α} {b : β} (h : Keeps s t) : Keeps s (a, b, t).2.2 := h
theorem mk222 {a : α} {b : β} {c : γ} (h : Keeps s t) : Keeps s (a, b, c, t).2.2.2 := h
theorem mk2222 {a : α} {b : β} {c : γ} {d : δ} (h : Keeps s t) : Keeps s (a, b, c, d, t).2.2.2.2 := h

theorem ite1 {a b : State × α} (x : Keeps s a.1) (y : Keeps s b.1) : Keeps s (if c then a else b).1 := by
  split <;> assumption

theorem ite2 {a b : α × State} (x : Keeps s a.2) (y : Keeps s b.2) : Keeps s (if c then a else b).2 := by
  split <;> assumption

theorem ite22 {a b : α × β × State} (x : Keeps s a.2.2) (y : Keeps s b.2.2) : Keeps s (if c then a else b).2.2 := by
  split <;> assumption

theorem ite222 {a b : α × β × γ × State} (x : Keeps s a.2.2.2) (y : Keeps s b.2.2.2) :
    Keeps s (if c then a else b).2.2.2 := by
  split <;> assumption

theorem ite2222 {a b : α × β × γ × δ × State} (x : Keeps s a.2.2.2.2) (y : Keeps s b.2.2.2.2) :
    Keeps s (if c then a else b).2.2.2.2 := by
  split <;> assumption
end

/-- An update of the other fields. -/
theorem other {a1 a2 a3 a4 a5 a6 a7 a8 a9 a10 a11 a12 a13 a14 a15 a16 a17 a18 a19 a20 a21 a22 a23 a24 a25 a26 a27 a28 a29 a30}
    (k : Keeps s t) :
    Keeps s ⟨t.pending, a1, a2, a3, a4, a5, a6, a7, a8, a9, a10, a11, a12, a13, a14, a15, a16, a17, a18, a19, a20, a21, a22,
      a23, a24, a25, a26, a27, a28, a29, a30⟩ := ⟨k.queue⟩

theorem of_records (k : Keeps s t) (h : RecordsOnly t u) : Keeps s u := k.trans ⟨h.eqs.1⟩

theorem of_signals (k : Keeps s t) (h : SignalsOnly t u) : Keeps s u := k.of_records h.records

theorem of_replies (k : Keeps s t) (h : RepliesOnly t u) : Keeps s u := k.trans ⟨by rw [h.rest]⟩

theorem hostWrite {n a : Nat} {bs : List Byte} (k : Keeps s t) (h : Machine.hostWrite t n a bs = some u) : Keeps s u :=
  k.of_replies (hostWrite_replies h)

theorem setCore {i x} (k : Keeps s t) : Keeps s (t.setCore i x) := k.other
theorem setCmeta {i x} (k : Keeps s t) : Keeps s (t.setCmeta i x) := k.other
theorem setDie {i x} (k : Keeps s t) : Keeps s (t.setDie i x) := k.other
theorem setStack {i x} (k : Keeps s t) : Keeps s (t.setStack i x) := k.other
theorem setParcel {i x} (k : Keeps s t) : Keeps s (t.setParcel i x) := k.other
theorem modParcel {i f} (k : Keeps s t) : Keeps s (t.modParcel i f) := k.other
theorem modTen {p i f} (k : Keeps s t) : Keeps s (t.modTen p i f) := k.other
theorem modItem {p i f} (k : Keeps s t) : Keeps s (t.modItem p i f) := k.other
theorem setBlock {i x} (k : Keeps s t) : Keeps s (t.setBlock i x) := k.other
theorem modBlock {i f} (k : Keeps s t) : Keeps s (t.modBlock i f) := k.other
theorem setPort {i x} (k : Keeps s t) : Keeps s (t.setPort i x) := k.other
theorem draw (k : Keeps s t) : Keeps s (Machine.draw t).2 := k.other
theorem atCycle {i} (k : Keeps s t) : Keeps s (t.atCycle i) := k.other
theorem modCore {i f} (k : Keeps s t) : Keeps s (t.modCore i f) := k.other
theorem setGran {h g} (k : Keeps s t) : Keeps s (t.setGran h g) := k.other
theorem msix {fn v} (k : Keeps s t) : Keeps s (Machine.msix fn v t) := k.of_signals (msix_signals _ _ _)
theorem blockMsix {n v} (k : Keeps s t) : Keeps s (Machine.blockMsix n v t) := k.of_signals (blockMsix_signals _ _ _)
theorem setIrqNow {n v} (k : Keeps s t) : Keeps s (Machine.setIrqNow n v t) := k.of_signals (setIrqNow_signals _ _ _)
theorem setIrq {n v} (k : Keeps s t) : Keeps s (Machine.setIrq n v t) := k.of_signals (setIrq_signals _ _ _)
theorem refresh (k : Keeps s t) : Keeps s (Machine.refresh t) := k.of_signals (refresh_signals _)
theorem recordP {a b c d e f g} (k : Keeps s t) : Keeps s (Machine.recordP a b c d e f g t) :=
  k.of_records (recordP_records _ _ _ _ _ _ _ _)
theorem recordShared {a b c d e} (k : Keeps s t) : Keeps s (Machine.recordShared a b c d e t) :=
  k.of_records (recordShared_records _ _ _ _ _ _)
theorem recordM {a b c} (k : Keeps s t) : Keeps s (Machine.recordM a b c t) := k.of_records (recordM_records _ _ _ _)
theorem replyWith {a b c d} (k : Keeps s t) : Keeps s (Machine.replyWith a b c d t) :=
  k.of_replies (replyWith_replies _ _ _ _ _)
theorem reply {a b c} (k : Keeps s t) : Keeps s (Machine.reply a b c t) := k.of_replies (reply_replies _ _ _ _)
theorem refuse {a b} (k : Keeps s t) : Keeps s (Machine.refuse a b t) := k.reply
theorem taken {r} (k : Keeps s t) : Keeps s (Machine.taken r t) := k.of_replies (taken_replies _ _)

end Keeps

namespace Answers

variable {s t : State}

theorem fin (k : Keeps s t) : Answers s (Machine.fin t) := ⟨_, rfl, k.refresh⟩

theorem next (k : Keeps s t) : Answers s (.next t) := ⟨_, rfl, k⟩

theorem ite {c : Prop} {_ : Decidable c} {a b} (x : Answers s a) (y : Answers s b) : Answers s (if c then a else b) := by
  split <;> assumption

end Answers

end Sys2Proof.Machine
end

section
/-! SUPPORT. What keeps the queue of commands: signals, rings and the host's memory, items and their ends. -/

namespace Sys2Proof.Machine

variable {s₀ s : State}

theorem Keeps.eventsReadable {p t seq} (hs : Keeps s₀ s) : Keeps s₀ (Machine.eventsReadable p t seq s) :=
  .whenNot hs fun hs => .foldl hs fun _ _ hs => .when hs fun hs => .setIrq hs

theorem Keeps.satEvent {p t seq code idx} (hs : Keeps s₀ s) : Keeps s₀ (Machine.satEvent p t seq code idx s) :=
  .recordP hs

theorem Keeps.satShared {ps code idx idxTen} (hs : Keeps s₀ s) : Keeps s₀ (Machine.satShared ps code idx idxTen s) :=
  .recordShared hs

theorem Keeps.peerLostEvent {p t seq member ch} (hs : Keeps s₀ s) :
    Keeps s₀ (Machine.peerLostEvent p t seq member ch s) :=
  .recordP hs

theorem Keeps.internalEvent {code} (hs : Keeps s₀ s) : Keeps s₀ (Machine.internalEvent code s) := .recordM hs

theorem Keeps.ringFail {n} (hs : Keeps s₀ s) : Keeps s₀ (Machine.ringFail n s) := .internalEvent (.setIrq hs)

theorem Keeps.drainDlr {p t n m} (hs : Keeps s₀ s) : Keeps s₀ (Machine.drainDlr p t n m s) := by
  induction m generalizing s with
  | zero => exact hs
  | succ m ih =>
    unfold Machine.drainDlr
    dsimp only
    split
    · exact hs
    · refine .whenNot hs fun hs => ?_
      split
      · exact .ringFail (.setBlock hs)
      · next write => exact ih (.setIrq (.modTen (.setBlock (.hostWrite hs write))))

theorem Keeps.drainCpl {p t n m} (hs : Keeps s₀ s) : Keeps s₀ (Machine.drainCpl p t n m s) := by
  induction m generalizing s with
  | zero => exact hs
  | succ m ih =>
    unfold Machine.drainCpl
    dsimp only
    split
    · exact hs
    · refine .whenNot hs fun hs => .whenNot hs fun hs => ?_
      split
      · exact .ringFail (.setBlock hs)
      · next write => exact ih (.setIrq (.modTen (.setBlock (.hostWrite hs write))))

theorem Keeps.drainRings {p t} (hs : Keeps s₀ s) : Keeps s₀ (Machine.drainRings p t s) := .drainCpl (.drainDlr hs)

theorem Keeps.queueEntries {p t cpl dlr} (hs : Keeps s₀ s) : Keeps s₀ (Machine.queueEntries p t cpl dlr s) :=
  .drainRings (.modTen hs)

theorem Keeps.postEntries {p t cpl dlr} (hs : Keeps s₀ s) : Keeps s₀ (Machine.postEntries p t cpl dlr s) :=
  .ite (.other hs) (.queueEntries hs)

theorem Keeps.cadastreWrite {img} (hs : Keeps s₀ s) : Keeps s₀ (Machine.cadastreWrite img s) :=
  .of_records (.other hs) (cadastreWrite_records img s)

theorem Keeps.memErr {kind a replays detail c} (hs : Keeps s₀ s) :
    Keeps s₀ (Machine.memErr kind a replays detail c s) := by
  unfold Machine.memErr
  dsimp only
  split
  · exact .recordP hs
  · exact .recordM hs

theorem Keeps.lostAccess {a replays c} (hs : Keeps s₀ s) : Keeps s₀ (Machine.lostAccess a replays c s) := by
  unfold Machine.lostAccess
  split
  · exact .whenNot hs fun hs => .modItem (.memErr hs)
  · exact .memErr hs

theorem Keeps.hbmCount {k which n} (hs : Keeps s₀ s) : Keeps s₀ (Machine.hbmCount k which n s) :=
  .when (.setStack hs) fun hs => .satShared hs

theorem Keeps.rowNote {a worse} (hs : Keeps s₀ s) : Keeps s₀ (Machine.rowNote a worse s) :=
  .ite (.other hs) (.other hs)

theorem Keeps.granCheck {a err exhausted replays c} (hs : Keeps s₀ s) :
    Keeps s₀ (Machine.granCheck a err exhausted replays c s).2.2 :=
  .ite22 (.mk22 (.lostAccess (.when hs fun hs => .memErr hs)))
    (.ite22 (.ite22 (.mk22 (.memErr (.memErr (.hbmCount hs)))) (.ite22 (.mk22 (.memErr (.hbmCount hs))) (.mk22 hs)))
    (.ite22 (.mk22 (.memErr (.hbmCount hs))) (by
    split
    · exact .mk22 hs
    · exact .ite22 (.mk22 hs) (.mk22 (.whenNot (.rowNote (.hbmCount hs)) fun hs => .memErr (.setStack hs)))
    · exact .mk22 (.memErr (.rowNote (.hbmCount hs)))
    · exact .mk22 (.memErr (.rowNote (.hbmCount hs))))))

theorem Keeps.rdGran {a c} (hs : Keeps s₀ s) : Keeps s₀ (Machine.rdGran a c s).2.2 := .granCheck hs

theorem Keeps.putGran {a d} (hs : Keeps s₀ s) : Keeps s₀ (Machine.putGran a d s) := .other hs

theorem Keeps.wrGran {a bs c} (hs : Keeps s₀ s) : Keeps s₀ (Machine.wrGran a bs c s).2 :=
  .ite2 (.mk2 (.lostAccess hs))
    (.ite2 (.mk2 (.putGran hs)) (.ite2 (.mk2 (.putGran (.rdGran hs))) (.mk2 (.rdGran hs))))

theorem Keeps.writeBack {h key} (hs : Keeps s₀ s) : Keeps s₀ (Machine.writeBack h key s) := by
  unfold Machine.writeBack
  dsimp only
  split
  · exact .when hs fun hs => .setGran (.wrGran hs)
  · exact hs

theorem Keeps.touch {h key} (hs : Keeps s₀ s) : Keeps s₀ (Machine.touch h key s) := .setGran hs

theorem Keeps.fillLine {h set tag l} (hs : Keeps s₀ s) : Keeps s₀ (Machine.fillLine h set tag l s) :=
  .touch (.setGran (.writeBack hs))

theorem Keeps.rdLine {p a n alloc c} (hs : Keeps s₀ s) : Keeps s₀ (Machine.rdLine p a n alloc c s).2.2 := by
  unfold Machine.rdLine
  dsimp only
  split
  · exact .mk22 (.rdGran hs)
  · exact .ite22 (.mk22 (.lostAccess hs)) (by
      split
      · exact .mk22 (.touch hs)
      · exact .ite22 (.mk22 (.fillLine (.rdGran hs))) (.mk22 (.rdGran hs)))

theorem Keeps.wrLine {p a bs alloc w c} (hs : Keeps s₀ s) : Keeps s₀ (Machine.wrLine p a bs alloc w c s).2 := by
  unfold Machine.wrLine
  dsimp only
  split
  · exact .wrGran hs
  · exact .ite2 (.mk2 (.lostAccess hs)) (by
      split
      · exact .mk2 (.touch (.setGran hs))
      · exact .ite2 (.wrGran hs)
          (.ite2 (.mk2 (.lostAccess hs))
          (.ite2 (.mk2 (.fillLine hs)) (.ite2 (.mk2 (.fillLine (.rdGran hs))) (.mk2 (.rdGran hs))))))

theorem Keeps.pvReadL {p ten alloc c l acc} (hs : Keeps s₀ s) :
    Keeps s₀ (Machine.pvReadL p ten alloc c l acc s).2.2.2 := by
  induction l generalizing s acc with
  | nil => exact hs
  | cons x l ih =>
    unfold Machine.pvReadL
    split
    · exact hs
    · exact .ite222 (ih (.rdLine hs)) (.mk222 (.rdLine hs))

theorem Keeps.pvRead {p ten v n alloc c} (hs : Keeps s₀ s) : Keeps s₀ (Machine.pvRead p ten v n alloc c s).2.2.2 :=
  .pvReadL hs

theorem Keeps.pvWriteL {p ten alloc w c l bs n} (hs : Keeps s₀ s) :
    Keeps s₀ (Machine.pvWriteL p ten alloc w c l bs n s).2.2.2 := by
  induction l generalizing s bs n with
  | nil => exact hs
  | cons x l ih =>
    unfold Machine.pvWriteL
    split
    · exact hs
    · exact .ite222 (ih (.wrLine hs)) (.mk222 (.wrLine hs))

theorem Keeps.pvWrite {p ten v bs alloc w c} (hs : Keeps s₀ s) :
    Keeps s₀ (Machine.pvWrite p ten v bs alloc w c s).2.2.2 :=
  .pvWriteL hs

theorem Keeps.dsWrite {d a bs} (hs : Keeps s₀ s) : Keeps s₀ (Machine.dsWrite d a bs s) := .setDie hs

theorem Keeps.freshTag (hs : Keeps s₀ s) : Keeps s₀ (Machine.freshTag s).2 := .draw hs

theorem Keeps.dropLines {f} (hs : Keeps s₀ s) : Keeps s₀ (Machine.dropLines f s) := .other hs

theorem Keeps.zeroLot {lot} (hs : Keeps s₀ s) : Keeps s₀ (Machine.zeroLot lot s) := .other (.dropLines hs)

theorem Keeps.flushGran {h} (hs : Keeps s₀ s) : Keeps s₀ (Machine.flushGran h s) :=
  .setGran (.foldl hs fun _ _ hs => .writeBack hs)

theorem Keeps.zeroGran {h} (hs : Keeps s₀ s) : Keeps s₀ (Machine.zeroGran h s) := .setDie hs

theorem Keeps.flushParcel {p} (hs : Keeps s₀ s) : Keeps s₀ (Machine.flushParcel p s) :=
  .foldl hs fun _ _ hs => .ite (.flushGran hs) (.zeroGran hs)

theorem Keeps.flushItem {p seq} (hs : Keeps s₀ s) : Keeps s₀ (Machine.flushItem p seq s) :=
  .foldl hs fun _ _ hs => .foldl hs fun _ _ hs => .writeBack hs

theorem Keeps.sendOn {k fr} (hs : Keeps s₀ s) : Keeps s₀ (Machine.sendOn k fr s) :=
  .ite (.whenNot hs fun hs => .other hs) (.other (.setPort hs))

theorem Keeps.resend {k from_} (hs : Keeps s₀ s) : Keeps s₀ (Machine.resend k from_ s) := .other hs

theorem Keeps.routeFrame {fr} (hs : Keeps s₀ s) : Keeps s₀ (Machine.routeFrame fr s) := by
  unfold Machine.routeFrame
  dsimp only
  split
  · exact .sendOn hs
  · exact hs

theorem Keeps.countFrame {p ch sent} (hs : Keeps s₀ s) : Keeps s₀ (Machine.countFrame p ch sent s) :=
  .when (.modParcel hs) fun hs => .satEvent hs

theorem Keeps.sendChan {p ch type flags dest dparcel dch tag deadline offset body} (hs : Keeps s₀ s) :
    Keeps s₀ (Machine.sendChan p ch type flags dest dparcel dch tag deadline offset body s) :=
  .whenNot hs fun hs => .ite (.routeFrame (.countFrame (.modParcel hs))) (.routeFrame (.countFrame (.modParcel hs)))

theorem Keeps.sendMember {p ch type m24 body} (hs : Keeps s₀ s) :
    Keeps s₀ (Machine.sendMember p ch type m24 body s) :=
  .sendChan hs

theorem Keeps.beginWait {p ch key m} (hs : Keeps s₀ s) : Keeps s₀ (Machine.beginWait p ch key m s) :=
  .whenNot hs fun hs => .other hs

theorem Keeps.endWait {p ch key m} (hs : Keeps s₀ s) : Keeps s₀ (Machine.endWait p ch key m s) := .other hs

theorem Keeps.endWaits {p ch key} (hs : Keeps s₀ s) : Keeps s₀ (Machine.endWaits p ch key s) := .other hs

theorem Keeps.sendHold {dur cause} (hs : Keeps s₀ s) : Keeps s₀ (Machine.sendHold dur cause s) :=
  .whenNot hs fun hs => .recordM (.foldl hs fun _ _ hs => .routeFrame hs)

theorem Keeps.sendRing {p ch type body} (hs : Keeps s₀ s) : Keeps s₀ (Machine.sendRing p ch type body s) :=
  .foldl hs fun _ _ hs => .sendMember hs

theorem Keeps.tenCount {p t which} (hs : Keeps s₀ s) : Keeps s₀ (Machine.tenCount p t which s) :=
  .when (.modTen hs) fun hs => .satEvent hs

theorem Keeps.batchDone {p i st} (hs : Keeps s₀ s) : Keeps s₀ (Machine.batchDone p i st s) := by
  unfold Machine.batchDone
  dsimp only
  split
  · exact .modParcel hs
  · exact hs

theorem Keeps.endItem {p seq f ev adm} (hs : Keeps s₀ s) : Keeps s₀ (Machine.endItem p seq f ev adm s) := by
  unfold Machine.endItem
  dsimp only
  split
  · exact hs
  · exact .eventsReadable
      (.postEntries (.modParcel (.batchDone (.when (.tenCount (.modParcel (.flushItem hs))) fun hs => .modTen hs))))

theorem Keeps.spUndef {k a n} (hs : Keeps s₀ s) : Keeps s₀ (Machine.spUndef k a n s) := .setCore (.draw hs)

theorem Keeps.physUndef {p a n} (hs : Keeps s₀ s) : Keeps s₀ (Machine.physUndef p a n s) := by
  unfold Machine.physUndef
  dsimp only
  split
  · exact .setGran (.draw hs)
  · exact .other (.draw hs)

theorem Keeps.pvUndef {p ten v n} (hs : Keeps s₀ s) : Keeps s₀ (Machine.pvUndef p ten v n s) :=
  .foldl hs fun _ _ hs => by
    split
    · exact .physUndef hs
    · exact hs

theorem Keeps.dsUndef {d a n} (hs : Keeps s₀ s) : Keeps s₀ (Machine.dsUndef d a n s) := .setDie (.draw hs)

theorem Keeps.resetStream {p ch tag} (hs : Keeps s₀ s) : Keeps s₀ (Machine.resetStream p ch tag s) :=
  .sendChan (.endWaits (.endWaits (.modParcel hs)))

theorem Keeps.cancelDesc {p ten k lc v d} (hs : Keeps s₀ s) : Keeps s₀ (Machine.cancelDesc p ten k lc v d s) :=
  .ite (.foldl hs fun _ _ hs => .spUndef hs) (.ite (.foldl hs fun _ _ hs => .pvUndef hs) (.when hs fun hs => by
    split
    · exact .foldl hs fun _ _ hs => by
        split
        · exact .dsUndef hs
        · exact hs
    · exact hs))

theorem Keeps.feedLate {p ten seq seg k h} (hs : Keeps s₀ s) : Keeps s₀ (Machine.feedLate p ten seq seg k h s) :=
  .whenNot hs fun hs => .recordP hs

theorem Keeps.powerQuarters {k} (hs : Keeps s₀ s) : Keeps s₀ (Machine.powerQuarters k s) :=
  .setCore (.foldl hs fun _ _ hs => .spUndef hs)

theorem Keeps.haltCore {k} (hs : Keeps s₀ s) : Keeps s₀ (Machine.haltCore k s) := by
  unfold Machine.haltCore
  dsimp only
  split
  · exact .setCore hs
  · exact .setCore (.powerQuarters (.foldl (.setCore hs) fun _ _ hs => .cancelDesc hs))

theorem Keeps.stopCore {k} (hs : Keeps s₀ s) : Keeps s₀ (Machine.stopCore k s) := by
  unfold Machine.stopCore
  dsimp only
  split
  · exact .haltCore hs
  · exact .haltCore (.feedLate hs)

theorem Keeps.noteEnded {e} (hs : Keeps s₀ s) : Keeps s₀ (Machine.noteEnded e s) := .other hs

theorem Keeps.noteCores {ks} (hs : Keeps s₀ s) : Keeps s₀ (Machine.noteCores ks s) := .other hs

/-- The kernel unfolds a matcher before the function around it and would count the ring's entries one by one here, so the
definition is unfolded before it is applied. -/
theorem Keeps.amendRing {n r seq e} (hs : Keeps s₀ s) : Keeps s₀ (Machine.amendRing n r seq e s) := by
  obtain ⟨amend, rule⟩ : ∃ amend, amend = @Machine.amendRing := ⟨_, rfl⟩
  rw [← rule]
  delta Machine.amendRing at rule
  subst rule
  beta_reduce
  extract_lets places
  generalize List.find? _ places = place
  cases place with
  | none => exact hs
  | some k => exact .orElse (fun u write => .hostWrite hs write) hs

theorem Keeps.amendEntries {p t cpl dlr} (hs : Keeps s₀ s) : Keeps s₀ (Machine.amendEntries p t cpl dlr s) :=
  .amendRing (.amendRing (.modTen (.other hs)))

theorem Keeps.failAgain {e f ev} (hs : Keeps s₀ s) : Keeps s₀ (Machine.failAgain e f ev s) := by
  have halted : Keeps s₀ ((coresOf s e.parcel e.item.seq).foldl (fun s k => Machine.haltCore k s) s) :=
    .foldl hs fun _ _ hs => .haltCore hs
  unfold Machine.failAgain
  exact .ite (.noteEnded halted) (.branch (fun hs => .endItem (.modItem hs)) (fun hs => .amendEntries hs) (.noteEnded halted))

theorem Keeps.failItem {p seq f ev} (hs : Keeps s₀ s) : Keeps s₀ (Machine.failItem p seq f ev s) := by
  unfold Machine.failItem
  dsimp only
  split
  · exact .failAgain hs
  · exact hs
  · exact .branch (fun hs => .modParcel hs) (fun hs => .endItem (.modItem hs))
      (.noteEnded (.modParcel (.foldl (.other (.foldl (.noteCores hs) fun _ _ hs => .stopCore hs)) fun _ _ hs =>
      .resetStream hs)))

theorem Keeps.fenceCore {cause k} (hs : Keeps s₀ s) : Keeps s₀ (Machine.fenceCore cause k s) :=
  .whenNot (.other (.setCmeta hs)) fun hs => .stopCore hs

theorem Keeps.fenceEvent {p ten seq k lc scope cause fl n} (hs : Keeps s₀ s) :
    Keeps s₀ (Machine.fenceEvent p ten seq k lc scope cause fl n s) :=
  .recordP hs

theorem Keeps.failItems {p lc its} (hs : Keeps s₀ s) : Keeps s₀ (Machine.failItems p lc its s) :=
  .foldl hs fun _ _ hs => .failItem hs

theorem Keeps.fenceInParcel {p ks scope fl} (hs : Keeps s₀ s) : Keeps s₀ (Machine.fenceInParcel p ks scope fl s) :=
  .foldl (.failItems (.fenceEvent hs)) fun _ _ hs => .fenceCore hs

theorem Keeps.coreFault {k fl} (hs : Keeps s₀ s) : Keeps s₀ (Machine.coreFault k fl s) := by
  unfold Machine.coreFault
  split
  · exact .fenceInParcel hs
  · exact .fenceCore (.fenceEvent hs)

theorem Keeps.cad (hs : Keeps s₀ s) : Keeps s₀ (Machine.cad s) := .cadastreWrite hs

theorem Keeps.clearHalves {k} (hs : Keeps s₀ s) : Keeps s₀ (Machine.clearHalves k s) := .setCore hs

theorem Keeps.zeroScratch {k} (hs : Keeps s₀ s) : Keeps s₀ (Machine.zeroScratch k s) := .setCore hs

theorem Keeps.clearParcel {p} (hs : Keeps s₀ s) : Keeps s₀ (Machine.clearParcel p s) := by
  unfold Machine.clearParcel
  exact .modParcel (.flushParcel (.foldl hs fun _ _ hs => .zeroScratch (.clearHalves hs)))

theorem Keeps.promote {fenced reserve} (hs : Keeps s₀ s) : Keeps s₀ (Machine.promote fenced reserve s) := by
  unfold Machine.promote
  dsimp only
  split
  · exact .cad (.recordP (.modParcel (.setCore (.setCmeta (.setCmeta hs)))))
  · exact .recordP (.setCore (.setCmeta (.setCmeta hs)))

end Sys2Proof.Machine
end

section
/-! SUPPORT. What keeps the queue of commands: cores, slots, streams and virtual addresses. -/

namespace Sys2Proof.Machine

variable {s₀ s : State}

theorem Keeps.beginSlice {p t} (hs : Keeps s₀ s) : Keeps s₀ (Machine.beginSlice p t s) := .modParcel hs

theorem Keeps.takeSeq {p t} (hs : Keeps s₀ s) : Keeps s₀ (Machine.takeSeq p t s).2 := by
  unfold Machine.takeSeq
  dsimp only
  exact .modTen hs

theorem Keeps.admitItem {p i} (hs : Keeps s₀ s) : Keeps s₀ (Machine.admitItem p i s) := by
  unfold Machine.admitItem
  dsimp only
  split
  · exact .endItem (.modParcel hs)
  · exact .modParcel hs

theorem Keeps.stopEntry {p r k reg} (hs : Keeps s₀ s) : Keeps s₀ (Machine.stopEntry p r k reg s) := by
  unfold Machine.stopEntry
  dsimp only
  split
  · exact hs
  · exact .whenNot hs fun hs => .endItem (.modParcel (.modParcel (.takeSeq hs)))

theorem Keeps.batchBuild {p r reg} (hs : Keeps s₀ s) : Keeps s₀ (Machine.batchBuild p r reg s) :=
  .whenNot hs fun hs => .whenNot (.foldl hs fun _ _ hs => .stopEntry hs) fun hs => .admitItem (.takeSeq hs)

theorem Keeps.buildBatches {p} (hs : Keeps s₀ s) : Keeps s₀ (Machine.buildBatches p s) :=
  .when hs fun hs => .foldl hs fun _ _ hs => by
    split
    · exact .batchBuild hs
    · exact hs

theorem Keeps.startSlice {p t} (hs : Keeps s₀ s) : Keeps s₀ (Machine.startSlice p t s) :=
  .buildBatches (.beginSlice hs)

theorem Keeps.failFenced {p n} (hs : Keeps s₀ s) : Keeps s₀ (Machine.failFenced p n s) := by
  induction n generalizing s with
  | zero => exact hs
  | succ n ih =>
    unfold Machine.failFenced
    dsimp only
    split
    · exact hs
    · exact .when hs fun hs => ih (.failItem hs)

theorem Keeps.stateEvent {cond value} (hs : Keeps s₀ s) : Keeps s₀ (Machine.stateEvent cond value s) := .recordM hs

theorem Keeps.overrunAtTick (hs : Keeps s₀ s) : Keeps s₀ (Machine.overrunAtTick s) :=
  .foldl hs fun _ _ hs => .foldl hs fun _ _ hs => .failItem hs

theorem Keeps.thermOverPlan {p} (hs : Keeps s₀ s) : Keeps s₀ (Machine.thermOverPlan p s) :=
  .whenNot hs fun hs => .recordP (.modParcel hs)

theorem Keeps.coarseTotals {p} (hs : Keeps s₀ s) : Keeps s₀ (Machine.coarseTotals p s) := .modParcel hs

theorem Keeps.frameCounts {p} (hs : Keeps s₀ s) : Keeps s₀ (Machine.frameCounts p s) :=
  .ite (.when (.modParcel hs) fun hs => .satEvent hs)
    (.when hs fun hs => .modParcel (.when (.modTen hs) fun hs => .tenCount hs))

theorem Keeps.refreshEvent {k} (hs : Keeps s₀ s) : Keeps s₀ (Machine.refreshEvent k s) := .recordM hs

theorem Keeps.refreshFall {k} (hs : Keeps s₀ s) : Keeps s₀ (Machine.refreshFall k s) :=
  .whenNot (.setStack hs) fun hs => .refreshEvent hs

theorem Keeps.sendTicks (hs : Keeps s₀ s) : Keeps s₀ (Machine.sendTicks s) :=
  .when hs fun hs => .foldl hs fun _ _ hs => .sendOn hs

theorem Keeps.fedCount (hs : Keeps s₀ s) : Keeps s₀ (Machine.fedCount s) := .whenNot hs fun hs => .other hs

theorem Keeps.stretched {n} (hs : Keeps s₀ s) : Keeps s₀ (Machine.stretched n s) := by
  unfold Machine.stretched
  dsimp only
  split
  · exact .other hs
  · exact hs

theorem Keeps.fedQuiet (hs : Keeps s₀ s) : Keeps s₀ (Machine.fedQuiet s) := .when hs fun hs => .other hs

theorem Keeps.jumpTo {n} (hs : Keeps s₀ s) : Keeps s₀ (Machine.jumpTo n s) := .other hs

theorem Keeps.datumAdopt (hs : Keeps s₀ s) : Keeps s₀ (Machine.datumAdopt s) := by
  unfold Machine.datumAdopt
  dsimp only
  split
  · exact .when hs fun hs => .reply (.other (.jumpTo hs))
  · exact hs

theorem Keeps.setAlert (hs : Keeps s₀ s) : Keeps s₀ (Machine.setAlert s) := .other hs

theorem Keeps.tickPower (hs : Keeps s₀ s) : Keeps s₀ (Machine.tickPower s) := .setAlert (.other hs)

theorem Keeps.promoteNow {fenced reserve tk} (hs : Keeps s₀ s) : Keeps s₀ (Machine.promoteNow fenced reserve tk s) :=
  .ite (.refuse hs) (.ite (by
    split
    · exact .refuse hs
    · exact .reply (.promote hs)) (.ite (.reply (.promote hs)) (.refuse hs)))

theorem Keeps.takeChange {k} (hs : Keeps s₀ s) : Keeps s₀ (Machine.takeChange k s) := .other hs

theorem Answers.execSliceExpiry {parcel} (hs : Keeps s₀ s) : Answers s₀ (Machine.execSliceExpiry parcel s) :=
  .ite (.next (.modParcel hs)) (.next hs)

theorem Keeps.beginSwitch {p incoming} (hs : Keeps s₀ s) : Keeps s₀ (Machine.beginSwitch p incoming s) :=
  .cad (.clearParcel (.modParcel hs))

theorem Keeps.restoreTen {p t} (hs : Keeps s₀ s) : Keeps s₀ (Machine.restoreTen p t s) :=
  .cad (.tenCount (.startSlice (.modParcel hs)))

theorem Answers.execTenancyRestore {parcel} (hs : Keeps s₀ s) : Answers s₀ (Machine.execTenancyRestore parcel s) := by
  unfold Machine.execTenancyRestore
  dsimp only
  split
  · exact .ite (by
      split
      · exact .fin (.restoreTen hs)
      · exact .next hs) (.next hs)
  · exact .next hs

theorem Answers.execReservePromotion {core} (hs : Keeps s₀ s) : Answers s₀ (Machine.execReservePromotion core s) :=
  .ite (by
    split
    · exact .next (.setCmeta hs)
    · exact .fin (.promote hs)) (.next hs)

theorem Answers.execMaintDrainEffect (hs : Keeps s₀ s) : Answers s₀ (Machine.execMaintDrainEffect s) := by
  unfold Machine.execMaintDrainEffect
  dsimp only
  split
  · exact .next hs
  · split
    · exact .ite (.fin (.reply (.sendHold (.stateEvent (.other (.takeChange hs)))))) (.next hs)
    · exact .next hs

theorem Keeps.turnIn {kind u} (hs : Keeps s₀ s) (turn : turnIn s kind = some u) : Keeps s₀ u := by
  unfold Machine.turnIn at turn
  split at turn
  · obtain ⟨k, -, rfl⟩ := Option.map_eq_some_iff.1 turn
    exact .takeChange hs
  · split at turn
    · exact Option.some.inj turn ▸ hs
    · cases turn

theorem Keeps.reviveAt {k u x} (hs : Keeps s₀ s) (revived : reviveAt k u s = some x) : Keeps s₀ x := by
  unfold Machine.reviveAt at revived
  dsimp only at revived
  split at revived
  · obtain ⟨c, -, rfl⟩ := Option.map_eq_some_iff.1 revived
    exact .setCore hs
  · cases revived

theorem Keeps.reviveSlot {k x} (hs : Keeps s₀ s) (revived : reviveSlot k s = some x) : Keeps s₀ x := by
  unfold Machine.reviveSlot at revived
  split at revived
  · split at revived
    · exact .reviveAt hs revived
    · cases revived
  · cases revived

theorem Answers.lateOutcome {o} (hs : Keeps s₀ s) (row : Answers s₀ o) : Answers s₀ (Machine.lateOutcome s o) := by
  obtain ⟨t, rfl, ht⟩ := row
  exact .ite (.next hs) (.next ht)

theorem Answers.withLate {k u row} (hs : Keeps s₀ s) (rows : ∀ s, Keeps s₀ s → Answers s₀ (row s)) :
    Answers s₀ (Machine.withLate k u row s) := by
  unfold Machine.withLate
  split
  · next revived => exact .lateOutcome hs (rows _ (.reviveAt hs revived))
  · exact rows _ hs

theorem Keeps.addExcItem {p seq e} (hs : Keeps s₀ s) : Keeps s₀ (Machine.addExcItem p seq e s) := by
  unfold Machine.addExcItem
  dsimp only
  split
  · exact hs
  · exact .foldl (.modItem hs) fun _ _ hs => .satEvent hs

theorem Keeps.excOn {k e} (hs : Keeps s₀ s) : Keeps s₀ (Machine.excOn k e s) := by
  unfold Machine.excOn
  split
  · exact .addExcItem hs
  · exact hs

theorem Keeps.failOn {k status desc slot ev} (hs : Keeps s₀ s) :
    Keeps s₀ (Machine.failOn k status desc slot ev s) := by
  unfold Machine.failOn
  split
  · exact .failItem hs
  · exact hs

theorem Keeps.eventOn {k kind len body} (hs : Keeps s₀ s) : Keeps s₀ (Machine.eventOn k kind len body s).1 := by
  unfold Machine.eventOn
  dsimp only
  split
  · exact .mk1 (.recordP hs)
  · exact .mk1 hs

theorem Keeps.countSp {k n} (hs : Keeps s₀ s) : Keeps s₀ (Machine.countSp k n s) :=
  .when (.setCore hs) fun hs => .satShared hs

theorem Keeps.spCheck {k read} (hs : Keeps s₀ s) : Keeps s₀ (Machine.spCheck k read s).1 :=
  .mk1 (.whenNot hs fun hs => .countSp hs)

theorem Keeps.bankOff {k q slot} (hs : Keeps s₀ s) : Keeps s₀ (Machine.bankOff k q slot s) := .failOn (.eventOn hs)

theorem Keeps.latch {k slot d} (hs : Keeps s₀ s) : Keeps s₀ (Machine.latch k slot d s) := by
  unfold Machine.latch
  exact .modCore (.when hs fun hs => .foldl hs fun _ _ hs => .spUndef hs)

theorem Keeps.stashOverrun {k slot cur n pop} (hs : Keeps s₀ s) :
    Keeps s₀ (Machine.stashOverrun k slot cur n pop s) :=
  .failOn (.eventOn hs)

theorem Keeps.acceptStash {k slot d} (hs : Keeps s₀ s) : Keeps s₀ (Machine.acceptStash k slot d s) := by
  unfold Machine.acceptStash
  split
  · exact .ite (.ite (.stashOverrun hs) (.latch (.modParcel hs))) (.ite (.stashOverrun hs) (.latch (.modParcel hs)))
  · exact hs

theorem Keeps.noteStream {k d} (hs : Keeps s₀ s) : Keeps s₀ (Machine.noteStream k d s) := by
  unfold Machine.noteStream
  split
  · exact .when hs fun hs => .modItem hs
  · exact hs

theorem Keeps.grantCredit {k d} (hs : Keeps s₀ s) : Keeps s₀ (Machine.grantCredit k d s) := by
  unfold Machine.grantCredit
  dsimp only
  split
  · exact .when hs fun hs => .whenNot (.when (.modParcel hs) fun hs => .beginWait hs) fun hs => .sendChan hs
  · exact hs

theorem Keeps.unprotectedUse {k slot d u} (hs : Keeps s₀ s) (used : unprotectedUse k slot d s = some u) : Keeps s₀ u := by
  unfold Machine.unprotectedUse at used
  split at used
  · split at used
    · exact Option.some.inj used ▸ .failOn (.recordP hs)
    · cases used
  · cases used

theorem Keeps.acceptArm {k slot entry base kind u t} (hs : Keeps s₀ s) :
    Keeps s₀ (Machine.acceptArm k slot entry base kind u t s) := by
  unfold Machine.acceptArm
  dsimp only
  split
  · exact hs
  · refine .ite (.coreFault hs) ?_
    split
    · exact hs
    · refine .whenNot hs fun hs => .ite (.failOn (.eventOn hs)) ?_
      split
      · next used => exact .unprotectedUse hs used
      · refine .ite (.acceptStash hs) ?_
        split
        · exact .failOn (.peerLostEvent hs)
        · exact .grantCredit (.noteStream (.latch hs))

theorem Keeps.applyDue {k d} (hs : Keeps s₀ s) : Keeps s₀ (Machine.applyDue k d s) :=
  .whenNot hs fun hs => by
    split
    · exact .ite (.coreFault hs) (.excOn (.setCore hs))
    · exact .setCore hs
    · exact .setCore hs
    · exact .ite (.bankOff hs) (.setCore hs)
    · exact .setCore hs
    · exact .setCore hs
    · exact .setCore hs
    · exact .setCore hs
    · exact .acceptArm hs

theorem Keeps.finishTick {k qs} (hs : Keeps s₀ s) : Keeps s₀ (Machine.finishTick k qs s) :=
  .whenNot (.foldl (.setCore hs) fun _ _ hs => .applyDue hs) fun hs => .modCore hs

theorem Keeps.coreTick {k} (hs : Keeps s₀ s) : Keeps s₀ (Machine.coreTick k s) := by
  unfold Machine.coreTick
  dsimp only
  split
  · exact .bankOff (.setCore (.atCycle hs))
  · split
    · exact .coreFault (.modCore (.spCheck (.setCore (.atCycle hs))))
    · exact .coreFault (.spCheck (.setCore (.atCycle hs)))
    · exact .finishTick (.modCore (.spCheck (.setCore (.atCycle hs))))

theorem Keeps.checkDeadline {k} (hs : Keeps s₀ s) : Keeps s₀ (Machine.checkDeadline k s) := by
  unfold Machine.checkDeadline
  dsimp only
  split
  · exact hs
  · exact .setCore (.atCycle hs)

theorem Keeps.withWords {k ws f} (hs : Keeps s₀ s) : Keeps s₀ (Machine.withWords k ws f s) := by
  unfold Machine.withWords
  dsimp only
  split
  · exact .bankOff hs
  · split
    · exact .coreFault (.modCore (.spCheck hs))
    · exact .modCore (.spCheck hs)

theorem Keeps.ungateAll {k mask} (hs : Keeps s₀ s) : Keeps s₀ (Machine.ungateAll k mask s) :=
  .foldl hs fun _ _ hs => .modCore (.when hs fun hs => .spUndef hs)

theorem Keeps.performOp {k op} (hs : Keeps s₀ s) : Keeps s₀ (Machine.performOp k op s) := by
  unfold Machine.performOp
  dsimp only
  split
  · exact .modCore hs
  · exact .modCore hs
  · exact .modCore hs
  · exact .modCore hs
  · exact .modCore hs
  · exact .excOn (.setCore hs)
  · exact .modCore hs
  · exact .withWords hs
  · exact .modCore hs
  · exact .modCore hs
  · exact .withWords hs
  · exact .modCore hs
  · exact .modCore hs
  · exact .ungateAll hs

theorem Keeps.issueOp {k op} (hs : Keeps s₀ s) : Keeps s₀ (Machine.issueOp k op s) := by
  unfold Machine.issueOp
  split
  · exact .coreFault hs
  · exact .performOp hs

theorem Keeps.issueCtl {k ctl f} (hs : Keeps s₀ s) : Keeps s₀ (Machine.issueCtl k ctl f s) := by
  unfold Machine.issueCtl
  dsimp only
  split
  · exact .coreFault hs
  · exact .setCore hs

theorem Keeps.issueBundle {k b} (hs : Keeps s₀ s) : Keeps s₀ (Machine.issueBundle k b s) := by
  unfold Machine.issueBundle
  dsimp only
  split
  · exact .coreFault hs
  · exact .whenNot (.foldl hs fun _ _ hs => .whenNot hs fun hs => .issueOp hs) fun hs => .issueCtl hs

theorem Keeps.runTodo {n k} (hs : Keeps s₀ s) : Keeps s₀ (Machine.runTodo n k s) := by
  induction n generalizing s with
  | zero => exact hs
  | succ n ih =>
    unfold Machine.runTodo
    refine .whenNot hs fun hs => ?_
    split
    · exact hs
    · exact ih (.setCore hs)
    · exact .whenNot hs fun hs => .whenNot (.coreTick hs) fun hs => ih (.checkDeadline (.modCore hs))
    · exact ih (.issueBundle (.setCore hs))

theorem Keeps.runCore {k} (hs : Keeps s₀ s) : Keeps s₀ (Machine.runCore k s) := .runTodo hs

theorem Keeps.strikeCore {e} (hs : Keeps s₀ s) : Keeps s₀ (Machine.strikeCore e s) :=
  .whenNot hs fun hs => .modCore hs

theorem Answers.slotRow {e row} (hs : Keeps s₀ s) (rows : ∀ s, Keeps s₀ s → Answers s₀ (row s)) :
    Answers s₀ (Machine.slotRow e row s) := by
  unfold Machine.slotRow
  split
  · next revived => exact .lateOutcome (.strikeCore hs) (rows _ (.strikeCore (.reviveSlot hs revived)))
  · exact rows _ (.strikeCore hs)

theorem Answers.slotRun {e op} (hs : Keeps s₀ s) : Answers s₀ (Machine.slotRun e op s) := .ite (.next hs) (by
    split
    · exact .next (.coreFault (.atCycle hs))
    · exact .next (.atCycle hs)
    · exact .ite (.next (.atCycle hs)) (.next (.issueOp (.modCore (.atCycle hs)))))

theorem Answers.slotCmd {e op} (hs : Keeps s₀ s) : Answers s₀ (Machine.slotCmd e op s) :=
  .slotRow hs (fun _ hs => .slotRun hs)

theorem Answers.ctlRun {e ctl} (hs : Keeps s₀ s) : Answers s₀ (Machine.ctlRun e ctl s) := .ite (.next hs) (by
    split
    · exact .next (.coreFault (.atCycle hs))
    · exact .next (.runCore (.issueCtl (.atCycle hs))))

theorem Answers.ctlCmd {e ctl} (hs : Keeps s₀ s) : Answers s₀ (Machine.ctlCmd e ctl s) :=
  .slotRow hs (fun _ hs => .ctlRun hs)

end Sys2Proof.Machine
end

section
/-! SUPPORT. What keeps the queue of commands: descriptors, segments, power and samples. -/

namespace Sys2Proof.Machine

variable {s₀ s : State}

theorem Keeps.tryComplete {p seq} (hs : Keeps s₀ s) : Keeps s₀ (Machine.tryComplete p seq s) := by
  unfold Machine.tryComplete
  dsimp only
  split
  · exact hs
  · split
    · exact hs
    · exact .whenNot hs fun hs => .endItem (.foldl (.atCycle hs) fun _ _ hs => .modCore hs)

theorem Keeps.segmentEnd {p seq} (hs : Keeps s₀ s) : Keeps s₀ (Machine.segmentEnd p seq s) := by
  unfold Machine.segmentEnd
  dsimp only
  split
  · exact hs
  · exact .tryComplete (.modItem (.foldl (.foldl hs fun _ _ hs => .feedLate hs) fun _ _ hs => .modCore hs))

theorem Keeps.endCore {k} (hs : Keeps s₀ s) : Keeps s₀ (Machine.endCore k s) := by
  unfold Machine.endCore
  dsimp only
  split
  · exact hs
  · exact .when (.modCore hs) fun hs => .segmentEnd hs

theorem Answers.endRun {e} (hs : Keeps s₀ s) : Answers s₀ (Machine.endRun e s) := .ite (.next hs) (by
    split
    · exact .next (.coreFault (.atCycle hs))
    · exact .next (.endCore (.coreTick (.atCycle hs))))

theorem Answers.execGateGrant {core quarter} (hs : Keeps s₀ s) : Answers s₀ (Machine.execGateGrant core quarter s) :=
  .ite (.next hs) (.ite (.next (.setCore hs)) (.next (.setCore hs)))

theorem Keeps.hbmGet {p ten seq d l bs} (hs : Keeps s₀ s) : Keeps s₀ (Machine.hbmGet p ten seq d l bs s).2.2 := by
  induction l generalizing s bs with
  | nil => exact hs
  | cons r l ih => exact .ite22 (ih (.pvRead hs)) (.pvRead hs)

theorem Keeps.hbmIn {p ten seq k d} (hs : Keeps s₀ s) : Keeps s₀ (Machine.hbmIn p ten seq k d s).2 :=
  .mk2 (.when (.hbmGet hs) fun hs => .modCore hs)

theorem Keeps.hbmOut {p ten seq k d l} (hs : Keeps s₀ s) : Keeps s₀ (Machine.hbmOut p ten seq k d l s).2 := by
  induction l generalizing s with
  | nil => exact hs
  | cons r l ih => exact .ite2 (ih (.pvWrite hs)) (.pvWrite hs)

theorem Keeps.dieOut {p k lc v d l} (hs : Keeps s₀ s) : Keeps s₀ (Machine.dieOut p k lc v d l s).2 := by
  induction l generalizing s with
  | nil => exact hs
  | cons r l ih =>
    unfold Machine.dieOut
    split
    · exact hs
    · exact .ite2 hs (ih (.dsWrite hs))

theorem Keeps.dieMove {p k lc v d} (hs : Keeps s₀ s) : Keeps s₀ (Machine.dieMove p k lc v d s).2 :=
  .ite2 (.mk2 (.when hs fun hs => .modCore hs)) (.dieOut hs)

theorem Keeps.pairMove {p k lc slot d} (hs : Keeps s₀ s) : Keeps s₀ (Machine.pairMove p k lc slot d s).2 := by
  unfold Machine.pairMove
  refine .ite2 hs ?_
  split
  · generalize (if d.inbound = true then _ else _ : Nat × Desc) = src
    generalize (if d.inbound = true then _ else _ : Nat × Nat × Desc) = dst
    dsimp only
    split
    · exact hs
    · split
      · exact .spCheck hs
      · exact .modCore (.modCore (.spCheck hs))
  · exact hs

theorem Keeps.flushTx {p ch tag n} (hs : Keeps s₀ s) : Keeps s₀ (Machine.flushTx p ch tag n s) := by
  induction n generalizing s with
  | zero => exact hs
  | succ n ih =>
    unfold Machine.flushTx
    dsimp only
    split
    · exact hs
    · exact .ite (.beginWait hs) (ih (.sendChan (.endWait (.modParcel hs))))

theorem Keeps.linkMove {p k d} (hs : Keeps s₀ s) : Keeps s₀ (Machine.linkMove p k d s).2 := by
  unfold Machine.linkMove
  refine .ite2 (.ite2 hs ?_) ?_
  · exact .other (.modCore hs)
  · exact .flushTx (.modParcel hs)

theorem Keeps.moveDesc {p k lc slot i v d} (hs : Keeps s₀ s) : Keeps s₀ (Machine.moveDesc p k lc slot i v d s).2 := by
  unfold Machine.moveDesc
  refine .ite2 (.pairMove hs) ?_
  split
  · exact hs
  · extract_lets r
    have hr : Keeps s₀ r.1 := .ite1 hs (.spCheck hs)
    clear_value r
    split
    · exact hr
    · exact .ite2 (.ite2 (.hbmIn hr) (.hbmOut hr)) (.ite2 (.linkMove hr) (.dieMove hr))

theorem Keeps.markLanded {k slot completeAt landedAt} (hs : Keeps s₀ s) :
    Keeps s₀ (Machine.markLanded k slot completeAt landedAt s) := by
  unfold Machine.markLanded
  dsimp only
  split
  · exact .tryComplete (.modCore hs)
  · exact .modCore hs

theorem Answers.landRow {core slot completeAt landedAt} (hs : Keeps s₀ s) :
    Answers s₀ (Machine.landRow core slot completeAt landedAt s) := by
  unfold Machine.landRow
  dsimp only
  split
  · exact .ite (.next hs) (by
      split
      · exact .fin (.markLanded (.moveDesc (.atCycle hs)))
      · exact .next (.atCycle hs)
      · exact .fin (.bankOff (.moveDesc (.atCycle hs)))
      · exact .fin (.coreFault (.modCore (.moveDesc (.atCycle hs))))
      · exact .fin (.failItem (.moveDesc (.atCycle hs))))
  · exact .next hs

theorem Answers.deadlockRow {core at_} (hs : Keeps s₀ s) : Answers s₀ (Machine.deadlockRow core at_ s) := by
  unfold Machine.deadlockRow
  dsimp only
  split
  · split
    · exact .next hs
    · exact .ite (.ite (.fin (.failOn (.atCycle hs))) (.fin (.failOn (.recordP (.atCycle hs))))) (.next (.atCycle hs))
  · exact .next hs

theorem Keeps.thermNote {p v} (hs : Keeps s₀ s) : Keeps s₀ (Machine.thermNote p v s) := by
  unfold Machine.thermNote
  exact .modParcel hs

theorem Keeps.batchStart {p i} (hs : Keeps s₀ s) : Keeps s₀ (Machine.batchStart p i s).2.2 := by
  unfold Machine.batchStart
  dsimp only
  split
  · split
    · exact .mk22 hs
    · exact .mk22 (.modParcel (.pvWrite hs))
  · exact .mk22 hs

theorem Keeps.enterSegment {k g} (hs : Keeps s₀ s) : Keeps s₀ (Machine.enterSegment k g s) :=
  .ite (.setCore hs) (.setCore hs)

theorem Answers.execSegmentStart {parcel seq start} (hs : Keeps s₀ s) :
    Answers s₀ (Machine.execSegmentStart parcel seq start s) := by
  unfold Machine.execSegmentStart
  dsimp only
  split
  · exact .next hs
  · split
    · exact .next hs
    · exact .ite (.next hs) (by
        split
        · exact .fin (.failItem (.atCycle hs))
        · exact .ite (.fin (.failItem (.modItem (.ite22 (.mk22 (.atCycle hs)) (.batchStart (.atCycle hs))))))
            (.fin (.thermNote
            (.foldl (.foldl (.modItem (.ite22 (.mk22 (.atCycle hs)) (.batchStart (.atCycle hs)))) fun _ _ hs =>
            .modCore hs) fun _ _ hs => .enterSegment hs))))

theorem Keeps.readSegment {p i v lc seg} (hs : Keeps s₀ s) : Keeps s₀ (Machine.readSegment p i v lc seg s).2.2.2 := by
  rw [Machine.readSegment.eq_1]
  generalize first : Machine.pvRead _ _ _ 160 _ _ s = d
  dsimp only
  have hd : Keeps s₀ d.2.2.2 := first ▸ .pvRead hs
  clear first
  refine .ite222 (.mk222 hd) ?_
  generalize second : Machine.pvRead _ _ _ _ _ _ d.2.2.2 = b
  have hb : Keeps s₀ b.2.2.2 := second ▸ .pvRead hd
  clear second
  refine .ite222 (.mk222 hb) ?_
  generalize third : Machine.pvRead _ _ _ _ _ _ b.2.2.2 = t
  have ht : Keeps s₀ t.2.2.2 := third ▸ .pvRead hb
  exact .ite222 (.mk222 ht) (.mk222 ht)

/-- As for `Keeps.amendRing`: the kernel would search the parcels' cores one by one. -/
theorem Answers.execSequencerFillStart {core} (hs : Keeps s₀ s) :
    Answers s₀ (Machine.execSequencerFillStart core s) := by
  obtain ⟨row, rule⟩ : ∃ row, row = @Machine.execSequencerFillStart := ⟨_, rfl⟩
  rw [← rule]
  delta Machine.execSequencerFillStart at rule
  subst rule
  beta_reduce
  split
  · exact .next hs
  · dsimp only
    refine .ite (.next hs) ?_
    split
    · exact .next hs
    · split
      · exact .next hs
      · generalize read : Machine.readSegment _ _ _ _ _ _ = r
        have hr : Keeps s₀ r.2.2.2 := read ▸ .readSegment hs
        exact .ite (.next (.modCore hr)) (.fin (.failItem hr))

theorem Answers.execSequencerFillComplete {core at_} (hs : Keeps s₀ s) :
    Answers s₀ (Machine.execSequencerFillComplete core at_ s) :=
  .next (.modCore (.atCycle hs))

theorem Keeps.overrun {k since h} (hs : Keeps s₀ s) : Keeps s₀ (Machine.overrun k since h s) := .failOn (.atCycle hs)

theorem Answers.execHoldResume {core at_} (hs : Keeps s₀ s) : Answers s₀ (Machine.execHoldResume core at_ s) := by
  unfold Machine.execHoldResume
  dsimp only
  split
  · exact .ite (.next hs) (.ite (.fin (.overrun hs)) (.fin (.runCore (.checkDeadline (.setCore (.atCycle hs))))))
  · exact .next hs

theorem Answers.boundRow {core at_} (hs : Keeps s₀ s) : Answers s₀ (Machine.boundRow core at_ s) := by
  unfold Machine.boundRow
  dsimp only
  split
  · exact .ite (.fin (.failOn (.atCycle hs))) (.next hs)
  · exact .next hs

theorem Keeps.writeAdmitted {n k seq} (hs : Keeps s₀ s) : Keeps s₀ (Machine.writeAdmitted n k seq s) := by
  unfold Machine.writeAdmitted
  dsimp only
  split
  · next write => exact .hostWrite hs write
  · exact .ringFail hs

theorem Answers.execItemAdmit {block} (hs : Keeps s₀ s) : Answers s₀ (Machine.execItemAdmit block s) := by
  unfold Machine.execItemAdmit
  dsimp only
  split
  · exact .next hs
  · exact .ite (.next hs) (by
      split
      · exact .fin (.ringFail (.setBlock hs))
      · exact .fin (.admitItem (.writeAdmitted (.setBlock (.takeSeq hs)))))

theorem Answers.execItemReissue {parcel} (hs : Keeps s₀ s) : Answers s₀ (Machine.execItemReissue parcel s) := by
  unfold Machine.execItemReissue
  dsimp only
  split
  · exact .ite (.next (.modParcel hs)) (.next hs)
  · exact .next hs

theorem Keeps.raiseStage {before now} (hs : Keeps s₀ s) : Keeps s₀ (Machine.raiseStage before now s) :=
  .when hs fun hs => .other hs

theorem Keeps.raiseRails (hs : Keeps s₀ s) : Keeps s₀ (Machine.raiseRails s) := .foldl hs fun _ _ hs => .raiseStage hs

theorem Keeps.dropRails (hs : Keeps s₀ s) : Keeps s₀ (Machine.dropRails s) := .other hs

theorem Keeps.bootStep {n} (hs : Keeps s₀ s) : Keeps s₀ (Machine.bootStep n s) := .other hs

theorem Keeps.powerOff {latch} (hs : Keeps s₀ s) : Keeps s₀ (Machine.powerOff latch s) := .other hs

theorem Keeps.powerUp (hs : Keeps s₀ s) : Keeps s₀ (Machine.powerUp s) := .bootStep (.other (.raiseRails hs))

theorem Keeps.setMv {mv} (hs : Keeps s₀ s) : Keeps s₀ (Machine.setMv mv s) := .other hs

theorem Answers.execPowerOn {millivolts} (hs : Keeps s₀ s) : Answers s₀ (Machine.execPowerOn millivolts s) :=
  .ite (.next (.setMv hs)) (.next (.powerUp (.setMv hs)))

theorem Answers.execUndervoltage {millivolts microseconds} (hs : Keeps s₀ s) :
    Answers s₀ (Machine.execUndervoltage millivolts microseconds s) :=
  .ite (.next (.setMv hs)) (.next (.other (.when (.setMv hs) fun hs => .powerOff hs)))

theorem Answers.execOvervoltage {millivolts microseconds} (hs : Keeps s₀ s) :
    Answers s₀ (Machine.execOvervoltage millivolts microseconds s) :=
  .ite (.next (.powerOff (.setMv hs))) (.next (.setMv hs))

theorem Answers.execPowerOverdraw {watts} (hs : Keeps s₀ s) : Answers s₀ (Machine.execPowerOverdraw watts s) :=
  .ite (.next (.powerOff hs)) (.next hs)

theorem Answers.execModResetL (hs : Keeps s₀ s) : Answers s₀ (Machine.execModResetL s) :=
  .next (.other (.powerOff hs))

theorem Answers.execModResetLDeassert (hs : Keeps s₀ s) : Answers s₀ (Machine.execModResetLDeassert s) :=
  .ite (.next (.powerUp (.other hs))) (.next (.other hs))

theorem Answers.execRefclkLoss (hs : Keeps s₀ s) : Answers s₀ (Machine.execRefclkLoss s) :=
  .ite (.fin (.internalEvent (.other hs))) (.next (.other hs))

theorem Answers.execRefclkReturn (hs : Keeps s₀ s) : Answers s₀ (Machine.execRefclkReturn s) := .next (.other hs)

theorem Keeps.callHold {cause} (hs : Keeps s₀ s) : Keeps s₀ (Machine.callHold cause s) :=
  .whenNot hs fun hs => .other hs

theorem Keeps.averaged {sensor t} (hs : Keeps s₀ s) : Keeps s₀ (Machine.averaged sensor t s) := .other hs

theorem Keeps.bandEvent {sensor old new value} (hs : Keeps s₀ s) :
    Keeps s₀ (Machine.bandEvent sensor old new value s) :=
  .whenNot hs fun hs => .other hs

theorem Keeps.stackSample {k t} (hs : Keeps s₀ s) : Keeps s₀ (Machine.stackSample k t s) :=
  .whenNot hs fun hs => .whenNot (.averaged (.bandEvent (.setStack hs))) fun hs => .refreshEvent hs

theorem Keeps.dieSample {d t} (hs : Keeps s₀ s) : Keeps s₀ (Machine.dieSample d t s) :=
  .whenNot hs fun hs => .averaged (.bandEvent (.setDie hs))

theorem Keeps.thermNotes (hs : Keeps s₀ s) : Keeps s₀ (Machine.thermNotes s) :=
  .foldl hs fun _ _ hs => .foldl hs fun _ _ hs => by
    split
    · exact .thermNote hs
    · exact hs

theorem Answers.execTempSample {t} (hs : Keeps s₀ s) : Answers s₀ (Machine.execTempSample t s) :=
  .ite (.next hs) (.ite
    (.next (.powerOff (.foldl (.foldl (.other (.averaged (.bandEvent hs))) fun _ _ hs => .stackSample hs)
    fun _ _ hs => .dieSample hs)))
    (.fin (.setAlert (.thermNotes
    (.when (.other (.foldl (.foldl (.other (.averaged (.bandEvent hs))) fun _ _ hs => .stackSample hs) fun _ _ hs =>
    .dieSample hs)) fun hs => .callHold hs)))))

theorem Answers.execPowerSample {inputW dieW} (hs : Keeps s₀ s) :
    Answers s₀ (Machine.execPowerSample inputW dieW s) :=
  .ite (.next hs) (.next
    (.other (.when (.foldl (.averaged (.other hs)) fun _ _ hs => .setDie hs) fun hs => .callHold hs)))

end Sys2Proof.Machine
end

section
/-! SUPPORT. What keeps the queue of commands: the update engine and the collective engine. -/

namespace Sys2Proof.Machine

variable {s₀ s : State}

theorem Keeps.upRead {w a n} (hs : Keeps s₀ s) : Keeps s₀ (Machine.upRead w a n s).2.2.2 := .pvRead hs

theorem Keeps.upReadL {w l acc} (hs : Keeps s₀ s) : Keeps s₀ (Machine.upReadL w l acc s).2.2.2 := by
  induction l generalizing s acc with
  | nil => exact hs
  | cons x l ih =>
    rw [Machine.upReadL]
    exact .ite222 (ih (.upRead hs)) (.mk222 (.upRead hs))

theorem Keeps.upReadLL {w l} (hs : Keeps s₀ s) : Keeps s₀ (Machine.upReadLL w l s).2.2.2 := by
  induction l generalizing s with
  | nil => exact hs
  | cons x l ih =>
    rw [Machine.upReadLL]
    exact .ite222 (.mk222 (ih (.upReadL hs))) (.mk222 (.upReadL hs))

theorem Keeps.upWriteL {w n l} (hs : Keeps s₀ s) : Keeps s₀ (Machine.upWriteL w n l s).2.2 := by
  induction l generalizing s n with
  | nil => cases n <;> exact hs
  | cons x l ih =>
    cases n with
    | zero => exact hs
    | succ n =>
      rw [Machine.upWriteL]
      exact .ite22 (ih (.pvWrite hs)) (.mk22 (.pvWrite hs))

theorem Keeps.touched {w g} (hs : Keeps s₀ s) : Keeps s₀ (Machine.touched w g s).2.2.2 :=
  .ite222 (.mk222 hs) (.mk222 (.upReadLL hs))

theorem Keeps.upLoad {w g es} (hs : Keeps s₀ s) : Keeps s₀ (Machine.upLoad w g es s).2.2.2 := .mk222 (.upReadLL hs)

theorem Keeps.pass1 {w g} (hs : Keeps s₀ s) : Keeps s₀ (Machine.pass1 w g s).2.2.2 :=
  .ite222 (.mk222 (.touched hs))
    (.ite222 (.mk222 (.upLoad (.touched hs)))
    (.ite222 (.mk222 (.ite222 (.upRead (.upLoad (.touched hs))) (.mk222 (.upLoad (.touched hs)))))
    (.ite222 (.mk222 (.ite222 (.upRead (.upLoad (.touched hs))) (.mk222 (.upLoad (.touched hs)))))
    (.mk222 (.ite222 (.upRead (.upLoad (.touched hs))) (.mk222 (.upLoad (.touched hs))))))))

theorem Keeps.runChunk {w v k lim} (hs : Keeps s₀ s) : Keeps s₀ (Machine.runChunk w v k lim s).2.2.2 :=
  .ite222 (.mk222 (.upLoad hs)) (.mk222 (.upWriteL (.upLoad hs)))

theorem Keeps.runChunks {w v n k acc} (hs : Keeps s₀ s) : Keeps s₀ (Machine.runChunks w v n k acc s).2.2.2 := by
  induction n generalizing s k acc with
  | zero => exact hs
  | succ n ih =>
    rw [Machine.runChunks]
    exact .ite222 (ih (.runChunk hs)) (.mk222 (.runChunk hs))

theorem Keeps.pass2Env {w r} (hs : Keeps s₀ s) : Keeps s₀ (Machine.pass2Env w r s).2.2.2.2 :=
  .ite2222 (.mk2222 (.touched hs)) (.ite2222 (.mk2222 (.upRead (.touched hs))) (.mk2222 (.touched hs)))

theorem Keeps.pass2 {w r} (hs : Keeps s₀ s) : Keeps s₀ (Machine.pass2 w r s).2.2.2 :=
  .ite222 (.mk222 (.pass2Env hs)) (.runChunks (.pass2Env hs))

theorem Keeps.keepPass {w r q} (hs : Keeps s₀ s) : Keeps s₀ (Machine.keepPass w r q s) := .addExcItem (.modItem hs)

theorem Keeps.pass2Torn {w r k} (hs : Keeps s₀ s) : Keeps s₀ (Machine.pass2Torn w r k s) :=
  .ite (.keepPass (.pass2Env hs)) (.branch (fun hs => .keepPass hs) (fun hs => .keepPass (.runChunk (.draw hs)))
    (.runChunks (.pass2Env hs)))

theorem Keeps.modGroup {p g f} (hs : Keeps s₀ s) : Keeps s₀ (Machine.modGroup p g f s) := .modParcel hs

theorem Keeps.modRun {p seq g f} (hs : Keeps s₀ s) : Keeps s₀ (Machine.modRun p seq g f s) := .modItem hs

theorem Keeps.sendMsg {p ch type n m24 bs} (hs : Keeps s₀ s) : Keeps s₀ (Machine.sendMsg p ch type n m24 bs s) :=
  .whenNot hs fun hs => .foldl hs fun _ _ hs => .sendChan hs

theorem Keeps.sendAll {p ch type n bs} (hs : Keeps s₀ s) : Keeps s₀ (Machine.sendAll p ch type n bs s) :=
  .foldl hs fun _ _ hs => .sendMsg hs

theorem Keeps.sendShard {p g k type v t} (hs : Keeps s₀ s) : Keeps s₀ (Machine.sendShard p g k type v t s) :=
  .sendMsg hs

theorem Keeps.sendShards {p g type v t} (hs : Keeps s₀ s) : Keeps s₀ (Machine.sendShards p g type v t s) :=
  .foldl hs fun _ _ hs => .sendShard hs

theorem Keeps.putJournal {p j} (hs : Keeps s₀ s) : Keeps s₀ (Machine.putJournal p j s) := .modParcel hs

theorem Keeps.surveyPush {p rec_} (hs : Keeps s₀ s) : Keeps s₀ (Machine.surveyPush p rec_ s) :=
  .ite (.setParcel hs) (.when (.setParcel hs) fun hs => .satEvent hs)

theorem Keeps.sealAbort {p ten seq g t reason} (hs : Keeps s₀ s) :
    Keeps s₀ (Machine.sealAbort p ten seq g t reason s) :=
  .recordP hs

theorem Keeps.endUpdate {p i} (hs : Keeps s₀ s) : Keeps s₀ (Machine.endUpdate p i s) := by
  unfold Machine.endUpdate
  dsimp only
  split <;> exact .endItem (.foldl hs fun _ _ hs => .modGroup hs)

theorem Keeps.tallyEnd {p i} (hs : Keeps s₀ s) : Keeps s₀ (Machine.tallyEnd p i s) := by
  unfold Machine.tallyEnd
  dsimp only
  split
  · exact .endUpdate (.modTen (.recordP (.endWaits hs)))
  · exact .endUpdate (.endWaits hs)

theorem Keeps.updateEnds {p i st ev} (hs : Keeps s₀ s) : Keeps s₀ (Machine.updateEnds p i st ev s) :=
  .endItem (.foldl (.endWaits hs) fun _ _ hs => .modGroup hs)

theorem Keeps.updateSecurity {p i ev} (hs : Keeps s₀ s) : Keeps s₀ (Machine.updateSecurity p i ev s) := .updateEnds hs

theorem Keeps.takeTallies {p seq} (hs : Keeps s₀ s) : Keeps s₀ (Machine.takeTallies p seq s) :=
  .foldl hs fun _ _ hs => by
    split
    · exact hs
    · exact .whenNot hs fun hs => .modParcel (.modItem hs)

theorem Keeps.tryEndUpdate {p seq} (hs : Keeps s₀ s) : Keeps s₀ (Machine.tryEndUpdate p seq s) := by
  unfold Machine.tryEndUpdate
  dsimp only
  split
  · exact .when hs fun hs => .takeTallies hs
  · exact .whenNot (.when hs fun hs => .takeTallies hs) fun hs => .branch (fun hs => .tallyEnd hs)
      (fun hs => .branch (fun hs => .updateSecurity (.recordP hs))
      (fun hs => .branch (fun hs => .tallyEnd hs) (fun hs => .foldl hs fun _ _ hs => .beginWait hs)
      (.whenNot hs fun hs => .sendAll (.modItem hs))) hs) hs

theorem Keeps.sealRefuse {p g t r quiet} (hs : Keeps s₀ s) : Keeps s₀ (Machine.sealRefuse p g t r quiet s) :=
  .whenNot hs fun hs => .ite (.sendShards (.putJournal hs)) (.whenNot hs fun hs => .sendShard hs)

theorem Keeps.noteAbort {p ten seq g t reason} (hs : Keeps s₀ s) :
    Keeps s₀ (Machine.noteAbort p ten seq g t reason s) :=
  .sealAbort (.modParcel hs)

theorem Keeps.finishOne {p seq g st reason quiet} (hs : Keeps s₀ s) :
    Keeps s₀ (Machine.finishOne p seq g st reason quiet s) := by
  unfold Machine.finishOne
  dsimp only
  split
  · exact hs
  · exact .whenNot hs fun hs => .whenNot
      (.modRun (.endWaits
      (.endWaits (.when (.when (.when hs fun hs => .sealRefuse hs) fun hs => .putJournal hs) fun hs =>
      .noteAbort hs)))) fun hs => .surveyPush hs

theorem Keeps.skipCheck {p seq} (hs : Keeps s₀ s) : Keeps s₀ (Machine.skipCheck p seq s) := by
  unfold Machine.skipCheck
  dsimp only
  split
  · exact hs
  · exact .foldl hs fun _ _ hs => .finishOne (.modRun hs)

theorem Keeps.finishGroup {p seq g st reason quiet} (hs : Keeps s₀ s) :
    Keeps s₀ (Machine.finishGroup p seq g st reason quiet s) := by
  unfold Machine.finishGroup
  split
  · exact hs
  · exact .whenNot hs fun hs => .tryEndUpdate (.skipCheck (.finishOne hs))

theorem Keeps.finishMem {p i g m a tail torn} (hs : Keeps s₀ s) :
    Keeps s₀ (Machine.finishMem p i g m a tail torn s) :=
  .finishGroup (.modRun hs)

theorem Keeps.tryNorm {p seq g} (hs : Keeps s₀ s) : Keeps s₀ (Machine.tryNorm p seq g s) := by
  unfold Machine.tryNorm
  dsimp only
  split
  · exact hs
  · exact .whenNot hs fun hs => .whenNot hs fun hs => .tryEndUpdate (.skipCheck (.addExcItem (.modRun hs)))

theorem Keeps.groupBarred {p i g} (hs : Keeps s₀ s) : Keeps s₀ (Machine.groupBarred p i g s) :=
  .finishGroup (.modRun (.recordP hs))

theorem Keeps.enterNorm {p i g} (hs : Keeps s₀ s) : Keeps s₀ (Machine.enterNorm p i g s) := by
  unfold Machine.enterNorm
  dsimp only
  split
  · exact hs
  · exact .ite (.ite (.finishGroup (.modRun hs))
      (.ite (.groupBarred (.modRun hs))
      (.tryNorm (.foldl (.foldl (.modRun hs) fun _ _ hs => .sendMsg hs) fun _ _ hs => .beginWait hs))))
      (.tryNorm (.modRun hs))

theorem Keeps.onNorm {p g shard t sw sg sums} (hs : Keeps s₀ s) :
    Keeps s₀ (Machine.onNorm p g shard t sw sg sums s) := by
  unfold Machine.onNorm
  dsimp only
  split
  · exact hs
  · exact .whenNot hs fun hs => .tryNorm (.endWait (.modRun hs))

theorem Keeps.commitGroup {p i g t} (hs : Keeps s₀ s) : Keeps s₀ (Machine.commitGroup p i g t s) :=
  .modRun (.putJournal (.endWaits hs))

theorem Keeps.tryDecide {p g} (hs : Keeps s₀ s) : Keeps s₀ (Machine.tryDecide p g s) := by
  unfold Machine.tryDecide
  dsimp only
  split
  · exact hs
  · exact .whenNot hs fun hs => .ite (.finishGroup hs)
      (.whenNot hs fun hs => .ite (.finishGroup hs) (.when hs fun hs => .sendShards (.commitGroup hs)))

theorem Keeps.onVote {p g shard t ready} (hs : Keeps s₀ s) : Keeps s₀ (Machine.onVote p g shard t ready s) := by
  unfold Machine.onVote
  dsimp only
  split
  · exact hs
  · exact .whenNot hs fun hs => .tryDecide (.endWait (.modRun hs))

theorem Keeps.voteReady {p i g} (hs : Keeps s₀ s) : Keeps s₀ (Machine.voteReady p i g s) :=
  .ite (.groupBarred hs)
    (.ite (.branch (fun hs => .finishGroup hs) (fun hs => .onVote hs)
    (.foldl (.modRun (.putJournal hs)) fun _ _ hs => .beginWait hs))
    (.branch (fun hs => .modRun hs) (fun hs => .beginWait hs) (.sendShard (.modRun (.putJournal hs)))))

theorem Keeps.resolveDoubt {p g t commit reason} (hs : Keeps s₀ s) :
    Keeps s₀ (Machine.resolveDoubt p g t commit reason s) := by
  unfold Machine.resolveDoubt
  dsimp only
  split
  · exact .whenNot hs fun hs => .ite (.putJournal hs) (.noteAbort (.modGroup (.putJournal hs)))
  · exact hs

theorem Keeps.abortAll {p g t reason} (hs : Keeps s₀ s) : Keeps s₀ (Machine.abortAll p g t reason s) :=
  .noteAbort (.sendShards (.putJournal hs))

theorem Keeps.closedAbort {p g t reason} (hs : Keeps s₀ s) : Keeps s₀ (Machine.closedAbort p g t reason s) :=
  .whenNot hs fun hs => .noteAbort hs

theorem Keeps.onDecision {p g t commit} (hs : Keeps s₀ s) : Keeps s₀ (Machine.onDecision p g t commit s) := by
  unfold Machine.onDecision
  dsimp only
  split
  · exact .ite (.resolveDoubt (.draw hs)) (.whenNot hs fun hs => .closedAbort (.draw hs))
  · split
    · exact .ite (.commitGroup hs) (.ite (.finishGroup hs) (.finishGroup (.draw hs)))
    · exact .ite (.commitGroup hs) (.finishGroup (.draw hs))
    · exact .whenNot hs fun hs => .finishGroup (.draw hs)
    · exact .whenNot hs fun hs => .finishGroup (.draw hs)
    · exact .whenNot hs fun hs => .finishGroup (.draw hs)
    · exact .whenNot hs fun hs => .finishGroup (.draw hs)
    · exact .whenNot hs fun hs => .closedAbort (.draw hs)
    · exact hs

theorem Keeps.onQuery {p g shard t} (hs : Keeps s₀ s) : Keeps s₀ (Machine.onQuery p g shard t s) := by
  unfold Machine.onQuery
  dsimp only
  split
  · exact .sendShard hs
  · exact .whenNot hs fun hs => .ite (.sendShard hs) (.finishGroup (.sendShard hs))
  · exact hs
  · exact .whenNot (.sendShard hs) fun hs => .branch (fun hs => .abortAll hs) (fun hs => .noteAbort (.sendShard hs))
      (.modParcel hs)

theorem Keeps.frozenVote {p g type shard t} (hs : Keeps s₀ s) : Keeps s₀ (Machine.frozenVote p g type shard t s) :=
  .whenNot (.modParcel hs) fun hs => .ite (.abortAll hs) (.sendShard (.modParcel hs))

theorem Keeps.onGroupMsg {p ch type rank b} (hs : Keeps s₀ s) : Keeps s₀ (Machine.onGroupMsg p ch type rank b s) :=
  .ite (.onQuery hs) (.ite (.ite (.frozenVote hs) (.when hs fun hs => .onDecision hs))
    (.ite (.onDecision hs) (.ite (.modParcel hs) (.ite (.onNorm hs) (.ite (.onVote hs) (.onDecision hs))))))

theorem Keeps.absorb {p g} (hs : Keeps s₀ s) : Keeps s₀ (Machine.absorb p g s) :=
  .foldl (.setParcel hs) fun _ _ hs => .whenNot hs fun hs => .onGroupMsg hs

theorem Answers.execUpdateGroupTakeUp {parcel group} (hs : Keeps s₀ s) :
    Answers s₀ (Machine.execUpdateGroupTakeUp parcel group s) := by
  unfold Machine.execUpdateGroupTakeUp
  dsimp only
  split
  · exact .next hs
  · exact .ite (.next hs)
      (.ite (.fin (.tryEndUpdate (.skipCheck (.modRun (.when (.modGroup hs) fun hs => .satEvent hs)))))
      (.ite (.fin (.modParcel (.finishGroup hs))) (by
      split
      · exact .next hs
      · exact .fin (.finishGroup hs)
      · exact .ite (.next hs)
          (.ite (.fin (.finishGroup (.modGroup hs)))
          (.ite (.fin (.finishGroup (.modRun (.satEvent hs)))) (.fin (.absorb (.modRun hs))))))))

theorem Answers.execUpdatePass1Complete {parcel group} (hs : Keeps s₀ s) :
    Answers s₀ (Machine.execUpdatePass1Complete parcel group s) := by
  unfold Machine.execUpdatePass1Complete
  dsimp only
  split
  · exact .next hs
  · exact .ite (.next hs)
      (.ite (.fin (.finishGroup (.modGroup hs)))
      (.ite (.fin (.finishMem (.pass1 hs))) (.fin (.enterNorm (.modRun (.addExcItem (.pass1 hs)))))))

theorem Answers.execUpdatePass2Start {parcel group} (hs : Keeps s₀ s) :
    Answers s₀ (Machine.execUpdatePass2Start parcel group s) := by
  unfold Machine.execUpdatePass2Start
  dsimp only
  split
  · exact .next hs
  · split
    · exact .next hs
    · exact .ite (.next hs) (.fin (.addExcItem (.modRun hs)))

theorem Answers.execUpdatePass2Complete {parcel group} (hs : Keeps s₀ s) :
    Answers s₀ (Machine.execUpdatePass2Complete parcel group s) := by
  unfold Machine.execUpdatePass2Complete
  dsimp only
  split
  · exact .next hs
  · exact .ite (.next hs)
      (.ite (.fin (.finishMem (.modRun (.addExcItem (.pass2 hs)))))
      (.ite (.ite (.fin (.finishGroup (.modGroup (.modRun (.flushItem (.addExcItem (.pass2 hs)))))))
      (.fin (.voteReady (.modRun (.flushItem (.addExcItem (.pass2 hs)))))))
      (.fin (.finishGroup (.modGroup (.modRun (.flushItem (.addExcItem (.pass2 hs)))))))))

theorem Answers.execSealWaitExpiry {parcel group} (hs : Keeps s₀ s) :
    Answers s₀ (Machine.execSealWaitExpiry parcel group s) := by
  unfold Machine.execSealWaitExpiry
  dsimp only
  split
  · exact .next hs
  · exact .ite (.next hs)
      (.ite (.ite (.fin (.finishGroup hs)) (.next hs)) (.ite (.ite (.fin (.finishGroup hs)) (.next hs)) (.next hs)))

theorem Keeps.swapStaging {p g} (hs : Keeps s₀ s) : Keeps s₀ (Machine.swapStaging p g s) :=
  .foldl (.modParcel hs) fun _ _ hs => by
    split
    · split
      · exact .other (.draw hs)
      · exact hs
    · exact hs

theorem Keeps.applyCommit {p g j} (hs : Keeps s₀ s) : Keeps s₀ (Machine.applyCommit p g j s) := by
  unfold Machine.applyCommit
  dsimp only
  split
  · exact .finishGroup (.cad (.putJournal (.modGroup (.swapStaging hs))))
  · exact .modGroup (.cad (.putJournal (.modGroup (.swapStaging hs))))

theorem Answers.execSealCommitApply {parcel group} (hs : Keeps s₀ s) :
    Answers s₀ (Machine.execSealCommitApply parcel group s) := by
  unfold Machine.execSealCommitApply
  dsimp only
  split
  · exact .next hs
  · exact .ite (.next hs) (.fin (.applyCommit hs))

theorem Answers.execInDoubtQuery {parcel group} (hs : Keeps s₀ s) :
    Answers s₀ (Machine.execInDoubtQuery parcel group s) := by
  unfold Machine.execInDoubtQuery
  dsimp only
  split
  · split
    · exact .next hs
    · exact .ite (.next hs) (.next (.modParcel (.foldl hs fun _ _ hs => .sendShard hs)))
  · exact .ite (.next hs) (.next (.modRun (.foldl hs fun _ _ hs => .sendShard hs)))

theorem Keeps.updPeerLost {p m} (hs : Keeps s₀ s) : Keeps s₀ (Machine.updPeerLost p m s) :=
  .foldl hs fun _ _ hs => .when (.foldl hs fun _ _ hs => by
    split
    · exact hs
    · exact .whenNot hs fun hs => by
        split
        · exact .finishGroup hs
        · exact .ite (.finishGroup hs) (.when hs fun hs => .endWaits (.modRun hs))
        · exact hs) fun hs => .tryEndUpdate (.modItem hs)

theorem Keeps.onTally {p ch rank b} (hs : Keeps s₀ s) : Keeps s₀ (Machine.onTally p ch rank b s) := by
  unfold Machine.onTally
  dsimp only
  split
  · exact .tryEndUpdate (.endWait (.modItem hs))
  · exact .modParcel hs

theorem Keeps.updReset {p i} (hs : Keeps s₀ s) : Keeps s₀ (Machine.updReset p i s) := by
  unfold Machine.updReset
  dsimp only
  split
  · exact .updateEnds (.foldl (.modItem hs) fun _ _ hs => by
      split
      · exact hs
      · exact .ite (.finishGroup (.modRun (.pass2Torn (.draw hs)))) (.finishGroup hs))
  · exact .foldl (.modItem hs) fun _ _ hs => by
      split
      · exact hs
      · exact .ite (.finishGroup (.modRun (.pass2Torn (.draw hs)))) (.finishGroup hs)

theorem Keeps.updHold {p} (hs : Keeps s₀ s) : Keeps s₀ (Machine.updHold p s) :=
  .foldl hs fun _ _ hs => .foldl hs fun _ _ hs => by
    split
    · exact hs
    · split
      · exact .finishGroup hs
      · exact .finishGroup hs
      · exact .finishGroup hs
      · exact hs

theorem Keeps.updFault {wr p slot a m} (hs : Keeps s₀ s) : Keeps s₀ (Machine.updFault wr p slot a m s) := by
  unfold Machine.updFault
  dsimp only
  split
  · exact hs
  · exact .finishMem (.when hs fun hs => .pass2Torn hs)

theorem Keeps.ringSend {p o t bs} (hs : Keeps s₀ s) : Keeps s₀ (Machine.ringSend p o t bs s) :=
  .whenNot hs fun hs => .foldl hs fun _ _ hs => .sendChan hs

theorem Keeps.collRead {p i a n} (hs : Keeps s₀ s) : Keeps s₀ (Machine.collRead p i a n s).2.2.2 := .pvRead hs

theorem Keeps.collWrite {p i a bs} (hs : Keeps s₀ s) : Keeps s₀ (Machine.collWrite p i a bs s).2.2 :=
  .mk22 (.pvWrite hs)

theorem Keeps.collUndef {p i o} (hs : Keeps s₀ s) : Keeps s₀ (Machine.collUndef p i o s) :=
  .foldl hs fun _ _ hs => .pvUndef hs

theorem Keeps.collFail {p seq st addr ev tell} (hs : Keeps s₀ s) :
    Keeps s₀ (Machine.collFail p seq st addr ev tell s) := by
  unfold Machine.collFail
  dsimp only
  split
  · exact hs
  · split
    · exact .endItem (.modParcel (.endWaits (.when (.when hs fun hs => .collUndef hs) fun hs => .sendAll hs)))
    · exact .endItem hs

theorem Keeps.ownElems {p i o t r} (hs : Keeps s₀ s) : Keeps s₀ (Machine.ownElems p i o t r s).2.2.2 :=
  .mk222 (.collRead hs)

theorem Keeps.storeElems {p i o t k es} (hs : Keeps s₀ s) : Keeps s₀ (Machine.storeElems p i o t k es s).2.2 :=
  .collWrite hs

theorem Keeps.tensorStart {p i o t} (hs : Keeps s₀ s) : Keeps s₀ (Machine.tensorStart p i o t s).2.2 :=
  .ite22 (.ite22 (.ite22 (.mk22 (.ownElems hs)) (.storeElems (.ringSend (.ownElems hs)))) (.mk22 hs))
    (.ite22 (.ite22 (.mk22 (.ownElems hs)) (.storeElems (.ringSend (.ownElems hs))))
    (.ite22 (.mk22 (.ownElems hs)) (.mk22 (.ringSend (.ownElems hs)))))

theorem Keeps.msgDone {p i o t c part bs} (hs : Keeps s₀ s) : Keeps s₀ (Machine.msgDone p i o t c part bs s).2.2 :=
  .ite22 (.ite22 (.mk22 (.ownElems hs))
    (.ite22 (.ite22 (.storeElems (.ownElems hs)) (.mk22 (.ringSend (.storeElems (.ownElems hs)))))
    (.mk22 (.ringSend (.ownElems hs))))) (.ite22 (.storeElems hs) (.mk22 (.ringSend (.storeElems hs))))

theorem Keeps.collAdvance {p seq n} (hs : Keeps s₀ s) : Keeps s₀ (Machine.collAdvance p seq n s) := by
  induction n generalizing s with
  | zero => exact hs
  | succ n ih =>
    rw [Machine.collAdvance]
    split
    · exact hs
    · split
      · exact .endItem hs
      · dsimp only
        split
        · exact ih (.modItem hs)
        · refine .ite (.collFail (.recordP hs)) ?_
          generalize start : (if (_ == 0) = true then Machine.tensorStart _ _ _ _ s else (MRes.ok, 0, s)) = st
          have hst : Keeps s₀ st.2.2 := start ▸ .ite22 (.tensorStart hs) (.mk22 hs)
          clear start
          refine .ite (.collFail hst) ?_
          split
          · exact .ite (.collFail (.peerLostEvent (.modItem hst))) (.beginWait (.modItem hst))
          · exact ih (.modItem hst)

theorem Keeps.setSkew {p g} (hs : Keeps s₀ s) : Keeps s₀ (Machine.setSkew p g s) := .modGroup hs

theorem Keeps.skewFound {p ch g} (hs : Keeps s₀ s) : Keeps s₀ (Machine.skewFound p ch g s) := .sendAll (.setSkew hs)

theorem Keeps.collFeed {p seq off b} (hs : Keeps s₀ s) : Keeps s₀ (Machine.collFeed p seq off b s) := by
  unfold Machine.collFeed
  dsimp only
  split
  · exact hs
  · split
    · exact hs
    · split
      · exact hs
      · exact .ite (.collFail (.internalEvent (.draw hs)))
          (.branch (fun hs => .beginWait (.modItem hs))
          (fun hs => .branch (fun hs => .collFail hs) (fun hs => .collAdvance (.modItem hs)) (.msgDone hs))
          (.endWait (.when hs fun hs => .skewFound hs)))

theorem Keeps.collPump {p seq n} (hs : Keeps s₀ s) : Keeps s₀ (Machine.collPump p seq n s) := by
  induction n generalizing s with
  | zero => exact hs
  | succ n ih =>
    rw [Machine.collPump]
    split
    · exact hs
    · split
      · exact hs
      · dsimp only
        split
        · exact hs
        · exact ih (.collFeed (.setParcel hs))

theorem Keeps.onCollData {p ch rank off b} (hs : Keeps s₀ s) : Keeps s₀ (Machine.onCollData p ch rank off b s) := by
  unfold Machine.onCollData
  dsimp only
  split
  · exact .collPump (.modParcel hs)
  · exact .modParcel hs

theorem Keeps.onAbort {p ch idx src} (hs : Keeps s₀ s) : Keeps s₀ (Machine.onAbort p ch idx src s) := by
  unfold Machine.onAbort
  dsimp only
  split
  · exact .collFail (.peerLostEvent hs)
  · exact hs

theorem Keeps.collPeerLost {p m ev} (hs : Keeps s₀ s) : Keeps s₀ (Machine.collPeerLost p m ev s) :=
  .foldl hs fun _ _ hs => .when hs fun hs => .collFail hs

theorem Answers.execCollectiveBegin {parcel seq} (hs : Keeps s₀ s) :
    Answers s₀ (Machine.execCollectiveBegin parcel seq s) := by
  unfold Machine.execCollectiveBegin
  dsimp only
  split
  · exact .next hs
  · exact .ite (.next hs) (by
      split
      · exact .next hs
      · exact .fin (.collPump (.collAdvance (.modItem hs))))

theorem Keeps.collFault {p slot a m} (hs : Keeps s₀ s) : Keeps s₀ (Machine.collFault p slot a m s) := by
  unfold Machine.collFault
  dsimp only
  split
  · exact .collFail hs
  · exact hs

end Sys2Proof.Machine
end

section
/-! SUPPORT. What keeps the queue of commands: the HBM's bursts, the die stores, Courier ports and frames, the frame tick. -/

namespace Sys2Proof.Machine

variable {s₀ s : State}

theorem Keeps.declareDead {k ch cause} (hs : Keeps s₀ s) : Keeps s₀ (Machine.declareDead k ch cause s) :=
  .whenNot hs fun hs => .dropLines (.setStack hs)

theorem Keeps.loseChannel {k ch} (hs : Keeps s₀ s) : Keeps s₀ (Machine.loseChannel k ch s) := .other hs

theorem Keeps.channelDead {k ch cause} (hs : Keeps s₀ s) : Keeps s₀ (Machine.channelDead k ch cause s) :=
  .whenNot hs fun hs => .loseChannel (.declareDead hs)

theorem Keeps.chanErr {kind k ch pc replays detail} (hs : Keeps s₀ s) :
    Keeps s₀ (Machine.chanErr kind k ch pc replays detail s) :=
  .recordM hs

theorem Keeps.laneNote {pc lane n} (hs : Keeps s₀ s) : Keeps s₀ (Machine.laneNote pc lane n s) :=
  .whenNot hs fun hs => .other hs

theorem Keeps.burstRead {r c} (hs : Keeps s₀ s) : Keeps s₀ (Machine.burstRead r c s).2 :=
  .ite2 (.mk2 (.when (.setStack
    (.granCheck (.when (.laneNote (.whenNot (.when hs fun hs => .other hs) fun hs => .hbmCount hs)) fun hs =>
    .memErr hs))) fun hs => .channelDead hs))
    (.mk2 (.granCheck (.when (.laneNote (.whenNot (.when hs fun hs => .other hs) fun hs => .hbmCount hs)) fun hs =>
    .memErr hs)))

theorem Keeps.readOne {a r} (hs : Keeps s₀ a.2) : Keeps s₀ (Machine.readOne a r).2 := by
  unfold Machine.readOne
  dsimp only
  split
  · split
    · exact .ite2 hs (.ite2 (.mk2 (.burstRead hs)) (.mk2 (.burstRead hs)))
    · exact hs
  · refine .ite2 hs ?_
    split
    · exact .ite2 (.mk2 (.burstRead hs)) (.mk2 (.collFault (.updFault (.burstRead hs))))
    · exact .mk2 (.burstRead hs)

theorem Keeps.foldl2 {α β : Type} {f : α × State → β → α × State} {l : List β} {a : α × State} (hs : Keeps s₀ a.2)
    (h : ∀ a b, Keeps s₀ a.2 → Keeps s₀ (f a b).2) : Keeps s₀ (l.foldl f a).2 := by
  induction l generalizing a with
  | nil => exact hs
  | cons b l ih => exact ih (h a b hs)

theorem Answers.execHbmReadComplete {cycle rs} (hs : Keeps s₀ s) :
    Answers s₀ (Machine.execHbmReadComplete cycle rs s) :=
  .ite (.next hs) (.fin (.foldl (.foldl (.foldl2 (.atCycle hs) fun _ _ hs => .readOne hs) fun _ _ hs => .coreFault hs)
    fun _ _ hs => .failItem hs))

theorem Keeps.writeReplays {w c} (hs : Keeps s₀ s) : Keeps s₀ (Machine.writeReplays w c s) :=
  .when (.when (.laneNote (.whenNot hs fun hs => .hbmCount hs)) fun hs => .memErr hs) fun hs => .lostAccess
    (.channelDead (.memErr hs))

theorem Answers.writeRow {w} (hs : Keeps s₀ s) : Answers s₀ (Machine.writeRow w s) := .ite (.next hs) (by
    dsimp only
    split
    · exact .next (.atCycle hs)
    · split
      · exact .ite (.next (.atCycle hs))
          (.ite (.fin (.ite2 (.mk2 (.writeReplays (.atCycle hs))) (.wrLine (.writeReplays (.atCycle hs)))))
          (.fin (.failItem (.ite2 (.mk2 (.writeReplays (.atCycle hs))) (.wrLine (.writeReplays (.atCycle hs)))))))
      · exact .ite (.next (.atCycle hs))
          (.fin (.when (.writeReplays (.atCycle hs)) fun hs => .collFault (.updFault hs))))

theorem Answers.execStackFatalError {stack channel} (hs : Keeps s₀ s) :
    Answers s₀ (Machine.execStackFatalError stack channel s) :=
  .ite (.next hs) (.fin (.channelDead hs))

theorem Keeps.foldEvent {k ch cause} (hs : Keeps s₀ s) : Keeps s₀ (Machine.foldEvent k ch cause s) := .recordShared hs

theorem Keeps.foldStack {now k} (hs : Keeps s₀ s) : Keeps s₀ (Machine.foldStack now k s) :=
  .foldl (by
    dsimp only
    split
    · exact .when hs fun hs => .foldEvent (.setStack (.other hs))
    · exact hs) fun _ _ hs => .setStack (.other hs)

theorem Answers.execFoldApply (hs : Keeps s₀ s) : Answers s₀ (Machine.execFoldApply s) :=
  .ite (.fin (.foldl hs fun _ _ hs => .foldStack hs)) (.next hs)

theorem Answers.execRetrainWindow {stack ok} (hs : Keeps s₀ s) : Answers s₀ (Machine.execRetrainWindow stack ok s) :=
  .ite (.next hs) (.ite (.next (.setStack (.atCycle hs)))
    (.fin (.when (.setStack (.chanErr (.atCycle hs))) fun hs => .channelDead hs)))

theorem Keeps.dsCorrected {d} (hs : Keeps s₀ s) : Keeps s₀ (Machine.dsCorrected d s) :=
  .when (.setDie hs) fun hs => .satShared hs

theorem Keeps.granRecord {m g line} (hs : Keeps s₀ s) : Keeps s₀ (Machine.granRecord m g line s) := by
  unfold Machine.granRecord
  dsimp only
  split
  · exact .memErr hs
  · split
    · exact .recordP hs
    · exact hs

theorem Keeps.writerFail {a m w} (hs : Keeps s₀ s) : Keeps s₀ (Machine.writerFail a m s w) := by
  unfold Machine.writerFail
  split
  · exact hs
  · split
    · exact .failItem hs
    · exact .failItem hs
    · exact .collFail hs
    · exact .updFault hs
    · exact hs

theorem Keeps.granFail {g m line writers} (hs : Keeps s₀ s) : Keeps s₀ (Machine.granFail g m line writers s) :=
  .ite (by
    split
    · exact .collFault (.updFault (by
        split
        · exact .foldl (.granRecord hs) fun _ _ hs => .writerFail hs
        · exact .granRecord hs))
    · split
      · exact .foldl (.granRecord hs) fun _ _ hs => .writerFail hs
      · exact .granRecord hs) (by
    dsimp only
    split
    · exact .failItem (by
        split
        · exact .foldl (.granRecord hs) fun _ _ hs => .writerFail hs
        · exact .granRecord hs)
    · split
      · exact .foldl (.granRecord hs) fun _ _ hs => .writerFail hs
      · exact .granRecord hs)

theorem Keeps.lineError {g key l} (hs : Keeps s₀ s) : Keeps s₀ (Machine.lineError g key l s) :=
  .ite (.when (.rdGran (.setGran hs)) fun hs => .setGran hs)
    (.ite (.granFail (.setGran hs)) (.granFail (.setGran hs)))

theorem Answers.granRow {g} (hs : Keeps s₀ s) : Answers s₀ (Machine.granRow g s) := .ite (.next hs) (by
    dsimp only
    split
    · exact .next (.atCycle hs)
    · exact .ite (by
        split
        · exact .next (.atCycle hs)
        · exact .ite (by
            split
            · exact .fin (.lineError (.when (.touch (.atCycle hs)) fun hs => .dsCorrected hs))
            · exact .next (.when (.touch (.atCycle hs)) fun hs => .dsCorrected hs))
                (.fin (.when (.touch (.atCycle hs)) fun hs => .dsCorrected hs)))
                (.ite (.fin (.granFail (.dsUndef (.when (.atCycle hs) fun hs => .dsCorrected hs))))
                (.fin (.when (.atCycle hs) fun hs => .dsCorrected hs))))

theorem Keeps.holdParcel {p} (hs : Keeps s₀ s) : Keeps s₀ (Machine.holdParcel p s) :=
  .updHold (.foldl hs fun _ _ hs => .failItem hs)

theorem Answers.execThermalHoldEnter (hs : Keeps s₀ s) : Answers s₀ (Machine.execThermalHoldEnter s) :=
  .ite (.next hs) (.fin (.sendHold (.setAlert (.foldl (.stateEvent (.other hs)) fun _ _ hs => .holdParcel hs))))

theorem Answers.execThermalHoldExit (hs : Keeps s₀ s) : Answers s₀ (Machine.execThermalHoldExit s) :=
  .ite (.next hs) (.fin (.setAlert (.stateEvent (.other hs))))

theorem Answers.execHoldSend (hs : Keeps s₀ s) : Answers s₀ (Machine.execHoldSend s) :=
  .fin (.when (.when (.when hs fun hs => .sendHold hs) fun hs => .sendHold hs) fun hs => .sendHold hs)

theorem Keeps.linkRecord {port kind lane} (hs : Keeps s₀ s) : Keeps s₀ (Machine.linkRecord port kind lane s) :=
  .recordM hs

theorem Keeps.linkEvent {port kind lane} (hs : Keeps s₀ s) : Keeps s₀ (Machine.linkEvent port kind lane s) :=
  .msix (.linkRecord hs)

theorem Keeps.hopLimit {port} (hs : Keeps s₀ s) : Keeps s₀ (Machine.hopLimit port s) := .linkRecord hs

theorem Keeps.portReply {port} (hs : Keeps s₀ s) : Keeps s₀ (Machine.portReply port s) :=
  .foldl (.setPort hs) fun _ _ hs => .reply hs

theorem Keeps.portTo {port st} (hs : Keeps s₀ s) : Keeps s₀ (Machine.portTo port st s) := .linkEvent (.setPort hs)

theorem Keeps.portGoesDown {port} (hs : Keeps s₀ s) : Keeps s₀ (Machine.portGoesDown port s) :=
  .portReply (.foldl (.portTo (.setPort hs)) fun _ _ hs => .routeFrame hs)

theorem Answers.execPortUp {port member peerPort} (hs : Keeps s₀ s) :
    Answers s₀ (Machine.execPortUp port member peerPort s) :=
  .ite (.next hs) (.fin (.portReply (.portTo (.setPort hs))))

theorem Answers.execPortDown {port} (hs : Keeps s₀ s) : Answers s₀ (Machine.execPortDown port s) :=
  .ite (.next hs) (.fin (.portGoesDown hs))

theorem Answers.execPortRetrain {port} (hs : Keeps s₀ s) : Answers s₀ (Machine.execPortRetrain port s) :=
  .ite (.next hs) (.fin (.portTo hs))

theorem Answers.execLaneFail {port lane} (hs : Keeps s₀ s) : Answers s₀ (Machine.execLaneFail port lane s) := by
  refine .ite (.next hs) (.ite (.next (.msix (.setPort hs))) (.ite (.fin (.portGoesDown (.setPort hs))) (.next (.linkEvent
    (.whenNot (.setPort (.setPort hs)) fun hs => ?_)))))
  cases ((s.port port).kept.head?).map (·.1) with
  | none => exact hs
  | some n => exact .resend hs

theorem Keeps.channelFails {p ch} (hs : Keeps s₀ s) : Keeps s₀ (Machine.channelFails p ch s) :=
  .foldl hs fun _ _ hs => by
    dsimp only
    split
    · exact .when hs fun hs => .failItem hs
    · exact .when hs fun hs => .failItem hs
    · exact .when hs fun hs => .collFail hs
    · split
      · exact .when (.foldl hs fun _ _ hs => by
          split
          · exact hs
          · exact .when hs fun hs => .finishGroup (.modRun hs)) fun hs => .updateSecurity hs
      · exact .foldl hs fun _ _ hs => by
          split
          · exact hs
          · exact .when hs fun hs => .finishGroup (.modRun hs)

theorem Keeps.frameRefused {cause p ch src} (hs : Keeps s₀ s) : Keeps s₀ (Machine.frameRefused cause p ch src s) :=
  .channelFails (.recordP hs)

theorem Keeps.openFrame {p ch b} (hs : Keeps s₀ s) : Keeps s₀ (Machine.openFrame p ch b s).2 :=
  .ite2 (.ite2 (.mk2 (.frameRefused hs)) (.ite2 (.mk2 hs) (.mk2 hs))) (.ite2 (.mk2 hs) (by
    dsimp only
    split
    · exact .mk2 (.frameRefused (.when (.modParcel hs) fun hs => .satEvent hs))
    · exact .ite2 (.mk2 (.frameRefused hs)) (.mk2 (.modParcel hs))))

theorem Answers.onChannel {fr type kinds f} (hs : Keeps s₀ s)
    (rows : ∀ b p ch k body s, Keeps s₀ s → Keeps s₀ (f b p ch k body s)) :
    Answers s₀ (Machine.onChannel fr type kinds f s) := by
  unfold Machine.onChannel
  refine .ite (.next hs) ?_
  dsimp only
  split
  · exact .next hs
  · refine .ite (.next hs) ?_
    split
    · exact .fin (.openFrame hs)
    · exact .fin (rows _ _ _ _ _ _ (.countFrame (.openFrame hs)))

theorem Keeps.streamData {p ch tag body} (hs : Keeps s₀ s) : Keeps s₀ (Machine.streamData p ch tag body s) :=
  .when (.endWait (.modParcel hs)) fun hs => .beginWait hs

theorem Answers.execData {fr} (hs : Keeps s₀ s) : Answers s₀ (Machine.execData fr s) :=
  .onChannel hs (fun _ _ _ _ _ _ hs => .ite (.streamData hs) (.onCollData hs))

theorem Answers.execCredit {fr} (hs : Keeps s₀ s) : Answers s₀ (Machine.execCredit fr s) :=
  .onChannel hs (fun _ _ _ _ _ _ hs => .flushTx (.modParcel hs))

theorem Keeps.streamReset {p ch tag} (hs : Keeps s₀ s) : Keeps s₀ (Machine.streamReset p ch tag s) := by
  unfold Machine.streamReset
  dsimp only
  split
  · exact .foldl (.endWaits (.endWaits (.modParcel hs))) fun _ _ hs => .failOn (.peerLostEvent hs)
  · exact .whenNot (.beginWait
      (.modParcel (.foldl (.endWaits (.endWaits (.modParcel hs))) fun _ _ hs => .failOn (.peerLostEvent hs))))
      fun hs => .sendChan hs

theorem Answers.execSkew {fr} (hs : Keeps s₀ s) : Answers s₀ (Machine.execSkew fr s) :=
  .onChannel hs (fun _ _ _ _ _ _ hs => .when hs fun hs => .setSkew hs)

theorem Answers.groupFrame {type fr} (hs : Keeps s₀ s) : Answers s₀ (Machine.groupFrame type fr s) :=
  .onChannel hs (fun _ _ _ _ _ _ hs => .when hs fun hs => .onGroupMsg hs)

theorem Answers.execAnswer {fr} (hs : Keeps s₀ s) : Answers s₀ (Machine.execAnswer fr s) :=
  .onChannel hs (fun _ _ _ _ _ _ hs => by
    split
    · exact .when hs fun hs => .onDecision hs
    · exact .resolveDoubt hs)

theorem Keeps.gather {type f b p ch k body} (hs : Keeps s₀ s)
    (rows : ∀ p ch k body s, Keeps s₀ s → Keeps s₀ (f p ch k body s)) :
    Keeps s₀ (Machine.gather type f b p ch k body s) :=
  .ite (.modParcel hs) (.ite (rows _ _ _ _ _ (.modParcel hs)) (.modParcel (.modParcel hs)))

theorem Answers.execHold {fr} (hs : Keeps s₀ s) : Answers s₀ (Machine.execHold fr s) :=
  .ite (.next hs) (.next (.whenNot (.other hs) fun hs => .recordM hs))

theorem Answers.execCourierFrameForward {fr} (hs : Keeps s₀ s) : Answers s₀ (Machine.execCourierFrameForward fr s) :=
  .ite (.next hs) (.ite (.next (.hopLimit hs)) (.next (.routeFrame hs)))

theorem Answers.execTick {fr} (hs : Keeps s₀ s) : Answers s₀ (Machine.execTick fr s) :=
  .ite (.next hs) (.ite (.next (.hopLimit (.other hs))) (.next (.foldl (.draw (.other hs)) fun _ _ hs => .sendOn hs)))

theorem Answers.execTickLost {offset} (hs : Keeps s₀ s) : Answers s₀ (Machine.execTickLost offset s) :=
  .ite (.fin (.recordM (.other hs))) (.next hs)

theorem Answers.execAlignedRestore (hs : Keeps s₀ s) : Answers s₀ (Machine.execAlignedRestore s) :=
  .ite (.fin (.other hs)) (.next hs)

theorem Answers.execFedJoin {datumPostmark} (hs : Keeps s₀ s) :
    Answers s₀ (Machine.execFedJoin datumPostmark s) := by
  unfold Machine.execFedJoin
  dsimp only
  split
  · next turn =>
    have hu := hs.turnIn turn
    exact .ite (.next hu) (.ite (.fin (.refuse (.other hu))) (.fin (.reply (.other (.jumpTo hu)))))
  · exact .next hs

theorem Keeps.linkPeerLost {p m ev} (hs : Keeps s₀ s) : Keeps s₀ (Machine.linkPeerLost p m ev s) :=
  .foldl hs fun _ _ hs => by
    dsimp only
    split
    · exact hs
    · exact .failOn hs

theorem Answers.execPeerLost {member channel} (hs : Keeps s₀ s) :
    Answers s₀ (Machine.execPeerLost member channel s) := by
  unfold Machine.execPeerLost
  dsimp only
  split
  · exact .next hs
  · exact .fin (.other (.foldl (.recordP (.other hs)) fun _ _ hs => .updPeerLost (.collPeerLost (.linkPeerLost hs))))

theorem Keeps.leaveParcel {p} (hs : Keeps s₀ s) : Keeps s₀ (Machine.leaveParcel p s) :=
  .foldl hs fun _ _ hs => .updPeerLost (.collPeerLost (.linkPeerLost hs))

theorem Keeps.leaveFed (hs : Keeps s₀ s) : Keeps s₀ (Machine.leaveFed s) :=
  .other (.foldl (.foldl hs fun _ _ hs => .leaveParcel hs) fun _ _ hs => .whenNot hs fun hs => .modParcel hs)

theorem Keeps.applyChange {c} (hs : Keeps s₀ s) : Keeps s₀ (Machine.applyChange c s) := by
  unfold Machine.applyChange
  dsimp only
  split
  · exact .ite (.refuse hs) (.reply (.other hs))
  · exact .reply (.stateEvent (.other hs))
  · exact .promoteNow hs
  · exact .reply (.leaveFed hs)
  · exact hs

theorem Answers.execFrameBoundaryChangeApply (hs : Keeps s₀ s) :
    Answers s₀ (Machine.execFrameBoundaryChangeApply s) := by
  unfold Machine.execFrameBoundaryChangeApply
  split
  · exact .next hs
  · split
    · exact .fin (.applyChange (.takeChange hs))
    · exact .next hs

theorem Answers.execReset {fr} (hs : Keeps s₀ s) : Answers s₀ (Machine.execReset fr s) :=
  .onChannel hs fun _ _ _ _ _ _ hs => .streamReset hs

theorem Answers.execAbort {fr} (hs : Keeps s₀ s) : Answers s₀ (Machine.execAbort fr s) :=
  .onChannel hs fun _ _ _ _ _ _ hs => .onAbort hs

theorem Answers.execNorm {fr} (hs : Keeps s₀ s) : Answers s₀ (Machine.execNorm fr s) :=
  .onChannel hs fun _ _ _ _ _ _ hs => .gather hs fun _ _ _ _ _ hs => .when hs fun hs => .onGroupMsg hs

theorem Answers.execTally {fr} (hs : Keeps s₀ s) : Answers s₀ (Machine.execTally fr s) :=
  .onChannel hs fun _ _ _ _ _ _ hs => .gather hs fun _ _ _ _ _ hs => .onTally hs

theorem Answers.frameCame {fr} (hs : Keeps s₀ s) : Answers s₀ (Machine.frameCame fr s) := by
  unfold Machine.frameCame
  split
  · exact .execTick hs
  · refine .ite (.execCourierFrameForward hs) ?_
    split
    · exact .execData hs
    · exact .execCredit hs
    · exact .execReset hs
    · exact .execAbort hs
    · exact .execSkew hs
    · exact .execHold hs
    · exact .groupFrame hs
    · exact .groupFrame hs
    · exact .groupFrame hs
    · exact .execAnswer hs
    · exact .execNorm hs
    · exact .execTally hs
    · exact .next hs

/-- Frames that are dealt with one after the other. -/
theorem Answers.foldl {α : Type} {f : α → State → Host.Outcome State Fault Refusal} {l : List α} {o}
    (ho : Answers s₀ o) (rows : ∀ a s, Keeps s₀ s → Answers s₀ (f a s)) :
    Answers s₀ (l.foldl (fun o a => match o with
      | .next s => f a s
      | e => e) o) := by
  induction l generalizing o with
  | nil => exact ho
  | cons a l ih =>
    obtain ⟨t, rfl, ht⟩ := ho
    exact ih (rows a t ht)

theorem Answers.contentCame {port content replayed} (hs : Keeps s₀ s) :
    Answers s₀ (Machine.contentCame port content replayed s) :=
  .foldl (.next (.setPort hs)) fun _ _ hs => .frameCame hs

theorem Keeps.askReplay {port seq seen} (hs : Keeps s₀ s) : Keeps s₀ (Machine.askReplay port seq seen s) :=
  .other (.setPort hs)

theorem Answers.execFlit {port flit} (hs : Keeps s₀ s) : Answers s₀ (Machine.execFlit port flit s) :=
  .ite (.next hs) (.ite (.next (.when (.askReplay (.setPort hs)) fun hs => .satEvent hs)) (.ite (by
    dsimp only
    split
    · exact .contentCame (.other (.setPort hs))
    · exact .next (.when (.other (.setPort hs)) fun hs => .resend hs)
    · exact .next (.other (.setPort hs))) (.ite (.next (.askReplay (.setPort hs))) (.next (.other (.setPort hs))))))

theorem Keeps.resetItem {p i} (hs : Keeps s₀ s) : Keeps s₀ (Machine.resetItem p i s) := by
  unfold Machine.resetItem
  split
  · exact .failItem hs
  · exact .failItem hs
  · exact .updReset hs
  · exact .collFail hs

theorem Keeps.resetItems {p} (hs : Keeps s₀ s) : Keeps s₀ (Machine.resetItems p s) :=
  .when hs fun hs => .foldl hs fun _ _ hs => .resetItem hs

theorem Answers.execFrameTick (hs : Keeps s₀ s) : Answers s₀ (Machine.execFrameTick s) :=
  .ite (.next hs) (.fin
    (.foldl (.sendTicks
    (.fedQuiet (.tickPower
    (.foldl (.datumAdopt
    (.stretched (.other
    (.fedCount (.foldl (.foldl (.overrunAtTick (.atCycle hs)) fun _ _ hs => .frameCounts (.thermOverPlan hs))
    fun _ _ hs => .coarseTotals hs))))) fun _ _ hs => .refreshFall hs)))) fun _ _ hs => .failFenced
    (.buildBatches (.resetItems hs))))

end Sys2Proof.Machine
end

section
/-! SUPPORT. What keeps the queue of commands: sessions, parcels, tenancies and registrations. -/

namespace Sys2Proof.Machine

variable {s₀ s : State}

theorem Keeps.dropReply {tk} (hs : Keeps s₀ s) : Keeps s₀ (Machine.dropReply tk s) := .whenNot hs fun hs => .modBlock hs

theorem Keeps.replyNow {tk st force b} (hs : Keeps s₀ s) : Keeps s₀ (Machine.replyNow tk st force b s) :=
  .of_replies hs (replyNow_replies _ _ _ _ _)

theorem Keeps.sealAnswer {p st} (hs : Keeps s₀ s) : Keeps s₀ (Machine.sealAnswer p st s) :=
  .foldl (.other (.modParcel hs)) fun _ _ hs => .reply hs

theorem Keeps.endSpdm {e} (hs : Keeps s₀ s) : Keeps s₀ (Machine.endSpdm e s) := .other hs

theorem Keeps.dropHeld {n} (hs : Keeps s₀ s) : Keeps s₀ (Machine.dropHeld n s) :=
  .foldl hs fun _ _ hs => .foldl hs fun _ _ hs => .whenNot hs fun hs => .foldl (.modTen hs) fun _ _ hs =>
    .dropReply hs

theorem Keeps.endSession {n} (hs : Keeps s₀ s) : Keeps s₀ (Machine.endSession n s) := by
  unfold Machine.endSession
  dsimp only
  split
  · exact hs
  · exact .setIrq (by
      split
      · exact .whenNot (.dropHeld (.setBlock hs)) fun hs => .when (.foldl (.modTen hs) fun _ _ hs => .dropReply hs)
          fun hs => .sealAnswer hs
      · exact .dropHeld (.setBlock hs))

theorem Keeps.endBmcSession (hs : Keeps s₀ s) : Keeps s₀ (Machine.endBmcSession s) := .other hs

theorem Keeps.zRefuse {tk st} (hs : Keeps s₀ s) : Keeps s₀ (Machine.zRefuse tk st s) :=
  .ite (.replyWith hs) (.refuse hs)

theorem Keeps.zRun {f r} (hs : Keeps s₀ s)
    (rows : ∀ op form tk p t b s, Keeps s₀ s → Keeps s₀ (f op form tk p t b s)) : Keeps s₀ (Machine.zRun f r s) := by
  unfold Machine.zRun
  dsimp only
  split
  · exact .zRefuse (.taken hs)
  · exact .ite (.modTen (.taken hs)) (rows _ _ _ _ _ _ _ (.taken hs))

theorem Answers.zRow {op form f r} (hs : Keeps s₀ s)
    (rows : ∀ tk p t b s, Keeps s₀ s → Keeps s₀ (f tk p t b s)) : Answers s₀ (Machine.zRow op form f r s) :=
  .ite (.fin (.zRun hs fun _ _ _ _ _ _ _ hs => rows _ _ _ _ _ hs)) (.next hs)

theorem Keeps.pushChange {c} (hs : Keeps s₀ s) : Keeps s₀ (Machine.pushChange c s) := .other hs

theorem Keeps.cmdHello {tk x1 x2 b} (hs : Keeps s₀ s) : Keeps s₀ (Machine.cmdHello tk x1 x2 b s) :=
  .ite (.refuse hs) (.ite (.replyWith hs)
    (.reply (.branch (fun hs => .other hs) (fun hs => .modBlock hs)
    (.other (.ite (.endBmcSession hs) (.endSession hs))))))

theorem Keeps.cmdCapsGet {tk x1 x2 x3} (hs : Keeps s₀ s) : Keeps s₀ (Machine.cmdCapsGet tk x1 x2 x3 s) := .reply hs

theorem Keeps.cmdParcelCreateNew {tk x1 x2 b} (hs : Keeps s₀ s) :
    Keeps s₀ (Machine.cmdParcelCreateNew tk x1 x2 b s) :=
  .ite (.refuse hs) (by
    dsimp only
    split
    · exact .refuse hs
    · exact .ite (.refuse hs) (.ite (.refuse hs) (.ite (.refuse hs) (.ite (.refuse hs) (.setParcel hs)))))

theorem Keeps.powerGrans {p} (hs : Keeps s₀ s) : Keeps s₀ (Machine.powerGrans p s) :=
  .foldl hs fun _ _ hs => .whenNot (.setGran hs) fun hs => .zeroGran hs

theorem Keeps.dropGrans {p} (hs : Keeps s₀ s) : Keeps s₀ (Machine.dropGrans p s) :=
  .foldl hs fun _ _ hs => .zeroGran (.setGran hs)

theorem Keeps.zeroRings {n} (hs : Keeps s₀ s) : Keeps s₀ (Machine.zeroRings n s) := .modBlock hs

theorem Keeps.parcelStarts {p created} (hs : Keeps s₀ s) : Keeps s₀ (Machine.parcelStarts p created s) :=
  .beginSlice (.foldl (.powerGrans (.modParcel (.foldl hs fun _ _ hs => .zeroRings (.endSession hs)))) fun _ _ hs =>
    .zeroScratch (.clearHalves hs))

theorem Answers.execParcelCreateDone {parcel} (hs : Keeps s₀ s) :
    Answers s₀ (Machine.execParcelCreateDone parcel s) := by
  unfold Machine.execParcelCreateDone
  dsimp only
  split
  · exact .fin (.reply (.cad (.parcelStarts (.foldl hs fun _ _ hs => .zeroLot hs))))
  · exact .next hs

theorem Keeps.restoreJournal {p old} (hs : Keeps s₀ s) : Keeps s₀ (Machine.restoreJournal p old s) :=
  .foldl hs fun _ _ hs => .ite (.modParcel hs) (.sealAbort hs)

theorem Keeps.cmdParcelCreateRestore {tk x1 x2 b} (hs : Keeps s₀ s) :
    Keeps s₀ (Machine.cmdParcelCreateRestore tk x1 x2 b s) :=
  .ite (.refuse hs) (.ite (.refuse hs)
    (.ite (.refuse hs) (.ite (.refuse hs)
    (.ite (.refuse hs) (.ite (.refuse hs) (.reply (.cad (.restoreJournal (.parcelStarts (.setParcel hs))))))))))

theorem Keeps.cmdParcelCreateRestoreDone {tk x1 x2 x3} (hs : Keeps s₀ s) :
    Keeps s₀ (Machine.cmdParcelCreateRestoreDone tk x1 x2 x3 s) :=
  .ite (.refuse hs) (.reply
    (.cad (.recordM (.stateEvent
    (.other (.foldl (.foldl hs fun _ _ hs => .zeroLot hs) fun _ _ hs => .foldl (.when hs fun hs => .setParcel hs)
    fun _ _ hs => .sealAbort hs))))))

theorem Keeps.askSeal {p} (hs : Keeps s₀ s) : Keeps s₀ (Machine.askSeal p s) :=
  .when hs fun hs => .pushChange (.modParcel hs)

theorem Keeps.destroyBegin {st w tk p} (hs : Keeps s₀ s) : Keeps s₀ (Machine.destroyBegin st w tk p s) :=
  .ite (.refuse hs) (.ite (.refuse hs) (.cad (.pushChange (.modParcel (.other (.when hs fun hs => .sealAnswer hs))))))

theorem Keeps.cmdParcelDestroyReset {tk p x2 x3} (hs : Keeps s₀ s) :
    Keeps s₀ (Machine.cmdParcelDestroyReset tk p x2 x3 s) :=
  .destroyBegin hs

theorem Keeps.cmdParcelDestroyRelease {tk p x2 x3} (hs : Keeps s₀ s) :
    Keeps s₀ (Machine.cmdParcelDestroyRelease tk p x2 x3 s) :=
  .destroyBegin hs

theorem Keeps.resetClears {p} (hs : Keeps s₀ s) : Keeps s₀ (Machine.resetClears p s) := .modParcel (.clearParcel hs)

theorem Answers.execParcelResetDone {parcel} (hs : Keeps s₀ s) :
    Answers s₀ (Machine.execParcelResetDone parcel s) := by
  unfold Machine.execParcelResetDone
  dsimp only
  split
  · split
    · exact .next hs
    · next turn =>
      have hu := hs.turnIn turn
      refine .ite (.next hu) ?_
      split
      · exact .fin (.reply (.restoreTen (.askSeal (.modParcel (.resetClears hu)))))
      · exact .fin (.reply (.cad (.startSlice (.askSeal (.modParcel (.resetClears hu))))))
  · exact .next hs

theorem Keeps.ringDiscard {p t} (hs : Keeps s₀ s) : Keeps s₀ (Machine.ringDiscard p t s) :=
  .whenNot hs fun hs => .recordP (.modTen hs)

theorem Keeps.deliverOne {p d} (hs : Keeps s₀ s) : Keeps s₀ (Machine.deliverOne p d s) := by
  unfold Machine.deliverOne
  dsimp only
  split
  · exact .ite (.dropReply hs) (.replyNow hs)
  · exact .setIrqNow hs
  · exact .blockMsix hs
  · exact .eventsReadable (.drainRings (.modTen hs))

theorem Keeps.deliverAll {p l} (hs : Keeps s₀ s) : Keeps s₀ (Machine.deliverAll p l s) :=
  .foldl (.other (.foldl hs fun _ _ hs => .deliverOne hs)) fun _ _ hs => .deliverOne hs

theorem Answers.execSealedDelivery {parcel} (hs : Keeps s₀ s) : Answers s₀ (Machine.execSealedDelivery parcel s) :=
  .ite (.next hs) (.fin (.deliverAll (.other hs)))

theorem Keeps.flushDelayed {p} (hs : Keeps s₀ s) : Keeps s₀ (Machine.flushDelayed p s) := .deliverAll (.other hs)

theorem Keeps.lapseWindows {p} (hs : Keeps s₀ s) : Keeps s₀ (Machine.lapseWindows p s) := .other hs

theorem Answers.execParcelReleaseDone {parcel} (hs : Keeps s₀ s) :
    Answers s₀ (Machine.execParcelReleaseDone parcel s) := by
  unfold Machine.execParcelReleaseDone
  dsimp only
  split
  · split
    · exact .next hs
    · next turn =>
      have hu := hs.turnIn turn
      have dropped := Keeps.dropGrans (p := parcel) (.resetClears (p := parcel) (.flushDelayed (p := parcel) hu))
      exact .ite (.next hu) (.fin (.reply (.cad (.recordP (.setParcel (.other (.foldl (.flushDelayed (.foldl (.lapseWindows
        (.foldl (.foldl dropped fun _ _ hs => .zeroLot hs) fun _ _ hs => .ite (.endSession hs) (.endSpdm (.endSession hs))))
        fun _ _ hs => .refuse hs)) fun _ _ hs => .ringDiscard hs)))))))
  · exact .next hs

theorem Keeps.cmdParcelSeal {tk p t x3} (hs : Keeps s₀ s) : Keeps s₀ (Machine.cmdParcelSeal tk p t x3 s) :=
  .ite (.refuse hs) (.ite (.refuse hs) (.ite (.reply hs) (.askSeal (.modTen hs))))

theorem Answers.execParcelSealApply {parcel} (hs : Keeps s₀ s) :
    Answers s₀ (Machine.execParcelSealApply parcel s) := by
  unfold Machine.execParcelSealApply
  dsimp only
  refine .ite (.next hs) ?_
  split
  · exact .next hs
  · next turn =>
    have hu := hs.turnIn turn
    exact .fin (.foldl (.cad (.modParcel hu)) fun _ _ hs => .deliverOne hs)

theorem Keeps.cmdParcelQuery {tk p t x3} (hs : Keeps s₀ s) : Keeps s₀ (Machine.cmdParcelQuery tk p t x3 s) :=
  .reply hs

theorem Keeps.cmdTenancySetWrite {tk p x2 b} (hs : Keeps s₀ s) : Keeps s₀ (Machine.cmdTenancySetWrite tk p x2 b s) :=
  .ite (.refuse hs) (.ite (.refuse hs)
    (.reply (.cad (.branch (fun hs => .foldl (.zeroRings (.modTen hs)) fun _ _ hs => .zeroLot hs)
    (fun hs => .modTen hs) (.whenNot hs fun hs => .endSession (.whenNot hs fun hs => .endSession hs))))))

theorem Keeps.cmdTenancySetDeactivate {tk p x2 b} (hs : Keeps s₀ s) :
    Keeps s₀ (Machine.cmdTenancySetDeactivate tk p x2 b s) :=
  .ite (.refuse hs) (.ite (.refuse hs)
    (.reply (.askSeal (.cad
    (.when (.modTen (.foldl (.ringDiscard (.foldl (.endSession hs) fun _ _ hs => .refuse hs)) fun _ _ hs =>
    .zeroLot hs)) fun hs => .pushChange (.modParcel hs))))))

theorem Keeps.cmdRingSetupEnable {tk p t d} (hs : Keeps s₀ s) : Keeps s₀ (Machine.cmdRingSetupEnable tk p t d s) :=
  .ite (.refuse hs) (.ite (.refuse hs)
    (.reply (.when (.when hs fun hs => .drainRings (.setBlock hs)) fun hs => .modBlock hs)))

theorem Keeps.cmdRingSetupDisable {tk p t d} (hs : Keeps s₀ s) : Keeps s₀ (Machine.cmdRingSetupDisable tk p t d s) :=
  .ite (.refuse hs) (.reply (.modBlock hs))

theorem Keeps.setReqTail {n v u} (hs : Keeps s₀ s) (moved : setReqTail n v s = some u) : Keeps s₀ u := by
  obtain ⟨r, -, rfl⟩ := Option.map_eq_some_iff.1 moved
  exact .setBlock hs

theorem Keeps.cmdItemSubmit {tk p t d} (hs : Keeps s₀ s) : Keeps s₀ (Machine.cmdItemSubmit tk p t d s) := by
  unfold Machine.cmdItemSubmit
  refine .ite (.refuse hs) ?_
  split
  · exact .refuse hs
  · next moved => exact .reply (.setReqTail hs moved)

theorem Keeps.cmdGroupSetWriteGroup {tk p t b} (hs : Keeps s₀ s) :
    Keeps s₀ (Machine.cmdGroupSetWriteGroup tk p t b s) :=
  .ite (.refuse hs) (.ite (.refuse hs) (.ite (.refuse hs) (.reply (.modGroup hs))))

theorem Keeps.cmdGroupSetReadGroup {tk p x2 b} (hs : Keeps s₀ s) :
    Keeps s₀ (Machine.cmdGroupSetReadGroup tk p x2 b s) :=
  .reply hs

theorem Keeps.cmdGroupSetWriteProgram {tk p x2 b} (hs : Keeps s₀ s) :
    Keeps s₀ (Machine.cmdGroupSetWriteProgram tk p x2 b s) :=
  .ite (.refuse hs) (.ite (.refuse hs) (.reply (.modParcel hs)))

theorem Keeps.cmdGroupSetReadProgram {tk p x2 b} (hs : Keeps s₀ s) :
    Keeps s₀ (Machine.cmdGroupSetReadProgram tk p x2 b s) :=
  .reply hs

theorem Keeps.admitUpdate {tk p t b} (hs : Keeps s₀ s) : Keeps s₀ (Machine.admitUpdate tk p t b s) :=
  .branch (fun hs => .endItem hs) (fun hs => .tryEndUpdate (.foldl hs fun _ _ hs => .modGroup hs))
    (.reply (.modParcel (.takeSeq hs)))

theorem Keeps.cmdStepCommitUpdate {tk p t b} (hs : Keeps s₀ s) : Keeps s₀ (Machine.cmdStepCommitUpdate tk p t b s) :=
  .ite (.refuse hs) (.ite (.refuse hs) (.ite (.refuse hs) (.ite (.refuse hs) (.admitUpdate hs))))

theorem Keeps.resolveAbort {p g} (hs : Keeps s₀ s) : Keeps s₀ (Machine.resolveAbort p g s) := by
  unfold Machine.resolveAbort
  split
  · exact .finishGroup hs
  · exact .resolveDoubt hs

theorem Keeps.cmdStepCommitResolveAbort {tk p x2 b} (hs : Keeps s₀ s) :
    Keeps s₀ (Machine.cmdStepCommitResolveAbort tk p x2 b s) :=
  .ite (.refuse hs) (.ite (.refuse hs) (.foldl (.reply hs) fun _ _ hs => .resolveAbort hs))

theorem Keeps.cmdStepCommitClearHold {tk p t x3} (hs : Keeps s₀ s) :
    Keeps s₀ (Machine.cmdStepCommitClearHold tk p t x3 s) :=
  .reply (.modTen hs)

theorem Keeps.cmdSurveyRead {tk p t b} (hs : Keeps s₀ s) : Keeps s₀ (Machine.cmdSurveyRead tk p t b s) :=
  .reply (.modTen (.setParcel hs))

theorem Keeps.cmdManifestOpAdd {tk p t b} (hs : Keeps s₀ s) : Keeps s₀ (Machine.cmdManifestOpAdd tk p t b s) :=
  .ite (.refuse hs) (.ite (.refuse hs) (by
    dsimp only
    split
    · exact .refuse hs
    · exact .ite (.refuse hs) (.reply (.modParcel hs))))

theorem Keeps.manifestChange {st accepts tk p t b} (hs : Keeps s₀ s) :
    Keeps s₀ (Machine.manifestChange st accepts tk p t b s) := by
  unfold Machine.manifestChange
  dsimp only
  split
  · exact .refuse hs
  · exact .ite (.refuse hs) (.reply (.modParcel hs))

theorem Keeps.cmdManifestOpPause {x0 x1 x2 x3} (hs : Keeps s₀ s) :
    Keeps s₀ (Machine.cmdManifestOpPause x0 x1 x2 x3 s) :=
  .manifestChange hs

theorem Keeps.cmdManifestOpResume {x0 x1 x2 x3} (hs : Keeps s₀ s) :
    Keeps s₀ (Machine.cmdManifestOpResume x0 x1 x2 x3 s) :=
  .manifestChange hs

theorem Keeps.cmdManifestOpRemove {x0 x1 x2 x3} (hs : Keeps s₀ s) :
    Keeps s₀ (Machine.cmdManifestOpRemove x0 x1 x2 x3 s) :=
  .manifestChange hs

theorem Keeps.cmdManifestOpRead {tk p t b} (hs : Keeps s₀ s) : Keeps s₀ (Machine.cmdManifestOpRead tk p t b s) := by
  unfold Machine.cmdManifestOpRead
  split
  · exact .ite (.reply hs) (.refuse hs)
  · exact .refuse hs

theorem Keeps.cmdManifestOpRegister {tk p t b} (hs : Keeps s₀ s) :
    Keeps s₀ (Machine.cmdManifestOpRegister tk p t b s) := by
  unfold Machine.cmdManifestOpRegister
  dsimp only
  split
  · exact .refuse hs
  · exact .ite (.refuse hs) (.reply (.cad (.modParcel hs)))

theorem Keeps.cmdManifestOpUnregister {tk p t b} (hs : Keeps s₀ s) :
    Keeps s₀ (Machine.cmdManifestOpUnregister tk p t b s) := by
  unfold Machine.cmdManifestOpUnregister
  dsimp only
  split
  · exact .refuse hs
  · exact .ite (.refuse hs) (.ite (.refuse hs) (.reply (.cad (.modParcel hs))))

theorem Keeps.cmdEventRead {tk p t b} (hs : Keeps s₀ s) : Keeps s₀ (Machine.cmdEventRead tk p t b s) :=
  .ite (.reply (.other hs)) (.ite (.reply (.other hs)) (.reply (.modTen hs)))

end Sys2Proof.Machine
end

section
/-! SUPPORT. What keeps the queue of commands: plans, loads and deeds, suspended commands, maintenance and the table of requests. -/

namespace Sys2Proof.Machine

variable {s₀ s : State}

theorem Keeps.refuseV {tk v dig} (hs : Keeps s₀ s) : Keeps s₀ (Machine.refuseV tk v dig s) := .replyWith hs

theorem imageCheck_keeps {tk p t im k sums e} (hs : Keeps s₀ s) (failed : imageCheck tk p t im k sums s = .error e) :
    Keeps s₀ e := by
  have ends {v dig} : Keeps s₀ (refuseV tk v dig s) := .refuseV hs
  unfold imageCheck at failed
  dsimp only at failed
  split at failed
  · split at failed <;> cases failed
    exact ends
  · split at failed
    · split at failed <;> cases failed
      exact .replyWith hs
    · split at failed <;> split at failed <;> cases failed <;> exact ends

theorem imageChecks_keeps {tk p t im n k sums e} (hs : Keeps s₀ s) (failed : imageChecks tk p t im n k sums s = .error e) :
    Keeps s₀ e := by
  induction n generalizing k sums with
  | zero => cases failed
  | succ n ih =>
    rw [imageChecks] at failed
    split at failed
    · next one =>
      cases failed
      exact imageCheck_keeps hs one
    · exact ih failed

theorem planRead_keeps {tk p t b e} (hs : Keeps s₀ s) (failed : planRead tk p t b s = .error e) : Keeps s₀ e := by
  unfold planRead at failed
  dsimp only at failed
  repeat' split at failed
  all_goals cases failed
  all_goals exact .replyWith hs

theorem Keeps.imageStored {tk p t slot off im w} (hs : Keeps s₀ w.2.2.2) :
    Keeps s₀ (Machine.imageStored tk p t slot off im w) :=
  .ite (.refuseV (.pvUndef hs)) (.reply (.cad (.modParcel hs)))

theorem Keeps.cmdPlanLoad {tk p t b} (hs : Keeps s₀ s) : Keeps s₀ (Machine.cmdPlanLoad tk p t b s) := by
  unfold Machine.cmdPlanLoad
  dsimp only
  split
  · next failed => exact planRead_keeps hs failed
  · split
    · next failed => exact imageChecks_keeps hs failed
    · exact .imageStored (.pvWrite hs)

theorem Keeps.cmdPlanUnload {tk p t b} (hs : Keeps s₀ s) : Keeps s₀ (Machine.cmdPlanUnload tk p t b s) :=
  .ite (.refuse hs) (.ite (.refuse hs) (.reply (.cad (.modParcel hs))))

theorem Keeps.ledgerAdd {p t tensor dest len key text} (hs : Keeps s₀ s) :
    Keeps s₀ (Machine.ledgerAdd p t tensor dest len key text s) := by
  unfold Machine.ledgerAdd
  exact .modTen hs

theorem Keeps.loadReply {tk p t tensor dest key text w} (hs : Keeps s₀ w.2.2.2) :
    Keeps s₀ (Machine.loadReply tk p t tensor dest key text w) :=
  .ite (.reply (.ledgerAdd hs)) (.reply hs)

theorem Keeps.cmdWeightsLoad {tk p t b} (hs : Keeps s₀ s) : Keeps s₀ (Machine.cmdWeightsLoad tk p t b s) := by
  unfold Machine.cmdWeightsLoad
  dsimp only
  split
  · exact .refuse hs
  · split
    · exact .refuse hs
    · exact .loadReply (.pvWrite hs)

/-- The state that a load of chunks leaves: that of its last write, or that before a tag that failed. -/
def loaded (x : Option (MRes × Nat × Nat × State) × List Byte × State) : State := (x.1.map (·.2.2.2)).getD x.2.2

theorem Keeps.wrapChunks {p t dest key h src k i text} (hs : Keeps s₀ s) :
    Keeps s₀ (loaded (Machine.wrapChunks p t dest key h src k i text s)) := by
  induction k generalizing s src i text with
  | zero => exact hs
  | succ k ih =>
    rw [Machine.wrapChunks]
    dsimp only
    split
    · exact hs
    · generalize wrote : Machine.pvWrite _ _ _ _ _ _ _ s = w
      have hw : Keeps s₀ w.2.2.2 := wrote ▸ .pvWrite hs
      split
      · exact ih hw
      · exact hw

theorem Keeps.tagFailed {tk p t dest len} (hs : Keeps s₀ s) : Keeps s₀ (Machine.tagFailed tk p t dest len s) :=
  .refuse (.pvWrite hs)

theorem Keeps.chunks {p t dest key h src k i text w text' u} (hs : Keeps s₀ s)
    (run : Machine.wrapChunks p t dest key h src k i text s = (some w, text', u)) : Keeps s₀ w.2.2.2 := by
  have keeps : Keeps s₀ (loaded (Machine.wrapChunks p t dest key h src k i text s)) := .wrapChunks hs
  rwa [run] at keeps

theorem Keeps.chunksFailed {p t dest key h src k i text text' u} (hs : Keeps s₀ s)
    (run : Machine.wrapChunks p t dest key h src k i text s = (none, text', u)) : Keeps s₀ u := by
  have keeps : Keeps s₀ (loaded (Machine.wrapChunks p t dest key h src k i text s)) := .wrapChunks hs
  rwa [run] at keeps

theorem Keeps.cmdWeightsLoadWrapped {tk p t b} (hs : Keeps s₀ s) :
    Keeps s₀ (Machine.cmdWeightsLoadWrapped tk p t b s) := by
  unfold Machine.cmdWeightsLoadWrapped
  dsimp only
  split
  · exact .refuse hs
  · split
    · exact .refuse hs
    · split
      · next run => exact .loadReply (.chunks hs run)
      · next run => exact .tagFailed (.chunksFailed hs run)

theorem Keeps.cmdTensorWrite {tk p t b} (hs : Keeps s₀ s) : Keeps s₀ (Machine.cmdTensorWrite tk p t b s) := by
  unfold Machine.cmdTensorWrite
  dsimp only
  split
  · exact .refuse hs
  · split
    · exact .refuse hs
    · exact .reply (.tenCount (.pvWrite hs))

theorem Keeps.cmdTensorRead {tk p t b} (hs : Keeps s₀ s) : Keeps s₀ (Machine.cmdTensorRead tk p t b s) := by
  unfold Machine.cmdTensorRead
  dsimp only
  split
  · exact .refuse hs
  · split
    · exact .refuse (.pvRead hs)
    · next write => exact .reply (.hostWrite (.pvRead hs) write)

theorem Keeps.cmdDeedGetParcel {tk p t b} (hs : Keeps s₀ s) : Keeps s₀ (Machine.cmdDeedGetParcel tk p t b s) :=
  .ite (.refuse hs) (.reply (.draw hs))

theorem Keeps.cmdDeedGetPackage {tk x1 x2 b} (hs : Keeps s₀ s) : Keeps s₀ (Machine.cmdDeedGetPackage tk x1 x2 b s) :=
  .ite (.refuse hs) (.reply (.draw hs))

/-- The state that a stretch of a command leaves. -/
def Stretch.left : Stretch → State
  | .ends s => s
  | .stops _ s => s

theorem Keeps.iteLeft {c : Prop} {_ : Decidable c} {a b : Stretch} (x : Keeps s a.left) (y : Keeps s b.left) :
    Keeps s (if c then a else b).left := by
  split <;> assumption

theorem Keeps.stops {u t} (h : Keeps s t) : Keeps s (Stretch.stops u t).left := h

theorem Keeps.ends {t} (h : Keeps s t) : Keeps s (Stretch.ends t).left := h

theorem Keeps.weightsPart {tk p t b u stop} (hs : Keeps s₀ s) :
    Keeps s₀ (Machine.weightsPart tk p t b u stop s).left := by
  unfold Machine.weightsPart
  dsimp only
  split
  · exact .refuse hs
  · exact .iteLeft (.stops (.pvWrite hs)) (.ends (.loadReply (.mk222 (.pvWrite hs))))

theorem Keeps.writePart {tk p t b u stop} (hs : Keeps s₀ s) : Keeps s₀ (Machine.writePart tk p t b u stop s).left := by
  unfold Machine.writePart
  dsimp only
  split
  · exact .refuse hs
  · exact .iteLeft (.stops (.pvWrite hs)) (.ends (.reply (.tenCount (.pvWrite hs))))

theorem Keeps.readPart {tk p t b u stop} (hs : Keeps s₀ s) : Keeps s₀ (Machine.readPart tk p t b u stop s).left := by
  unfold Machine.readPart
  dsimp only
  split
  · exact .refuse (.pvRead hs)
  · next write =>
    have hu := Keeps.hostWrite (.pvRead hs) write
    exact .iteLeft (.stops hu) (.ends (.reply hu))

theorem Keeps.storePart {tk p t b u stop} (hs : Keeps s₀ s) : Keeps s₀ (Machine.storePart tk p t b u stop s).left :=
  .iteLeft (.stops (.pvWrite hs)) (.ends (.imageStored (.pvWrite hs)))

theorem Keeps.planPart {tk p t b u stop} (hs : Keeps s₀ s) : Keeps s₀ (Machine.planPart tk p t b u stop s).left := by
  unfold Machine.planPart
  dsimp only
  split
  · next failed => exact imageChecks_keeps hs failed
  · exact .iteLeft (.stops hs) (.storePart hs)

theorem Keeps.wrappedPart {tk p t b u stop} (hs : Keeps s₀ s) :
    Keeps s₀ (Machine.wrappedPart tk p t b u stop s).left := by
  unfold Machine.wrappedPart
  dsimp only
  refine .iteLeft (.ends (.refuse hs)) (.iteLeft (.ends (.tagFailed hs)) ?_)
  split
  · exact .refuse hs
  · split
    · next run => exact .tagFailed (.chunksFailed hs run)
    · next run =>
      have hw := hs.chunks run
      refine .iteLeft (.ends (.loadReply hw)) (.iteLeft (.stops hw) ?_)
      split
      · exact .tagFailed hw
      · exact .iteLeft (.stops (.pvWrite hw)) (.ends (.loadReply (.mk222 (.pvWrite hw))))

theorem Keeps.onePart {tk form p t b u stop} (hs : Keeps s₀ s) :
    Keeps s₀ (Machine.onePart tk form p t b u stop s).left := by
  unfold Machine.onePart
  split
  · exact .planPart hs
  · exact .weightsPart hs
  · exact .wrappedPart hs
  · exact .writePart hs
  · exact .readPart hs

theorem Keeps.suspendHeld {p} (hs : Keeps s₀ s) : Keeps s₀ (Machine.suspendHeld p s) := by
  unfold Machine.suspendHeld
  dsimp only
  split
  · exact hs
  · split
    · exact .draw hs
    · split
      · next part => exact show Keeps s₀ (Stretch.ends _).left from part ▸ .onePart (.modTen (.draw hs))
      · next u v part =>
        exact .modTen (show Keeps s₀ (Stretch.stops u v).left from part ▸ .onePart (.modTen (.draw hs)))

theorem Answers.execSliceEnd {parcel} (hs : Keeps s₀ s) : Answers s₀ (Machine.execSliceEnd parcel s) := by
  unfold Machine.execSliceEnd
  dsimp only
  refine .ite (.ite ?_ ?_) (.next hs)
  · split
    · next turn _ => exact .fin (.beginSwitch (.suspendHeld (hs.turnIn turn)))
    · exact .next hs
  · split
    · exact .ite (.fin (.startSlice (.suspendHeld hs))) (.fin (.beginSwitch (.suspendHeld hs)))
    · exact .fin (.startSlice (.suspendHeld hs))

theorem Keeps.cmdTelemetryGet {tk x1 x2 b} (hs : Keeps s₀ s) : Keeps s₀ (Machine.cmdTelemetryGet tk x1 x2 b s) :=
  .ite (.reply hs) (.ite (.refuse hs) (.reply hs))

theorem Keeps.cmdPeriodSet {tk x1 x2 b} (hs : Keeps s₀ s) : Keeps s₀ (Machine.cmdPeriodSet tk x1 x2 b s) :=
  .ite (.refuse hs) (.ite (.refuse hs) (.pushChange hs))

theorem Keeps.cmdMaintDrainBegin {tk x1 x2 x3} (hs : Keeps s₀ s) :
    Keeps s₀ (Machine.cmdMaintDrainBegin tk x1 x2 x3 s) :=
  .ite (.refuse hs) (.pushChange hs)

theorem Keeps.cmdMaintDrainEnd {tk x1 x2 x3} (hs : Keeps s₀ s) : Keeps s₀ (Machine.cmdMaintDrainEnd tk x1 x2 x3 s) :=
  .ite (.refuse hs) (.pushChange hs)

theorem Keeps.cmdHbmRepairList {tk x1 x2 b} (hs : Keeps s₀ s) : Keeps s₀ (Machine.cmdHbmRepairList tk x1 x2 b s) :=
  .ite (.refuse hs) (.reply hs)

theorem Keeps.repairGran {g} (hs : Keeps s₀ s) : Keeps s₀ (Machine.repairGran g s) :=
  .ite (.putGran (.rdGran hs)) (.whenNot (.rdGran hs) fun hs => .other hs)

theorem Keeps.dropRepair {kind stack channel pseudo row} (hs : Keeps s₀ s) :
    Keeps s₀ (Machine.dropRepair kind stack channel pseudo row s) :=
  .other hs

theorem Keeps.retrainNow {k channel} (hs : Keeps s₀ s) : Keeps s₀ (Machine.retrainNow k channel s) :=
  .when hs fun hs => .setStack hs

theorem Keeps.repairedEvent {k channel pseudo} (hs : Keeps s₀ s) :
    Keeps s₀ (Machine.repairedEvent k channel pseudo s) :=
  .chanErr hs

theorem Keeps.rowRepair {k channel pseudo row} (hs : Keeps s₀ s) :
    Keeps s₀ (Machine.rowRepair k channel pseudo row s) :=
  .repairedEvent (.dropRepair (.foldl (.other hs) fun _ _ hs => .repairGran hs))

theorem Keeps.laneRepair {k channel pseudo lane} (hs : Keeps s₀ s) :
    Keeps s₀ (Machine.laneRepair k channel pseudo lane s) :=
  .repairedEvent (.retrainNow (.dropRepair (.other hs)))

theorem Keeps.cmdHbmRepairRow {tk x1 x2 b} (hs : Keeps s₀ s) : Keeps s₀ (Machine.cmdHbmRepairRow tk x1 x2 b s) :=
  .ite (.refuse hs) (.ite (.refuse hs) (.ite (.refuse hs) (.ite (.refuse hs) (.reply (.rowRepair hs)))))

theorem Keeps.cmdHbmRepairLane {tk x1 x2 b} (hs : Keeps s₀ s) : Keeps s₀ (Machine.cmdHbmRepairLane tk x1 x2 b s) :=
  .ite (.refuse hs) (.ite (.refuse hs) (.ite (.refuse hs) (.ite (.refuse hs) (.reply (.laneRepair hs)))))

theorem Keeps.cmdHbmMargin {tk x1 x2 b} (hs : Keeps s₀ s) : Keeps s₀ (Machine.cmdHbmMargin tk x1 x2 b s) :=
  .ite (.refuse hs) (.ite (.refuse hs) (.ite (.refuse hs) (.reply (.retrainNow hs))))

theorem Keeps.cmdFenceQuery {tk x1 x2 b} (hs : Keeps s₀ s) : Keeps s₀ (Machine.cmdFenceQuery tk x1 x2 b s) :=
  .ite (.reply hs) (.reply hs)

theorem Keeps.cmdReservePromote {tk x1 x2 b} (hs : Keeps s₀ s) : Keeps s₀ (Machine.cmdReservePromote tk x1 x2 b s) :=
  .ite (.refuse hs) (.ite (.refuse hs) (.ite (.refuse hs) (.pushChange hs)))

theorem Keeps.cmdFwStage {tk x1 x2 b} (hs : Keeps s₀ s) : Keeps s₀ (Machine.cmdFwStage tk x1 x2 b s) := by
  unfold Machine.cmdFwStage
  dsimp only
  split
  · exact .refuse hs
  · split
    · exact .refuse hs
    · exact .ite (.refuse hs) (.reply (.other hs))

theorem Keeps.cmdFwActivate {tk x1 x2 x3} (hs : Keeps s₀ s) : Keeps s₀ (Machine.cmdFwActivate tk x1 x2 x3 s) := by
  unfold Machine.cmdFwActivate
  dsimp only
  split
  · exact .refuse hs
  · exact .reply (.other hs)

theorem Keeps.cmdLinkQuery {tk x1 x2 x3} (hs : Keeps s₀ s) : Keeps s₀ (Machine.cmdLinkQuery tk x1 x2 x3 s) :=
  .reply hs

theorem Keeps.linkConfig {f tk p t b} (hs : Keeps s₀ s) (rows : ∀ k tk s, Keeps s₀ s → Keeps s₀ (f k tk s)) :
    Keeps s₀ (Machine.linkConfig f tk p t b s) :=
  .ite (.refuse hs) (.ite (.refuse hs) (rows _ _ _ hs))

theorem Keeps.portTrains {mode8023 k tk} (hs : Keeps s₀ s) : Keeps s₀ (Machine.portTrains mode8023 k tk s) :=
  .portTo (.setPort hs)

theorem Keeps.cmdLinkConfigCourier {x0 x1 x2 x3} (hs : Keeps s₀ s) :
    Keeps s₀ (Machine.cmdLinkConfigCourier x0 x1 x2 x3 s) :=
  .linkConfig hs fun _ _ _ hs => .portTrains hs

theorem Keeps.cmdLinkConfig8023 {x0 x1 x2 x3} (hs : Keeps s₀ s) :
    Keeps s₀ (Machine.cmdLinkConfig8023 x0 x1 x2 x3 s) :=
  .linkConfig hs fun _ _ _ hs => .portTrains hs

theorem Keeps.cmdLinkConfigDisable {x0 x1 x2 x3} (hs : Keeps s₀ s) :
    Keeps s₀ (Machine.cmdLinkConfigDisable x0 x1 x2 x3 s) :=
  .linkConfig hs fun _ _ _ hs => .portReply (.whenNot (.setPort hs) fun hs => .portTo hs)

theorem Keeps.cmdFedForm {tk x1 x2 b} (hs : Keeps s₀ s) : Keeps s₀ (Machine.cmdFedForm tk x1 x2 b s) :=
  .ite (.refuse hs) (.ite (.refuse hs)
    (.ite (.refuse hs) (.ite (.refuse hs) (.whenNot (.other hs) fun hs => .pushChange hs))))

theorem Keeps.cmdFedLeave {tk x1 x2 x3} (hs : Keeps s₀ s) : Keeps s₀ (Machine.cmdFedLeave tk x1 x2 x3 s) :=
  .ite (.refuse hs) (.ite (.refuse hs) (.pushChange hs))

theorem Keeps.cmdRouteSet {tk x1 x2 b} (hs : Keeps s₀ s) : Keeps s₀ (Machine.cmdRouteSet tk x1 x2 b s) :=
  .ite (.refuse hs) (.ite (.refuse hs) (.reply (.other hs)))

theorem Keeps.cmdMemberRestore {tk x1 x2 b} (hs : Keeps s₀ s) : Keeps s₀ (Machine.cmdMemberRestore tk x1 x2 b s) :=
  .ite (.refuse hs) (.reply (.other hs))

theorem Keeps.cmdChannelSet {tk p t b} (hs : Keeps s₀ s) : Keeps s₀ (Machine.cmdChannelSet tk p t b s) :=
  .ite (.refuse hs) (.ite (.refuse hs) (.ite (.refuse hs) (.ite (.refuse hs) (.reply (.setParcel hs)))))

theorem Keeps.cmdChannelFree {tk p t b} (hs : Keeps s₀ s) : Keeps s₀ (Machine.cmdChannelFree tk p t b s) :=
  .ite (.refuse hs) (.ite (.refuse hs) (.ite (.refuse hs) (.reply (.setParcel hs))))

theorem Keeps.cmdChannelQuery {tk p x2 b} (hs : Keeps s₀ s) : Keeps s₀ (Machine.cmdChannelQuery tk p x2 b s) :=
  .reply hs

theorem Keeps.cmdCollectiveSubmit {tk p t b} (hs : Keeps s₀ s) : Keeps s₀ (Machine.cmdCollectiveSubmit tk p t b s) :=
  .ite (.refuse hs) (.ite (.refuse hs)
    (.ite (.refuse hs) (.branch (fun hs => .endItem hs) (fun hs => .when hs fun hs => .endItem hs)
    (.reply (.modParcel (.takeSeq hs))))))

theorem Keeps.dispatch {op form tk p t b} (hs : Keeps s₀ s) :
    Keeps s₀ (Machine.dispatch op form tk p t b s) := by
  unfold Machine.dispatch
  split
  · exact .cmdHello hs
  · exact .cmdCapsGet hs
  · exact .cmdParcelCreateNew hs
  · exact .cmdParcelCreateRestore hs
  · exact .cmdParcelCreateRestoreDone hs
  · exact .cmdParcelDestroyReset hs
  · exact .cmdParcelDestroyRelease hs
  · exact .cmdParcelSeal hs
  · exact .cmdParcelQuery hs
  · exact .cmdTenancySetWrite hs
  · exact .cmdTenancySetDeactivate hs
  · exact .cmdPlanLoad hs
  · exact .cmdPlanUnload hs
  · exact .cmdWeightsLoad hs
  · exact .cmdWeightsLoadWrapped hs
  · exact .cmdTensorWrite hs
  · exact .cmdTensorRead hs
  · exact .cmdRingSetupEnable hs
  · exact .cmdRingSetupDisable hs
  · exact .cmdItemSubmit hs
  · exact .cmdGroupSetWriteGroup hs
  · exact .cmdGroupSetReadGroup hs
  · exact .cmdGroupSetWriteProgram hs
  · exact .cmdGroupSetReadProgram hs
  · exact .cmdStepCommitUpdate hs
  · exact .cmdStepCommitResolveAbort hs
  · exact .cmdStepCommitClearHold hs
  · exact .cmdDeedGetParcel hs
  · exact .cmdDeedGetPackage hs
  · exact .cmdSurveyRead hs
  · exact .cmdManifestOpAdd hs
  · exact .cmdManifestOpPause hs
  · exact .cmdManifestOpResume hs
  · exact .cmdManifestOpRemove hs
  · exact .cmdManifestOpRead hs
  · exact .cmdManifestOpRegister hs
  · exact .cmdManifestOpUnregister hs
  · exact .cmdTelemetryGet hs
  · exact .cmdPeriodSet hs
  · exact .cmdMaintDrainBegin hs
  · exact .cmdMaintDrainEnd hs
  · exact .cmdHbmRepairList hs
  · exact .cmdHbmRepairRow hs
  · exact .cmdHbmRepairLane hs
  · exact .cmdHbmMargin hs
  · exact .cmdFenceQuery hs
  · exact .cmdReservePromote hs
  · exact .cmdEventRead hs
  · exact .cmdLinkQuery hs
  · exact .cmdLinkConfigCourier hs
  · exact .cmdLinkConfig8023 hs
  · exact .cmdLinkConfigDisable hs
  · exact .cmdFedForm hs
  · exact .cmdFedLeave hs
  · exact .cmdRouteSet hs
  · exact .cmdMemberRestore hs
  · exact .cmdChannelSet hs
  · exact .cmdChannelFree hs
  · exact .cmdChannelQuery hs
  · exact .cmdCollectiveSubmit hs
  · exact .cmdFwStage hs
  · exact .cmdFwActivate hs
  · exact .refuse hs

theorem Keeps.takeInline {n} (hs : Keeps s₀ s) : Keeps s₀ (Machine.takeInline n s) :=
  .zRun hs fun _ _ _ _ _ _ _ hs => .dispatch hs

theorem Keeps.takeSlots {n k} (hs : Keeps s₀ s) : Keeps s₀ (Machine.takeSlots n k s) := by
  induction k generalizing s with
  | zero => exact hs
  | succ k ih =>
    rw [Machine.takeSlots]
    refine .whenNot hs fun hs => ?_
    split
    · exact .ringFail hs
    · exact ih (.zRun hs fun _ _ _ _ _ _ _ hs => .dispatch hs)

theorem Answers.execHeldCommandPerform {parcel} (hs : Keeps s₀ s) :
    Answers s₀ (Machine.execHeldCommandPerform parcel s) := by
  unfold Machine.execHeldCommandPerform
  dsimp only
  split
  · exact .next hs
  · refine .ite (.next hs) ?_
    split
    · exact .ite (.fin (.dropReply (.modTen hs))) (.fin (.dispatch (.modTen hs)))
    · split
      · next v part => exact .fin (show Keeps s₀ (Stretch.ends v).left from part ▸ .onePart (.modTen hs))
      · next u v part => exact .fin (show Keeps s₀ (Stretch.stops u v).left from part ▸ .onePart (.modTen hs))

theorem Keeps.updSecurity {p i ev} (hs : Keeps s₀ s) : Keeps s₀ (Machine.updSecurity p i ev s) := by
  unfold Machine.updSecurity
  dsimp only
  split
  · exact .when (.foldl (.modItem hs) fun _ _ hs => by
      split
      · exact hs
      · exact .ite (.finishGroup (.modRun (.pass2Torn (.draw hs)))) (.when hs fun hs => .finishGroup (.modRun hs)))
          fun hs => .updateSecurity hs
  · exact .foldl (.modItem hs) fun _ _ hs => by
      split
      · exact hs
      · exact .ite (.finishGroup (.modRun (.pass2Torn (.draw hs)))) (.when hs fun hs => .finishGroup (.modRun hs))

theorem Keeps.itemSecurity {p ev i} (hs : Keeps s₀ s) : Keeps s₀ (Machine.itemSecurity p ev i s) := by
  unfold Machine.itemSecurity
  split
  · exact .failItem hs
  · exact .failItem hs
  · exact .updSecurity hs
  · exact .collFail hs

theorem Keeps.enterError (hs : Keeps s₀ s) : Keeps s₀ (Machine.enterError s) :=
  .foldl (.recordM (.other hs)) fun _ _ hs => .when (.when hs fun hs => .foldl hs fun _ _ hs => .itemSecurity hs)
    fun hs => .sealAnswer hs

theorem Keeps.setTdisp {vf x} (hs : Keeps s₀ s) : Keeps s₀ (Machine.setTdisp vf x s) := .other hs

theorem Keeps.leaveRun {vf x} (hs : Keeps s₀ s) : Keeps s₀ (Machine.leaveRun vf x s) :=
  .whenNot (.setTdisp hs) fun hs => by
    dsimp only
    split
    · exact .recordM hs
    · exact .whenNot (.recordP (.modTen hs)) fun hs => .when
        (.endSpdm (.modTen (.foldl hs fun _ _ hs => .itemSecurity hs))) fun hs => .sealAnswer hs

end Sys2Proof.Machine
end

section
/-! SUPPORT. What keeps the queue of commands: registers, BAR2, SPDM and TDISP, failing parts, resets and boots, the sideband. -/

namespace Sys2Proof.Machine

variable {s₀ s : State}

theorem Keeps.ringError {n} (hs : Keeps s₀ s) : Keeps s₀ (Machine.ringError n s) := .setIrq hs

theorem Keeps.wrReqTail {n v} (hs : Keeps s₀ s) : Keeps s₀ (Machine.wrReqTail n v s) := by
  rw [Machine.wrReqTail.eq_1]
  exact .orElse (fun _ moved => .setReqTail hs moved) (.ringError hs)

/-- As for `Keeps.amendRing`: the kernel would compute the place in the ring. -/
theorem Keeps.wrEnvTail {n v} (hs : Keeps s₀ s) : Keeps s₀ (Machine.wrEnvTail n v s) := by
  obtain ⟨row, rule⟩ : ∃ row, row = @Machine.wrEnvTail := ⟨_, rfl⟩
  rw [← rule]
  delta Machine.wrEnvTail at rule
  subst rule
  beta_reduce
  split
  · exact .ringError hs
  · exact .takeSlots (.setBlock hs)

/-- As for `Keeps.amendRing`. -/
theorem Keeps.wrCplHead {n v} (hs : Keeps s₀ s) : Keeps s₀ (Machine.wrCplHead n v s) := by
  obtain ⟨row, rule⟩ : ∃ row, row = @Machine.wrCplHead := ⟨_, rfl⟩
  rw [← rule]
  delta Machine.wrCplHead at rule
  subst rule
  beta_reduce
  split
  · exact .ringError hs
  · dsimp only
    split
    · exact .drainCpl (.setBlock hs)
    · exact .setBlock hs

/-- As for `Keeps.amendRing`. -/
theorem Keeps.wrDlrHead {n v} (hs : Keeps s₀ s) : Keeps s₀ (Machine.wrDlrHead n v s) := by
  obtain ⟨row, rule⟩ : ∃ row, row = @Machine.wrDlrHead := ⟨_, rfl⟩
  rw [← rule]
  delta Machine.wrDlrHead at rule
  subst rule
  beta_reduce
  split
  · exact .ringError hs
  · dsimp only
    split
    · exact .drainRings (.setBlock hs)
    · exact .setBlock hs

theorem Keeps.wrCtrl {n v} (hs : Keeps s₀ s) : Keeps s₀ (Machine.wrCtrl n v s) :=
  .ite (.takeSlots (.modBlock hs)) (.modBlock (.endSession hs))

theorem Keeps.wrIrqStatus {n v} (hs : Keeps s₀ s) : Keeps s₀ (Machine.wrIrqStatus n v s) := .modBlock hs

theorem Keeps.sendMask {n k} (hs : Keeps s₀ s) : Keeps s₀ (Machine.sendMask n k s) := by
  unfold Machine.sendMask
  split
  · exact .ite (.other hs) (.blockMsix hs)
  · exact .blockMsix hs

theorem Keeps.wrIrqMask {n v} (hs : Keeps s₀ s) : Keeps s₀ (Machine.wrIrqMask n v s) :=
  .foldl (.setBlock hs) fun _ _ hs => .sendMask hs

theorem Keeps.wrDoorbell {n v} (hs : Keeps s₀ s) : Keeps s₀ (Machine.wrDoorbell n v s) :=
  .whenNot hs fun hs => .ite (.ringError hs) (.takeInline hs)

theorem Answers.regRow {fn n f} (hs : Keeps s₀ s) (rows : ∀ s, Keeps s₀ s → Keeps s₀ (f s)) :
    Answers s₀ (Machine.regRow fn n f s) := .ite (.fin (rows _ hs)) (.next hs)

theorem Keeps.wrEvlogHead {v} (hs : Keeps s₀ s) : Keeps s₀ (Machine.wrEvlogHead v s) :=
  .whenNot hs fun hs => .other hs

theorem Answers.execEvlogHeadWrite {value} (hs : Keeps s₀ s) : Answers s₀ (Machine.execEvlogHeadWrite value s) :=
  .next (.when hs fun hs => .wrEvlogHead hs)

theorem Keeps.wrRingReg {n o sub bs} (hs : Keeps s₀ s) : Keeps s₀ (Machine.wrRingReg n o sub bs s) :=
  .whenNot hs fun hs => .modBlock hs

theorem Keeps.wrBlock {n o sub bs hw} (hs : Keeps s₀ s) : Keeps s₀ (Machine.wrBlock n o sub bs hw s) :=
  .ite (.wrCtrl hs) (.ite (.wrDoorbell hs)
    (.ite (.wrIrqStatus hs)
    (.ite (.wrIrqMask hs)
    (.ite (.wrReqTail hs)
    (.ite (.wrCplHead hs)
    (.ite (.wrDlrHead hs)
    (.ite (.wrEnvTail hs) (.ite (.wrRingReg hs) (.when hs fun hs => .whenNot hs fun hs => .setBlock hs)))))))))

theorem Keeps.wrPage {n o sub bs} (hs : Keeps s₀ s) : Keeps s₀ (Machine.wrPage n o sub bs s) := by
  unfold Machine.wrPage
  dsimp only
  split
  · exact .wrReqTail hs
  · exact .wrCplHead hs
  · exact .wrDlrHead hs
  · exact .wrEnvTail hs
  · exact hs

theorem Keeps.wrMsix {fn o bs} (hs : Keeps s₀ s) : Keeps s₀ (Machine.wrMsix fn o bs s) :=
  .when (.other hs) fun hs => .msix (.other hs)

theorem Keeps.wrPf {o sub bs hw} (hs : Keeps s₀ s) : Keeps s₀ (Machine.wrPf o sub bs hw s) :=
  .ite (.when hs fun hs => .other hs) (.ite (.other hs) (.ite (.other hs) (.when hs fun hs => .wrMsix hs)))

theorem Keeps.wrWord {fn o sub bs hw} (hs : Keeps s₀ s) : Keeps s₀ (Machine.wrWord fn o sub bs hw s) :=
  .ite (.ite (.when hs fun hs => .wrBlock hs) (.ite (.when hs fun hs => .wrPage hs) (.wrPf hs)))
    (.whenNot hs fun hs => .ite (.when hs fun hs => .wrBlock hs)
    (.ite (.when hs fun hs => .wrPage hs) (.when hs fun hs => .wrMsix hs)))

theorem Answers.execRegisterWrite {fn offset width value} (hs : Keeps s₀ s) :
    Answers s₀ (Machine.execRegisterWrite fn offset width value s) :=
  .ite (.next hs) (.ite (.fin (.wrEvlogHead hs)) (.fin (.foldl hs fun _ _ hs => .wrWord hs)))

theorem Keeps.bar2Miss (hs : Keeps s₀ s) : Keeps s₀ (Machine.bar2Miss s) := .other hs

theorem Keeps.bar2Pieces {l acc bad} (hs : Keeps s₀ s) : Keeps s₀ (Machine.bar2Pieces l acc bad s).2.2 := by
  induction l generalizing s acc bad with
  | nil => exact hs
  | cons x l ih =>
    rw [Machine.bar2Pieces]
    split
    · exact ih hs
    · exact ih (.bar2Miss hs)
    · exact .ite22 (ih (.pvRead hs)) (ih (.pvRead hs))

theorem Answers.execBar2Read {addr len} (hs : Keeps s₀ s) : Answers s₀ (Machine.execBar2Read addr len s) :=
  .ite (.next hs) (.fin (.other (.bar2Pieces hs)))

theorem Keeps.bar2Puts {l bs} (hs : Keeps s₀ s) : Keeps s₀ (Machine.bar2Puts l bs s) := by
  induction l generalizing s bs with
  | nil => exact hs
  | cons x l ih =>
    rw [Machine.bar2Puts]
    split
    · exact ih hs
    · exact ih (.bar2Miss hs)
    · exact ih (.pvWrite hs)

theorem Answers.execBar2Write {addr data} (hs : Keeps s₀ s) : Answers s₀ (Machine.execBar2Write addr data s) :=
  .ite (.next hs) (.fin (.bar2Puts hs))

theorem Answers.execAtsInvalidate {fn addr} (hs : Keeps s₀ s) : Answers s₀ (Machine.execAtsInvalidate fn addr s) :=
  .ite (.next (.other hs)) (.next hs)

theorem Keeps.flrBlock {n} (hs : Keeps s₀ s) : Keeps s₀ (Machine.flrBlock n s) := .other (.modBlock (.endSession hs))

theorem Keeps.dropVf {vf} (hs : Keeps s₀ s) : Keeps s₀ (Machine.dropVf vf s) := .other (.endSpdm (.leaveRun hs))

theorem Keeps.setVfs {num en} (hs : Keeps s₀ s) : Keeps s₀ (Machine.setVfs num en s) :=
  .other (.foldl (.foldl hs fun _ _ hs => .dropVf hs) fun _ _ hs => .endSession hs)

theorem Answers.execFlrPf (hs : Keeps s₀ s) : Answers s₀ (Machine.execFlrPf s) :=
  .ite (.next hs) (.fin (.other (.foldl (.setVfs hs) fun _ _ hs => .flrBlock hs)))

theorem Answers.execFlrVf {vf} (hs : Keeps s₀ s) : Answers s₀ (Machine.execFlrVf vf s) :=
  .ite (.next hs) (.fin (.other (.flrBlock (.leaveRun hs))))

theorem Answers.execConfigurationWrite {fn offset value} (hs : Keeps s₀ s) :
    Answers s₀ (Machine.execConfigurationWrite fn offset value s) :=
  .ite (.next (.other hs))
    (.ite (.next hs) (.fin
    (.branch (fun hs => .setVfs hs)
    (fun hs => .branch (fun hs => .setVfs hs) (fun hs => .ite (.other hs) (.other hs)) hs)
    (.when hs fun hs => .leaveRun hs))))

theorem Keeps.spdmOut {e msg} (hs : Keeps s₀ s) : Keeps s₀ (Machine.spdmOut e msg s) := .other hs

theorem Keeps.spdmError {e code} (hs : Keeps s₀ s) : Keeps s₀ (Machine.spdmError e code s) := .spdmOut hs

theorem Keeps.spdmFree {code msg} (hs : Keeps s₀ s) : Keeps s₀ (Machine.spdmFree code msg s).2 := .mk2 (.draw hs)

theorem Keeps.randomBytes (hs : Keeps s₀ s) : Keeps s₀ (Machine.randomBytes s).2 := .mk2 (.draw hs)

theorem Keeps.spdmSign {code msg} (hs : Keeps s₀ s) : Keeps s₀ (Machine.spdmSign code msg s).2 := .mk2 (.draw hs)

theorem Keeps.setConn {e k} (hs : Keeps s₀ s) : Keeps s₀ (Machine.setConn e k s) := .other hs

theorem Keeps.setSpdm {e x} (hs : Keeps s₀ s) : Keeps s₀ (Machine.setSpdm e x s) := .other hs

theorem Answers.spdmRow {code need keyed r f} (hs : Keeps s₀ s) (rows : ∀ s, Keeps s₀ s → Keeps s₀ (f s)) :
    Answers s₀ (Machine.spdmRow code need keyed r f s) :=
  .ite (.next hs) (.ite (.next (.spdmError hs)) (.ite (.next (.spdmError hs)) (.ite (.next (.spdmError hs))
    (.fin (rows _ hs)))))

theorem Answers.execGetVersion {r} (hs : Keeps s₀ s) : Answers s₀ (Machine.execGetVersion r s) :=
  .spdmRow hs (fun _ hs => .spdmOut (.setConn hs))

theorem Answers.execGetCapabilities {r} (hs : Keeps s₀ s) : Answers s₀ (Machine.execGetCapabilities r s) :=
  .spdmRow hs (fun _ hs => .spdmOut (.setConn hs))

theorem Answers.execNegotiateAlgorithms {r} (hs : Keeps s₀ s) : Answers s₀ (Machine.execNegotiateAlgorithms r s) :=
  .spdmRow hs (fun _ hs => .ite (.spdmError hs) (.spdmOut (.setConn hs)))

theorem Answers.execGetCertificate {r} (hs : Keeps s₀ s) : Answers s₀ (Machine.execGetCertificate r s) :=
  .spdmRow hs (fun _ hs => .ite (.spdmError hs) (.spdmOut hs))

theorem Answers.execChallenge {r} (hs : Keeps s₀ s) : Answers s₀ (Machine.execChallenge r s) :=
  .spdmRow hs (fun _ hs => .ite (.spdmError hs) (.spdmOut (.spdmSign (.spdmFree (.randomBytes hs)))))

theorem Answers.execGetMeasurements {r} (hs : Keeps s₀ s) : Answers s₀ (Machine.execGetMeasurements r s) :=
  .spdmRow hs (fun _ hs => .ite (.spdmError hs)
    (.spdmOut (.ite2 (.spdmSign (.spdmFree (.randomBytes hs))) (.mk2 (.spdmFree (.randomBytes hs))))))

theorem Answers.execKeyExchange {r} (hs : Keeps s₀ s) : Answers s₀ (Machine.execKeyExchange r s) :=
  .spdmRow hs (fun _ hs => .ite (.spdmError hs)
    (.ite (.spdmError (.enterError hs)) (.spdmOut (.setSpdm (.spdmSign (.spdmFree (.randomBytes (.draw hs))))))))

theorem Answers.execFinish {r} (hs : Keeps s₀ s) : Answers s₀ (Machine.execFinish r s) := .spdmRow hs (fun _ hs => by
    dsimp only
    split
    · exact .spdmError hs
    · exact .ite (.spdmError hs) (.ite (.spdmError (.endSpdm hs)) (.spdmOut (.setSpdm (.spdmFree hs)))))

theorem Keeps.inSession {r f} (hs : Keeps s₀ s) (rows : ∀ x s, Keeps s₀ s → Keeps s₀ (f x s)) :
    Keeps s₀ (Machine.inSession r f s) := by
  unfold Machine.inSession
  split
  · exact .spdmError hs
  · exact .ite (rows _ _ hs) (.spdmError hs)

theorem Keeps.vendorReply {e st body} (hs : Keeps s₀ s) : Keeps s₀ (Machine.vendorReply e st body s) := .spdmOut hs

theorem Answers.vendorRow {code r f} (hs : Keeps s₀ s) (rows : ∀ x s, Keeps s₀ s → Keeps s₀ (f x s)) :
    Answers s₀ (Machine.vendorRow code r f s) :=
  .ite (.next hs) (.spdmRow hs fun _ hs => .inSession hs fun _ _ hs => .ite (.vendorReply hs) (rows _ _ hs))

theorem Answers.execKeySet {r} (hs : Keeps s₀ s) : Answers s₀ (Machine.execKeySet r s) := .vendorRow hs (fun _ _ hs => by
    split
    · exact .vendorReply hs
    · exact .ite (.vendorReply hs) (.vendorReply (.modTen hs)))

theorem Answers.execKeyClear {r} (hs : Keeps s₀ s) : Answers s₀ (Machine.execKeyClear r s) :=
  .vendorRow hs (fun _ _ hs => by
    split
    · exact .vendorReply hs
    · exact .ite (.vendorReply hs) (.vendorReply (.modTen hs)))

theorem Answers.execSignerSet {r} (hs : Keeps s₀ s) : Answers s₀ (Machine.execSignerSet r s) :=
  .vendorRow hs (fun _ _ hs => by
    split
    · exact .vendorReply hs
    · exact .ite (.vendorReply hs) (.vendorReply (.modTen hs)))

theorem Answers.execDeedParcel {r} (hs : Keeps s₀ s) : Answers s₀ (Machine.execDeedParcel r s) :=
  .vendorRow hs (fun _ _ hs => .ite (.vendorReply hs) (by
    dsimp only
    split
    · exact .vendorReply hs
    · exact .vendorReply (.draw hs)))

theorem Answers.execDeedPackage {r} (hs : Keeps s₀ s) : Answers s₀ (Machine.execDeedPackage r s) :=
  .vendorRow hs (fun _ _ hs => .ite (.vendorReply hs) (.ite (.vendorReply hs) (.vendorReply (.draw hs))))

theorem Keeps.tdispError {vf code} (hs : Keeps s₀ s) : Keeps s₀ (Machine.tdispError vf code s) := .spdmOut hs

theorem Answers.tdispRow {r f} (hs : Keeps s₀ s) (rows : ∀ s, Keeps s₀ s → Keeps s₀ (f s)) :
    Answers s₀ (Machine.tdispRow r f s) := .ite (.fin (rows _ hs)) (.next hs)

theorem Answers.execLockInterface {r} (hs : Keeps s₀ s) : Answers s₀ (Machine.execLockInterface r s) :=
  .tdispRow hs (fun _ hs => .ite (.tdispError hs) (.spdmOut (.other (.setTdisp (.randomBytes hs)))))

theorem Answers.execStartInterface {r} (hs : Keeps s₀ s) : Answers s₀ (Machine.execStartInterface r s) :=
  .tdispRow hs (fun _ hs => .ite (.tdispError hs) (.ite (.tdispError hs) (.spdmOut (by
    dsimp only
    split
    · exact .modTen (.other (.setTdisp hs))
    · exact .other (.setTdisp hs)))))

theorem Answers.execStopInterface {r} (hs : Keeps s₀ s) : Answers s₀ (Machine.execStopInterface r s) :=
  .tdispRow hs (fun _ hs => .spdmOut (.other (.leaveRun hs)))

theorem Answers.execIdeKm {r} (hs : Keeps s₀ s) : Answers s₀ (Machine.execIdeKm r s) :=
  .ite (.next hs) (.ite (.next (.other hs)) (.next (.other hs)))

theorem Answers.execDebugToken (token) {valid} (hs : Keeps s₀ s) :
    Answers s₀ (Machine.execDebugToken token valid s) :=
  .ite (.next hs) (.ite (.next (.other hs)) (.ite (.next hs) (.ite (.next (.other hs)) (.next (.other hs)))))

theorem Keeps.fenceDie {ks} (hs : Keeps s₀ s) : Keeps s₀ (Machine.fenceDie ks s) :=
  .whenNot (.foldl hs fun _ _ hs => .fenceInParcel hs) fun hs => .foldl (.fenceEvent hs) fun _ _ hs => .fenceCore hs

theorem Keeps.fenceQuad {quad ks} (hs : Keeps s₀ s) : Keeps s₀ (Machine.fenceQuad quad ks s) :=
  .foldl (by
    dsimp only
    split
    · exact .fenceEvent hs
    · exact .foldl (.failItems (.fenceEvent hs)) fun _ _ hs => .foldl hs fun _ _ hs => .failItem hs) fun _ _ hs =>
        .fenceCore hs

theorem Answers.execQuadPortFail {quad} (hs : Keeps s₀ s) : Answers s₀ (Machine.execQuadPortFail quad s) :=
  .ite (.next hs) (.fin (.fenceQuad hs))

theorem Keeps.lineItem {p a ev i} (hs : Keeps s₀ s) : Keeps s₀ (Machine.lineItem p a ev i s) := by
  unfold Machine.lineItem
  dsimp only
  split
  · exact .when (.when hs fun hs => .lostAccess hs) fun hs => .failItem hs
  · exact .when (.when hs fun hs => .lostAccess hs) fun hs => .failItem hs
  · exact .when (.when hs fun hs => .lostAccess hs) fun hs => .collFail hs
  · exact .foldl (.when hs fun hs => .lostAccess hs) fun _ _ hs => by
      split
      · exact hs
      · exact .whenNot hs fun hs => .finishGroup (.modRun (.when hs fun hs => .pass2Torn (.draw hs)))

theorem Keeps.lineItems {p a tails} (hs : Keeps s₀ s) : Keeps s₀ (Machine.lineItems p a tails s) :=
  .foldl hs fun _ _ hs => .lineItem hs

theorem Keeps.loseDie {d} (hs : Keeps s₀ s) : Keeps s₀ (Machine.loseDie d s) :=
  .whenNot hs fun hs => .foldl
    (.whenNot (.foldl (.setDie (.other hs)) fun _ _ hs => .setStack hs) fun hs => .fenceDie hs) fun _ _ hs =>
    .lineItems hs

theorem Keeps.loseHub (hs : Keeps s₀ s) : Keeps s₀ (Machine.loseHub s) := .powerOff hs

theorem Answers.execDieLost {die} (hs : Keeps s₀ s) : Answers s₀ (Machine.execDieLost die s) :=
  .ite (.next hs) (.ite (.next (.loseHub hs)) (.fin (.loseDie hs)))

theorem Answers.execEdgeFail {dieA dieB} (hs : Keeps s₀ s) : Answers s₀ (Machine.execEdgeFail dieA dieB s) := by
  unfold Machine.execEdgeFail
  split
  · exact .ite (.fin (.loseDie hs)) (.next hs)
  · exact .next hs

theorem Answers.execHubLinkLost {row} (hs : Keeps s₀ s) : Answers s₀ (Machine.execHubLinkLost row s) :=
  .ite (.next hs) (.fin (.foldl hs fun _ _ hs => .loseDie hs))

theorem Keeps.stopAll (hs : Keeps s₀ s) : Keeps s₀ (Machine.stopAll s) := .foldl hs fun _ _ hs => .stopCore hs

theorem Keeps.dropItem {p i} (hs : Keeps s₀ s) : Keeps s₀ (Machine.dropItem p i s) := by
  unfold Machine.dropItem
  dsimp only
  split
  · exact .foldl hs fun _ _ hs => by
      split
      · exact hs
      · exact .whenNot (.when hs fun hs => .pass2Torn (.draw hs)) fun hs => .modGroup hs
  · split
    · exact .when hs fun hs => .collUndef hs
    · exact hs
  · exact hs

theorem Keeps.dropParcelWork {p} (hs : Keeps s₀ s) : Keeps s₀ (Machine.dropParcelWork p s) :=
  .foldl (.modParcel (.flushParcel (.foldl hs fun _ _ hs => .dropItem hs))) fun _ _ hs => by
    split
    · exact .modTen hs
    · exact hs

theorem Keeps.dropSessions (hs : Keeps s₀ s) : Keeps s₀ (Machine.dropSessions s) := .other hs

theorem Keeps.dropVfs (hs : Keeps s₀ s) : Keeps s₀ (Machine.dropVfs s) :=
  .foldl (.foldl (.other hs) fun _ _ hs => .leaveRun hs) fun _ _ hs => by
    split
    · exact .modTen hs
    · exact hs

theorem Keeps.pcieReset {perst} (hs : Keeps s₀ s) : Keeps s₀ (Machine.pcieReset perst s) := .other hs

theorem Keeps.warmBegin {perst} (hs : Keeps s₀ s) : Keeps s₀ (Machine.warmBegin perst s) :=
  .ite (.pcieReset hs) (.pcieReset
    (.setAlert (.other (.dropVfs (.dropSessions (.foldl (.stopAll hs) fun _ _ hs => .dropParcelWork hs))))))

theorem Answers.execPerstAssert (hs : Keeps s₀ s) : Answers s₀ (Machine.execPerstAssert s) :=
  .ite (.next (.other hs)) (.ite (.next (.warmBegin hs)) (.next (.pcieReset hs)))

theorem Answers.execHotReset (hs : Keeps s₀ s) : Answers s₀ (Machine.execHotReset s) :=
  .ite (.next hs) (.next (.warmBegin hs))

theorem Answers.execPerstDeassert (hs : Keeps s₀ s) : Answers s₀ (Machine.execPerstDeassert s) := .next (.other hs)

theorem Answers.execConfigReady (hs : Keeps s₀ s) : Answers s₀ (Machine.execConfigReady s) :=
  .ite (.next (.other hs)) (.next hs)

theorem Keeps.bootStop {stage} (hs : Keeps s₀ s) : Keeps s₀ (Machine.bootStop stage s) := .other hs

theorem Keeps.bootVerify {b x kept} (hs : Keeps s₀ s) : Keeps s₀ (Machine.bootVerify b x kept s) :=
  .when (.other (.draw (.bootStep hs))) fun hs => .recordM (.other hs)

theorem Keeps.bootRecords {b} (hs : Keeps s₀ s) : Keeps s₀ (Machine.bootRecords b s) :=
  .foldl hs fun _ _ hs => .whenNot hs fun hs => .recordM (.other hs)

theorem Keeps.reapplyFolds (hs : Keeps s₀ s) : Keeps s₀ (Machine.reapplyFolds s) :=
  .foldl hs fun _ _ hs => .when hs fun hs => .setStack hs

theorem Keeps.bootRepairs (hs : Keeps s₀ s) : Keeps s₀ (Machine.bootRepairs s) :=
  .foldl (.foldl hs fun _ _ hs => .when hs fun hs => .rowRepair hs) fun _ _ hs => .when hs fun hs => .laneRepair hs

theorem Keeps.bootHbm {b} (hs : Keeps s₀ s) : Keeps s₀ (Machine.bootHbm b s) := by
  rw [Machine.bootHbm.eq_1]
  refine .whenNot (.foldl (.foldl (.foldl (.bootRepairs (.reapplyFolds (.other (.bootRecords (.bootStep hs))))) ?_) ?_) ?_)
    fun hs => .other hs
  · exact fun _ _ hs => .when hs fun hs => .channelDead hs
  · exact fun _ _ hs => .when hs fun hs => .loseDie hs
  · exact fun _ _ hs => .foldStack hs

theorem Keeps.bootTest {b} (hs : Keeps s₀ s) : Keeps s₀ (Machine.bootTest b s) :=
  .foldl (.bootStep hs) fun _ _ hs => .when hs fun hs => .loseDie hs

theorem Keeps.bootPromote {fenced reserve} (hs : Keeps s₀ s) : Keeps s₀ (Machine.bootPromote fenced reserve s) :=
  .recordP (.setCmeta (.setCmeta hs))

theorem Keeps.bootFence {cores} (hs : Keeps s₀ s) : Keeps s₀ (Machine.bootFence cores s) :=
  .foldl (.foldl (.foldl (.bootStep (.bootStep hs)) fun _ _ hs => .when hs fun hs => .coreFault hs) fun _ _ hs =>
    .when hs fun hs => .coreFault hs) fun _ _ hs => .when hs fun hs => by
    split
    · exact .bootPromote hs
    · exact hs

theorem Keeps.enterRecovery {okA okB} (hs : Keeps s₀ s) : Keeps s₀ (Machine.enterRecovery okA okB s) :=
  .stateEvent (.recordM (.other (.foldl hs fun _ _ hs => .zeroLot hs)))

theorem Keeps.installImage {okA okB img} (hs : Keeps s₀ s) : Keeps s₀ (Machine.installImage okA okB img s) :=
  .whenNot (.other (.ite (.whenNot (.other hs) fun hs => .recordM hs)
    (.recordM (.whenNot (.other hs) fun hs => .recordM hs)))) fun hs => .cad hs

theorem Keeps.bootJournal {p} (hs : Keeps s₀ s) : Keeps s₀ (Machine.bootJournal p s) :=
  .foldl hs fun _ _ hs => .applyCommit hs

theorem Keeps.bootParcel {p} (hs : Keeps s₀ s) : Keeps s₀ (Machine.bootParcel p s) :=
  .when (.bootJournal (.powerGrans hs)) fun hs => .beginSlice hs

theorem Keeps.bootCadastre {b} (hs : Keeps s₀ s) : Keeps s₀ (Machine.bootCadastre b s) :=
  .ite (.other hs) (by
    dsimp only
    split
    · exact .foldl (.installImage hs) fun _ _ hs => .bootParcel hs
    · exact .enterRecovery hs)

theorem Keeps.bootReady {b} (hs : Keeps s₀ s) : Keeps s₀ (Machine.bootReady b s) :=
  .other (.bootStep (.foldl (.bootCadastre (.bootStep hs)) fun _ _ hs => .portTo hs))

theorem Keeps.bootEnd {b cores} (hs : Keeps s₀ s) : Keeps s₀ (Machine.bootEnd b cores s) := .bootReady (.bootFence hs)

theorem Keeps.bootWait {stage} (hs : Keeps s₀ s) : Keeps s₀ (Machine.bootWait stage s) := .other hs

theorem Keeps.bootFrom4 {b} (hs : Keeps s₀ s) : Keeps s₀ (Machine.bootFrom4 b s) :=
  .ite (.bootEnd hs) (.ite (.bootWait hs) (.ite (.bootStop (.bootTest hs)) (.bootEnd (.bootTest hs))))

theorem Keeps.bootFrom3 {b} (hs : Keeps s₀ s) : Keeps s₀ (Machine.bootFrom3 b s) :=
  .ite (.bootWait hs) (.bootFrom4 (.bootHbm hs))

theorem Answers.execColdBoot {b} (hs : Keeps s₀ s) : Answers s₀ (Machine.execColdBoot b s) := .ite (.next hs) (by
    split
    · exact .fin (.bootStop (.bootStep hs))
    · exact .fin (.bootFrom3 (.bootVerify hs)))

theorem Answers.execBootHbmStep {b} (hs : Keeps s₀ s) : Answers s₀ (Machine.execBootHbmStep b s) :=
  .ite (.next hs) (.fin (.bootFrom3 hs))

theorem Answers.execBootCoreSelfTest {b} (hs : Keeps s₀ s) : Answers s₀ (Machine.execBootCoreSelfTest b s) :=
  .ite (.next hs) (.fin (.bootFrom4 hs))

theorem Keeps.warmClear {kept} (hs : Keeps s₀ s) : Keeps s₀ (Machine.warmClear kept s) := .other hs

theorem Answers.execWarmReset {b} (hs : Keeps s₀ s) : Answers s₀ (Machine.execWarmReset b s) := .ite (.next hs) (by
    dsimp only
    split
    · exact .fin (.bootStop (.bootStep (.warmClear (.other hs))))
    · exact .fin (.bootFrom3 (.bootVerify (.warmClear hs))))

theorem Answers.execSensorUpdate (hs : Keeps s₀ s) : Answers s₀ (Machine.execSensorUpdate s) :=
  .ite (.next (.other hs)) (.next hs)

theorem Answers.execTelemetryWindowUpdate (hs : Keeps s₀ s) : Answers s₀ (Machine.execTelemetryWindowUpdate s) :=
  .ite (.next (.other hs)) (.next hs)

theorem Keeps.sideFree {kind msg} (hs : Keeps s₀ s) : Keeps s₀ (Machine.sideFree kind msg s).2 := .mk2 (.draw hs)

theorem Keeps.pldmOut {msg cc body} (hs : Keeps s₀ s) : Keeps s₀ (Machine.pldmOut msg cc body s) := .other hs

theorem Keeps.pldmBase {msg} (hs : Keeps s₀ s) : Keeps s₀ (Machine.pldmBase msg s) := by
  unfold Machine.pldmBase
  dsimp only
  split
  · exact .pldmOut (.other hs)
  · exact .pldmOut hs
  · exact .pldmOut (.sideFree hs)
  · exact .pldmOut (.sideFree hs)
  · exact .pldmOut hs
  · exact .pldmOut hs

theorem Keeps.pldmPlatform {msg} (hs : Keeps s₀ s) : Keeps s₀ (Machine.pldmPlatform msg s) := by
  unfold Machine.pldmPlatform
  dsimp only
  split
  · split
    · exact .pldmOut (.sideFree hs)
    · exact .pldmOut hs
  · split
    · exact .pldmOut (.sideFree hs)
    · exact .pldmOut hs
  · exact .pldmOut (.sideFree hs)
  · exact .pldmOut (.sideFree hs)
  · exact .pldmOut (.sideFree hs)
  · exact .pldmOut (.sideFree hs)
  · exact .pldmOut (.sideFree hs)
  · exact .pldmOut hs

theorem Answers.execPldmRequest {msg} (hs : Keeps s₀ s) : Answers s₀ (Machine.execPldmRequest msg s) :=
  .ite (.next hs) (by
    split
    · exact .next (.pldmBase hs)
    · exact .next (.pldmPlatform hs)
    · exact .next (.pldmOut hs))

theorem Keeps.mctpOut {msg cc body} (hs : Keeps s₀ s) : Keeps s₀ (Machine.mctpOut msg cc body s) := .other hs

theorem Answers.execMctpControl {msg} (hs : Keeps s₀ s) : Answers s₀ (Machine.execMctpControl msg s) :=
  .ite (.next hs) (by
    dsimp only
    split
    · exact .ite (.fin (.mctpOut (.endBmcSession (.other hs)))) (.next (.mctpOut (.other hs)))
    · exact .next (.mctpOut hs)
    · exact .next (.mctpOut (.sideFree hs))
    · exact .next (.mctpOut (.sideFree hs))
    · exact .next (.mctpOut hs)
    · exact .next (.mctpOut hs))

theorem Keeps.nextElem {p i r} (hs : Keeps s₀ s) : Keeps s₀ (Machine.nextElem p i r s) := .modRun hs

theorem Answers.upCmd {op p f} (hs : Keeps s₀ s) : Answers s₀ (Machine.upCmd op p f s) := by
  unfold Machine.upCmd
  dsimp only
  split
  · exact .next hs
  · exact .ite (.next hs) (.ite (.next (.nextElem hs))
      (.next (.when (.modRun (.addExcItem hs)) fun hs => .nextElem hs)))

end Sys2Proof.Machine
end

section
/-! The commands: each answers a next state and keeps the queue. -/

namespace Sys2Proof.Machine

variable {s₀ s : State}

theorem Answers.execGetDigests {r} (hs : Keeps s₀ s) : Answers s₀ (Machine.execGetDigests r s) := by
  unfold Machine.execGetDigests
  exact .spdmRow hs fun _ hs => .spdmOut hs

theorem Answers.execKeyUpdate {r} (hs : Keeps s₀ s) : Answers s₀ (Machine.execKeyUpdate r s) :=
  .spdmRow hs fun _ hs => .inSession hs fun _ _ hs => .ite (.spdmError hs) (.spdmOut (.whenNot hs fun hs => .setSpdm hs))

theorem Answers.execHeartbeat {r} (hs : Keeps s₀ s) : Answers s₀ (Machine.execHeartbeat r s) :=
  .spdmRow hs fun _ hs => .inSession hs fun _ _ hs => .spdmOut hs

theorem Answers.execEndSession {r} (hs : Keeps s₀ s) : Answers s₀ (Machine.execEndSession r s) :=
  .spdmRow hs fun _ hs => .inSession hs fun _ _ hs => .spdmOut (.endSpdm hs)

/-- Every command answers a next state that has the queue it was given. -/
theorem exec_answers (c : Instr) (s : State) : Answers s (exec c s) := by
  have hs : Keeps s s := .refl s
  cases c with
  | frameTick => exact .execFrameTick hs
  | frameBoundaryChangeApply => exact .execFrameBoundaryChangeApply hs
  | segmentStart => exact .execSegmentStart hs
  | sequencerFillStart => exact .execSequencerFillStart hs
  | sequencerFillComplete => exact .execSequencerFillComplete hs
  | holdResume => exact .execHoldResume hs
  | holdBoundExceeded => exact .withLate hs fun _ hs => .boundRow hs
  | mmNop | mmPass | mmLds | mmMode | mmWake | mmRest | vxNop | vxAdd | vxSub | vxMul | vxFma | vxMin | vxMax
  | vxMov | vxAbs | vxNeg | vxMovi | vxCmp | vxGsum | vxGmax | vxGmin | vxExp2 | vxLog2 | vxRcp | vxRsqrt
  | vxSqrt | vxTanh | vxSigm | vxCvt | vxQmx | vxDqmx | vxMand | vxMor | vxMxor | vxMnot | vxMfirst | vxLd
  | vxSt | stNop | stArm | stStash | stUnstash | spMov | spFill | spGate | spUngate => exact .slotCmd hs
  | gateGrant => exact .execGateGrant hs
  | ctStep | ctBlk | ctSeta | ctAdda => exact .ctlCmd hs
  | ctEnd => exact .slotRow hs fun _ hs => .endRun hs
  | descriptorLanded => exact .withLate hs fun _ hs => .landRow hs
  | streamDeadlock => exact .withLate hs fun _ hs => .deadlockRow hs
  | hbmReadComplete => exact .execHbmReadComplete hs
  | hbmWriteComplete => exact .withLate hs fun _ hs => .writeRow hs
  | stackFatalError => exact .execStackFatalError hs
  | foldApply => exact .execFoldApply hs
  | retrainWindow => exact .execRetrainWindow hs
  | tempSample => exact .execTempSample hs
  | powerSample => exact .execPowerSample hs
  | thermalHoldEnter => exact .execThermalHoldEnter hs
  | thermalHoldExit => exact .execThermalHoldExit hs
  | itemAdmit => exact .execItemAdmit hs
  | itemReissue => exact .execItemReissue hs
  | updateGroupTakeUp => exact .execUpdateGroupTakeUp hs
  | updatePass2Start => exact .execUpdatePass2Start hs
  | updatePass2Complete => exact .execUpdatePass2Complete hs
  | sealWaitExpiry => exact .execSealWaitExpiry hs
  | sealCommitApply => exact .execSealCommitApply hs
  | inDoubtQuery => exact .execInDoubtQuery hs
  | upAdd | upSub | upMul | upFma | upDiv | upSqrt | upRsqrt | upMin | upMax | upAbs | upNeg | upSign | upSel
  | upExp2 | upLog2 | upEnd => exact .upCmd hs
  | collectiveBegin => exact .execCollectiveBegin hs
  | sliceExpiry => exact .execSliceExpiry hs
  | sliceEnd => exact .execSliceEnd hs
  | tenancyRestore => exact .execTenancyRestore hs
  | heldCommandPerform => exact .execHeldCommandPerform hs
  | reservePromotion => exact .execReservePromotion hs
  | parcelSealApply => exact .execParcelSealApply hs
  | maintDrainEffect => exact .execMaintDrainEffect hs
  | parcelCreateDone => exact .execParcelCreateDone hs
  | parcelResetDone => exact .execParcelResetDone hs
  | parcelReleaseDone => exact .execParcelReleaseDone hs
  | sealedDelivery => exact .execSealedDelivery hs
  | hello => exact .zRow hs fun _ _ _ _ _ hs => .cmdHello hs
  | capsGet => exact .zRow hs fun _ _ _ _ _ hs => .cmdCapsGet hs
  | parcelCreateNew => exact .zRow hs fun _ _ _ _ _ hs => .cmdParcelCreateNew hs
  | parcelCreateRestore => exact .zRow hs fun _ _ _ _ _ hs => .cmdParcelCreateRestore hs
  | parcelCreateRestoreDone => exact .zRow hs fun _ _ _ _ _ hs => .cmdParcelCreateRestoreDone hs
  | parcelDestroyReset => exact .zRow hs fun _ _ _ _ _ hs => .cmdParcelDestroyReset hs
  | parcelDestroyRelease => exact .zRow hs fun _ _ _ _ _ hs => .cmdParcelDestroyRelease hs
  | parcelSeal => exact .zRow hs fun _ _ _ _ _ hs => .cmdParcelSeal hs
  | parcelQuery => exact .zRow hs fun _ _ _ _ _ hs => .cmdParcelQuery hs
  | tenancySetWrite => exact .zRow hs fun _ _ _ _ _ hs => .cmdTenancySetWrite hs
  | tenancySetDeactivate => exact .zRow hs fun _ _ _ _ _ hs => .cmdTenancySetDeactivate hs
  | planLoad => exact .zRow hs fun _ _ _ _ _ hs => .cmdPlanLoad hs
  | planUnload => exact .zRow hs fun _ _ _ _ _ hs => .cmdPlanUnload hs
  | weightsLoad => exact .zRow hs fun _ _ _ _ _ hs => .cmdWeightsLoad hs
  | weightsLoadWrapped => exact .zRow hs fun _ _ _ _ _ hs => .cmdWeightsLoadWrapped hs
  | tensorWrite => exact .zRow hs fun _ _ _ _ _ hs => .cmdTensorWrite hs
  | tensorRead => exact .zRow hs fun _ _ _ _ _ hs => .cmdTensorRead hs
  | ringSetupEnable => exact .zRow hs fun _ _ _ _ _ hs => .cmdRingSetupEnable hs
  | ringSetupDisable => exact .zRow hs fun _ _ _ _ _ hs => .cmdRingSetupDisable hs
  | itemSubmit => exact .zRow hs fun _ _ _ _ _ hs => .cmdItemSubmit hs
  | groupSetWriteGroup => exact .zRow hs fun _ _ _ _ _ hs => .cmdGroupSetWriteGroup hs
  | groupSetReadGroup => exact .zRow hs fun _ _ _ _ _ hs => .cmdGroupSetReadGroup hs
  | groupSetWriteProgram => exact .zRow hs fun _ _ _ _ _ hs => .cmdGroupSetWriteProgram hs
  | groupSetReadProgram => exact .zRow hs fun _ _ _ _ _ hs => .cmdGroupSetReadProgram hs
  | stepCommitUpdate => exact .zRow hs fun _ _ _ _ _ hs => .cmdStepCommitUpdate hs
  | stepCommitResolveAbort => exact .zRow hs fun _ _ _ _ _ hs => .cmdStepCommitResolveAbort hs
  | stepCommitClearHold => exact .zRow hs fun _ _ _ _ _ hs => .cmdStepCommitClearHold hs
  | deedGetParcel => exact .zRow hs fun _ _ _ _ _ hs => .cmdDeedGetParcel hs
  | deedGetPackage => exact .zRow hs fun _ _ _ _ _ hs => .cmdDeedGetPackage hs
  | surveyRead => exact .zRow hs fun _ _ _ _ _ hs => .cmdSurveyRead hs
  | manifestOpAdd => exact .zRow hs fun _ _ _ _ _ hs => .cmdManifestOpAdd hs
  | manifestOpPause => exact .zRow hs fun _ _ _ _ _ hs => .cmdManifestOpPause hs
  | manifestOpResume => exact .zRow hs fun _ _ _ _ _ hs => .cmdManifestOpResume hs
  | manifestOpRemove => exact .zRow hs fun _ _ _ _ _ hs => .cmdManifestOpRemove hs
  | manifestOpRead => exact .zRow hs fun _ _ _ _ _ hs => .cmdManifestOpRead hs
  | manifestOpRegister => exact .zRow hs fun _ _ _ _ _ hs => .cmdManifestOpRegister hs
  | manifestOpUnregister => exact .zRow hs fun _ _ _ _ _ hs => .cmdManifestOpUnregister hs
  | telemetryGet => exact .zRow hs fun _ _ _ _ _ hs => .cmdTelemetryGet hs
  | periodSet => exact .zRow hs fun _ _ _ _ _ hs => .cmdPeriodSet hs
  | maintDrainBegin => exact .zRow hs fun _ _ _ _ _ hs => .cmdMaintDrainBegin hs
  | maintDrainEnd => exact .zRow hs fun _ _ _ _ _ hs => .cmdMaintDrainEnd hs
  | hbmRepairList => exact .zRow hs fun _ _ _ _ _ hs => .cmdHbmRepairList hs
  | hbmRepairRow => exact .zRow hs fun _ _ _ _ _ hs => .cmdHbmRepairRow hs
  | hbmRepairLane => exact .zRow hs fun _ _ _ _ _ hs => .cmdHbmRepairLane hs
  | hbmMargin => exact .zRow hs fun _ _ _ _ _ hs => .cmdHbmMargin hs
  | fenceQuery => exact .zRow hs fun _ _ _ _ _ hs => .cmdFenceQuery hs
  | reservePromote => exact .zRow hs fun _ _ _ _ _ hs => .cmdReservePromote hs
  | eventRead => exact .zRow hs fun _ _ _ _ _ hs => .cmdEventRead hs
  | fwStage => exact .zRow hs fun _ _ _ _ _ hs => .cmdFwStage hs
  | fwActivate => exact .zRow hs fun _ _ _ _ _ hs => .cmdFwActivate hs
  | linkQuery => exact .zRow hs fun _ _ _ _ _ hs => .cmdLinkQuery hs
  | linkConfigCourier => exact .zRow hs fun _ _ _ _ _ hs => .cmdLinkConfigCourier hs
  | linkConfig8023 => exact .zRow hs fun _ _ _ _ _ hs => .cmdLinkConfig8023 hs
  | linkConfigDisable => exact .zRow hs fun _ _ _ _ _ hs => .cmdLinkConfigDisable hs
  | fedForm => exact .zRow hs fun _ _ _ _ _ hs => .cmdFedForm hs
  | fedJoin => exact .execFedJoin hs
  | fedLeave => exact .zRow hs fun _ _ _ _ _ hs => .cmdFedLeave hs
  | routeSet => exact .zRow hs fun _ _ _ _ _ hs => .cmdRouteSet hs
  | memberRestore => exact .zRow hs fun _ _ _ _ _ hs => .cmdMemberRestore hs
  | channelSet => exact .zRow hs fun _ _ _ _ _ hs => .cmdChannelSet hs
  | channelFree => exact .zRow hs fun _ _ _ _ _ hs => .cmdChannelFree hs
  | channelQuery => exact .zRow hs fun _ _ _ _ _ hs => .cmdChannelQuery hs
  | collectiveSubmit => exact .zRow hs fun _ _ _ _ _ hs => .cmdCollectiveSubmit hs
  | getVersion => exact .execGetVersion hs
  | getCapabilities => exact .execGetCapabilities hs
  | negotiateAlgorithms => exact .execNegotiateAlgorithms hs
  | getDigests => exact .execGetDigests hs
  | getCertificate => exact .execGetCertificate hs
  | challenge => exact .execChallenge hs
  | getMeasurements => exact .execGetMeasurements hs
  | keyExchange => exact .execKeyExchange hs
  | finish => exact .execFinish hs
  | keyUpdate => exact .execKeyUpdate hs
  | heartbeat => exact .execHeartbeat hs
  | endSession => exact .execEndSession hs
  | keySet => exact .execKeySet hs
  | keyClear => exact .execKeyClear hs
  | signerSet => exact .execSignerSet hs
  | deedParcel => exact .execDeedParcel hs
  | deedPackage => exact .execDeedPackage hs
  | stopInterface => exact .execStopInterface hs
  | pldmRequest => exact .execPldmRequest hs
  | mctpControl => exact .execMctpControl hs
  | sensorUpdate => exact .execSensorUpdate hs
  | telemetryWindowUpdate => exact .execTelemetryWindowUpdate hs
  | mbxDoorbellInline => exact .regRow hs fun _ hs => .wrDoorbell hs
  | reqTailWrite => exact .regRow hs fun _ hs => .wrReqTail hs
  | envTailWrite => exact .regRow hs fun _ hs => .wrEnvTail hs
  | cplHeadWrite => exact .regRow hs fun _ hs => .wrCplHead hs
  | dlrHeadWrite => exact .regRow hs fun _ hs => .wrDlrHead hs
  | mbxCtrlWrite => exact .regRow hs fun _ hs => .wrCtrl hs
  | mbxIrqStatusWrite => exact .regRow hs fun _ hs => .wrIrqStatus hs
  | mbxIrqMaskWrite => exact .regRow hs fun _ hs => .wrIrqMask hs
  | evlogHeadWrite => exact .execEvlogHeadWrite hs
  | registerWrite => exact .execRegisterWrite hs
  | bar2Read => exact .execBar2Read hs
  | bar2Write => exact .execBar2Write hs
  | atsInvalidate => exact .execAtsInvalidate hs
  | flrPf => exact .execFlrPf hs
  | flrVf => exact .execFlrVf hs
  | perstAssert => exact .execPerstAssert hs
  | hotReset => exact .execHotReset hs
  | perstDeassert => exact .execPerstDeassert hs
  | configReady => exact .execConfigReady hs
  | powerOn => exact .execPowerOn hs
  | undervoltage => exact .execUndervoltage hs
  | overvoltage => exact .execOvervoltage hs
  | powerOverdraw => exact .execPowerOverdraw hs
  | modResetL => exact .execModResetL hs
  | coldBoot => exact .execColdBoot hs
  | bootHbmStep => exact .execBootHbmStep hs
  | bootCoreSelfTest => exact .execBootCoreSelfTest hs
  | refclkLoss => exact .execRefclkLoss hs
  | refclkReturn => exact .execRefclkReturn hs
  | quadPortFail => exact .execQuadPortFail hs
  | dieLost => exact .execDieLost hs
  | edgeFail => exact .execEdgeFail hs
  | laneFail => exact .execLaneFail hs
  | portDown => exact .execPortDown hs
  | portRetrain => exact .execPortRetrain hs
  | courierFrameForward => exact .execCourierFrameForward hs
  | data => exact .execData hs
  | credit => exact .execCredit hs
  | reset => exact .execReset hs
  | abort => exact .execAbort hs
  | skew => exact .execSkew hs
  | hold => exact .execHold hs
  | tick => exact .execTick hs
  | vote | decision | query => exact .groupFrame hs
  | answer => exact .execAnswer hs
  | norm => exact .execNorm hs
  | tally => exact .execTally hs
  | holdSend => exact .execHoldSend hs
  | peerLost => exact .execPeerLost hs
  | tickLost => exact .execTickLost hs
  | alignedRestore => exact .execAlignedRestore hs
  | granuleService => exact .withLate hs fun _ hs => .granRow hs
  | updatePass1Complete => exact .execUpdatePass1Complete hs
  | portUp => exact .execPortUp hs
  | flit => exact .execFlit hs
  | hubLinkLost => exact .execHubLinkLost hs
  | lockInterface => exact .execLockInterface hs
  | startInterface => exact .execStartInterface hs
  | ideKm => exact .execIdeKm hs
  | configurationWrite => exact .execConfigurationWrite hs
  | modResetLDeassert => exact .execModResetLDeassert hs
  | warmReset => exact .execWarmReset hs
  | debugToken token => exact .execDebugToken token hs

/-- A state's queue is its own, so a step with a queue of c and the rest performs c on the state with that rest. -/
theorem step_cons (c : Instr) (s : State) : step { s with pending := c :: s.pending } = exec c s := rfl

theorem step_nil {s : State} (empty : s.pending = []) : step s = .next s := by
  rw [step, empty]

end Sys2Proof.Machine

open Sys2Proof Sys2Proof.Machine

/-- Settles O1: `step_cons` and `step_nil`. -/
theorem stepPerformsTheFrontCommand : Obligations.StepPerformsTheFrontCommand := by
  unfold Obligations.StepPerformsTheFrontCommand
  exact ⟨step_cons, fun _ => step_nil⟩

/-- Settles O2: each command ends in `fin` of a state or in a state of its own, by `exec_answers`. -/
theorem everyCommandAnswersANextState : Obligations.EveryCommandAnswersANextState := by
  unfold Obligations.EveryCommandAnswersANextState
  intro c s
  obtain ⟨t, answer, -⟩ := exec_answers c s
  exact ⟨t, answer⟩

/-- Settles O3: no function that a command calls writes the queue, by `exec_answers`. -/
theorem commandsLeaveTheQueue : Obligations.CommandsLeaveTheQueue := by
  unfold Obligations.CommandsLeaveTheQueue
  intro c s t step
  obtain ⟨u, answer, keeps⟩ := exec_answers c s
  obtain rfl := Host.Outcome.next.inj (answer.symm.trans step)
  exact keeps.queue

end

section
/-! SUPPORT. A vector instruction whatever it counts, and the lanes that it writes (R191 to R198, R204). -/

namespace Sys2Proof.Machine

open Sys2Proof.Claims

/-! What the counting of exceptions can do (R86, R556). -/

theorem RecordsOnly.core {s t : State} (h : RecordsOnly s t) (k : Nat) : t.core k = s.core k := by
  unfold State.core
  rw [h.eqs.2.2.2.2.2.1]

theorem besideCore_records {k : Nat} {s t u : State} (beside : besideCore k s t) (h : RecordsOnly t u) :
    besideCore k s u := by
  unfold RecordsOnly at h
  generalize u.blocks = x at h; generalize u.outputs = y at h; generalize u.delayed = z at h
  generalize u.pcie = w at h; generalize u.pfLog = m at h; generalize u.bmcLog = n at h; generalize u.parcels = v at h
  subst h
  exact beside

/-- Nothing differs but the logs and interrupts that count events, and the items and tenancies of parcels. -/
structure CountsOnly (s t : State) : Prop where
  records : RecordsOnly s t
  bare : ∀ p, bare (t.parcel p) = bare (s.parcel p)

namespace CountsOnly

theorem refl (s : State) : CountsOnly s s := ⟨.refl s, fun _ => rfl⟩

theorem trans {s t u : State} (a : CountsOnly s t) (b : CountsOnly t u) : CountsOnly s u :=
  ⟨a.records.trans b.records, fun p => (b.bare p).trans (a.bare p)⟩

theorem foldl {α : Type} {f : State → α → State} (h : ∀ s a, CountsOnly s (f s a)) (l : List α) (s : State) :
    CountsOnly s (l.foldl f s) := by
  induction l generalizing s with
  | nil => exact .refl s
  | cons a r ih => exact (h s a).trans (ih _)

theorem of_parcels {s t : State} (records : RecordsOnly s t) (same : t.parcels = s.parcels) : CountsOnly s t :=
  ⟨records, fun p => by rw [State.parcel, same, ← State.parcel]⟩

theorem of_signals {s t : State} (h : SignalsOnly s t) : CountsOnly s t := .of_parcels h.records (by have := h.eqs; tauto)

/-- A parcel that differs in its items and tenancies alone. -/
theorem modParcel {s : State} {p : Nat} {f : Parcel → Parcel} (same : ∀ x, Claims.bare (f x) = Claims.bare x) :
    CountsOnly s (s.modParcel p f) := by
  refine ⟨rfl, fun q => ?_⟩
  unfold State.modParcel
  by_cases own : q = p
  · rw [own, State.setParcel_parcel_same, same]
  · rw [State.setParcel_parcel_other _ _ _ _ own]

theorem modItem (s : State) (p seq : Nat) (f : Item → Item) : CountsOnly s (s.modItem p seq f) := modParcel fun _ => rfl

theorem modTen (s : State) (p t : Nat) (f : Tenancy → Tenancy) : CountsOnly s (s.modTen p t f) := modParcel fun _ => rfl

end CountsOnly

theorem logPf_counts (e : Event) (s : State) : CountsOnly s (logPf e s) := by
  refine .of_parcels (logPf_records e s) ?_
  unfold logPf
  dsimp only
  rw [(setIrq_signals _ _ _).eqs.2.2.2.2.2.2.2.2.2.2.1]
  split
  · rw [(msix_signals _ _ _).eqs.2.2.2.2.2.2.2.2.2.2.1]
  · rfl


theorem logTen_counts (p t : Nat) (e : Event) (s : State) : CountsOnly s (logTen p t e s) := by
  have logged := CountsOnly.modTen s p t fun x => { x with log := logAppend 512 { e with cycle := 0, flags := 1 } x.log }
  unfold logTen
  dsimp only
  split
  · exact logged
  · exact logged.trans (.of_signals (setIrq_signals _ _ _))

theorem recordNow_counts (kind p t seq len : Nat) (a b : List Byte) (s : State) :
    CountsOnly s (recordNow kind p t seq len a b s) := by
  have log := logPf_counts ⟨s.time.postmark, s.time.stamp, kind, p, t, len, 0, seq, a⟩ s
  have bmc (x : State) (l : EvLog) : CountsOnly x { x with bmcLog := l } := .of_parcels rfl rfl
  unfold recordNow
  dsimp only
  split
  · split
    · exact log.trans (bmc _ _)
    · exact log
  · split
    · exact (log.trans (bmc _ _)).trans (.foldl (fun s k => logTen_counts p k _ s) _ _)
    · exact log.trans (.foldl (fun s k => logTen_counts p k _ s) _ _)

theorem satLogs_counts (ps : List Nat) (n : Nat) (old s : State) : CountsOnly s (satLogs ps n old s) := by
  induction n generalizing old s with
  | zero => exact .refl s
  | succ n ih =>
    unfold satLogs
    dsimp only
    split
    · exact .refl s
    · exact (CountsOnly.foldl (fun s x => recordNow_counts _ _ _ _ _ _ _ s) _ _).trans (ih _ _)

theorem recordP_counts (kind p t seq len : Nat) (a b : List Byte) (s : State) :
    CountsOnly s (recordP kind p t seq len a b s) :=
  (recordNow_counts kind p t seq len a b s).trans (satLogs_counts _ _ _ _)

/-- R86, R556: exceptions change the counters of the item that a core runs, and what records their saturation. -/
theorem excOn_counts (k : Nat) (x : ExcCount) (s : State) : CountsOnly s (excOn k x s) := by
  unfold excOn addExcItem
  split
  · split
    · exact .refl s
    · exact (CountsOnly.modItem _ _ _ _).trans (.foldl (fun s n => recordP_counts _ _ _ _ _ _ _ s) _ _)
  · exact .refl s

/-! A vector instruction that its core takes (R193). -/

/-- R193: a vector instruction that its core takes leaves its writes due, and nothing else but what its exceptions count. -/
theorem vecCmd_takes {cmd : Instr} {e : CoreEnv} {op : VOp} {f : VecF} {s : State}
    (row : exec cmd s = slotCmd e (some (.vec op f)) s) (taken : takes e (.vec op f) s = true) :
    ∃ t, exec cmd s = .next t ∧ besideCore e.core s t ∧ (∀ p, bare (t.parcel p) = bare (s.parcel p)) ∧
      t.core e.core = vecDone e op f s := by
  have beside := besideCore_setCore (besideCore_joinedStart e (.vec op f) s) (vecDone e op f s)
  have counts := excOn_counts e.core (vecOp (s.core e.core) op f).exc
    ((joinedStart e (.vec op f) s).setCore e.core (vecDone e op f s))
  refine ⟨_, row.trans (slotCmd_vec taken), besideCore_records beside counts.records, fun p => ?_, ?_⟩
  · rw [counts.bare, State.setCore_parcel, joinedStart_parcel]
  · rw [counts.records.core, State.setCore_core_same]

/-- R193: a vector instruction that steps no generator leaves its writes due at the end of plan cycle T + latency − 1. -/
theorem writesDue_vecOp {cmd : Instr} {e : CoreEnv} {op : VOp} {f : VecF} {s : State}
    (row : exec cmd s = slotCmd e (some (.vec op f)) s) (still : (vecOp (s.core e.core) op f).rng = none) :
    writesDue cmd e (.vec op f) (latency op) ((vecOp (s.core e.core) op f).writes.map dueOfWrite) s := by
  intro taken
  obtain ⟨t, run, beside, parcels, core⟩ := vecCmd_takes row taken
  refine ⟨t, run, beside, parcels, core.trans ?_⟩
  rw [vecDone, still, vecDue_eq_map]
  rfl

/-- R191, R198: each lane of a lane-by-lane write. -/
theorem lanesWritten_laneWise (c : Core) (f : VecF) (r : Nat → Nat × Exc) {res : Core → Nat → Nat}
    (results : ∀ i, i < lanes f.width → (r i).1 = res c i) :
    let p := packFields (laneBits f.width) (((List.range (lanes f.width)).map (maskedLane c f r)).map (·.1))
    lanesWritten f c res p.1 p.2 := by
  intro p i lane
  obtain ⟨mask, value⟩ := packFields_field (laneBits f.width)
    (((List.range (lanes f.width)).map (maskedLane c f r)).map (·.1)) i
  have field : ((((List.range (lanes f.width)).map (maskedLane c f r)).map (·.1)).getD i none) = (maskedLane c f r i).1 := by
    simp [List.getD_eq_getElem?_getD, lane]
  rw [field] at mask value
  unfold laneOf
  rw [mask, value]
  unfold maskedLane
  refine ⟨fun active => ?_, fun quiet zero => ?_, fun quiet zero => ?_⟩
  · rw [if_pos active]
    exact ⟨rfl, congrArg (· % _) (results i lane)⟩
  · simp [quiet, zero, writtenMask, writtenValue]
  · simp [quiet, zero, writtenMask]

/-- R193, R198: a vector instruction that works lane by lane. -/
theorem lanesDue_laneWise {cmd : Instr} {e : CoreEnv} {op : VOp} {f : VecF} {s : State} {res : Core → Nat → Nat}
    (r : Core → Nat → Nat × Exc) (row : exec cmd s = slotCmd e (some (.vec op f)) s)
    (out : ∀ c, (vecOp c op f).writes = (laneWise c f (r c)).writes) (still : (vecOp (s.core e.core) op f).rng = none)
    (results : ∀ i, i < lanes f.width → (r (s.core e.core) i).1 = res (s.core e.core) i) :
    lanesDue cmd e (.vec op f) f (latency op) res s := by
  have due := writesDue_vecOp row still
  rw [out] at due
  exact ⟨_, _, lanesWritten_laneWise (s.core e.core) f (r (s.core e.core)) results, due⟩

/-! An operation that reads no word of the scratchpad at its issue (R226). -/

theorem joined_of_noReads {e : CoreEnv} {op : SlotOp} {s : State} (noReads : readsOf (struck e s) op = []) : joined e op s =
    { struck e s with seq := { (struck e s).seq with bundle := (struck e s).seq.bundle ++ [op] } } := by
  have fixed : (struck e s).spFixed (List.contains []) = 0 := by
    unfold Core.spFixed
    rw [List.length_eq_zero_iff, List.filter_eq_nil_iff]
    intro u _
    split <;> simp
  simp only [joined, noReads, fixed, if_true]

/-- The core in which such an operation is performed. -/
theorem joinedStart_core_of_noReads {e : CoreEnv} {op : SlotOp} {s : State} (noReads : readsOf (struck e s) op = []) :
    (joinedStart e op s).core e.core = joined e op s := by
  rw [joinedStart_core, joined_of_noReads noReads]

@[simp] theorem strikeCore_parcels (e : CoreEnv) (s : State) : (strikeCore e s).parcels = s.parcels := by
  unfold strikeCore
  split <;> rfl

@[simp] theorem joinedStart_parcels (e : CoreEnv) (op : SlotOp) (s : State) : (joinedStart e op s).parcels = s.parcels :=
  strikeCore_parcels e s

/-- An operation that only adds to its core what comes of it. -/
theorem leaves_of_modCore {cmd : Instr} {e : CoreEnv} {op : SlotOp} {s : State} {f : Core → Core}
    (row : exec cmd s = slotCmd e (some op) s) (taken : takes e op s = true) (noReads : readsOf (struck e s) op = [])
    (performs : ∀ u : State, u.core e.core = joined e op s → performOp e.core op u = u.modCore e.core f) :
    leaves cmd e (f (joined e op s)) s := by
  have core := joinedStart_core_of_noReads noReads
  refine ⟨(joinedStart e op s).setCore e.core (f (joined e op s)), ?_, State.setCore_core_same _ _ _,
    besideCore_setCore (besideCore_joinedStart e op s) _, joinedStart_parcels e op s⟩
  rw [row, slotCmd_takes taken, performs _ core, State.modCore, core]

/-! The immediate of VX_MOVI (R202). -/

theorem movi_lane (imm : Word) (width i : Nat) : laneOf (imm.toNat * (1 + 2 ^ 32)) width (i % 2) =
    if width = 0 then imm.toNat else imm.toNat / 2 ^ (16 * (i % 2)) % 2 ^ 16 := by
  have small := imm.isLt
  generalize imm.toNat = n at small
  have high : n * (1 + 2 ^ 32) / 2 ^ 32 = n := by omega
  have middle : n * (1 + 2 ^ 32) / 2 ^ 16 = n / 2 ^ 16 + 2 ^ 16 * n := by omega
  have parity : i % 2 = 0 ∨ i % 2 = 1 := by omega
  unfold laneOf laneBits
  by_cases narrow : width = 0
  · rcases parity with half | half <;> simp only [narrow, half, beq_self_eq_true, if_true, Nat.mul_zero, Nat.mul_one, high] <;>
      omega
  · rcases parity with half | half <;>
      simp only [narrow, half, beq_iff_eq, if_false, Nat.mul_zero, Nat.mul_one, middle] <;> omega

theorem lanesDue_movi (e : CoreEnv) (f : VecF) (imm : Word) (s : State) :
    lanesDue (.vxMovi e f imm) e (.movi f imm) f 2
      (fun _ i => if f.width = 0 then imm.toNat else imm.toNat / 2 ^ (16 * (i % 2)) % 2 ^ 16) s := by
  refine ⟨_, _, lanesWritten_laneWise (s.core e.core) f (fun i => (laneOf (imm.toNat * (1 + 2 ^ 32)) f.width (i % 2), .none))
    fun i _ => movi_lane imm f.width i, fun taken => ?_⟩
  obtain ⟨t, run, core, beside, parcels⟩ := leaves_of_modCore (cmd := .vxMovi e f imm) (f := moviIssue f imm) rfl taken rfl fun _ _ => rfl
  refine ⟨t, run, beside, fun p => by rw [State.parcel, parcels, ← State.parcel], core.trans ?_⟩
  rw [joined_of_noReads rfl, struck_eq]
  rfl

/-! The functions (R205). -/

theorem transLane_fst (width : Nat) (t : Nat → Nat × Exc) (x : Nat) : (transLane width t x).1 =
    if width = 0 then (t x).1
    else (finish fmtBF16 (exact (f32 (t (to32 (exact (decodeF fmtBF16 x)))).1))).1 := by
  unfold transLane
  by_cases wide : width = 0 <;> simp [wide]

/-! Group reductions (R204). -/

/-- R204: the result of the group of lane i. -/
def groupResult (op : VOp) (f : VecF) (g : Nat) (c : Core) (i : Nat) : Nat :=
  ((treeFold (gNode op) none 8 ((List.range g).map fun j => gLane c f (op == .gsum) (g * (i / g) + j))).getD (0, .none)).1

/-- R204: lane i of a group reduction takes the result of the group that it belongs to. -/
theorem lanesDue_group {cmd : Instr} {e : CoreEnv} {op : VOp} {f : VecF} {s : State} {g : Nat}
    (row : exec cmd s = slotCmd e (some (.vec op f)) s) (out : ∀ c, vecOp c op f = groupOp c f op) (wide : f.width = 0)
    (size : g = if f.gs = 0 then 32 else 16) :
    lanesDue cmd e (.vec op f) f (latency op) (groupResult op f g) s := by
  have size' : (if (f.gs == 0) = true then 32 else 16) = g := by simp [size]
  have groups : 128 / g * g = 128 := by
    subst size
    split <;> rfl
  refine lanesDue_laneWise _ row (fun c => by rw [out, groupOp]) (by rw [out, groupOp]; rfl) fun i lane => ?_
  have group : i / g < 128 / g := by
    rw [lanes, wide] at lane
    exact Nat.div_lt_of_lt_mul (by rw [Nat.mul_comm, groups]; exact lane)
  simp only [size', nth, List.getD_eq_getElem?_getD, List.getElem?_map, List.getElem?_range group, Option.map_some,
    Option.getD_some, groupResult]

/-! Conversions (R78, R208). -/

/-- R78: the generators of the converted lanes step once where SR is set. -/
theorem cvt_rng (c : Core) (f : VecF) : (vecOp c .cvt f).rng.getD c.rng =
    if f.sr then c.rng.mapIdx (fun i w => if i < lanes f.width && laneActive c f i then rngStep w else w) else c.rng := by
  simp only [vecOp, cvtOp]
  split <;> rfl

/-- R208: the writes of a block quantization. -/
theorem qmx_writes (c : Core) (f : VecF) : (vecOp c .qmx f).writes.map dueOfWrite =
    (let w := if f.tf = 8 then 4 else 8
     let blocks := (List.range 4).map (fun k =>
       quantBlock (cvtFmt f.tf) ((List.range 32).map (fun i => f32 (opA c f (32 * k + i)))))
     let el := packFields w ((blocks.flatMap (·.2.1)).map some)
     let sc := packFields 8 (blocks.map (fun b => some b.1))
     [.vreg f.vd (el.1 * 2 ^ (128 * w * f.part)) (el.2 * 2 ^ (128 * w * f.part)),
      .vreg f.vb (sc.1 * 2 ^ (32 * f.spos)) (sc.2 * 2 ^ (32 * f.spos))]) := by
  simp only [vecOp, qmxOp, beq_iff_eq]
  rfl

end Sys2Proof.Machine

open Sys2Proof Sys2Proof.Machine Sys2Proof.Claims

/-- Settles O7: each instruction writes VD lane by lane; the immediate is cut to the lanes' width, and a function of a BF16
lane is computed between two roundings. -/
theorem vectorLanesComplete : Obligations.VectorLanesComplete := by
  unfold Obligations.VectorLanesComplete
  refine ⟨fun e f s => ⟨?_, ?_, ?_, ?_, ?_, ?_⟩, fun e f s => ⟨?_, ?_, ?_, fun imm => lanesDue_movi e f imm s⟩,
    fun e f s => ⟨?_, ?_, ?_, ?_, ?_, ?_, ?_⟩⟩
  iterate 9 exact lanesDue_laneWise _ rfl (fun _ => rfl) rfl fun _ _ => rfl
  iterate 7 exact lanesDue_laneWise _ rfl (fun _ => rfl) rfl fun _ _ => transLane_fst _ _ _

/-- Settles O9: the result of lane i is that of the tree over the group of i. -/
theorem vectorReductionsComplete : Obligations.VectorReductionsComplete := by
  unfold Obligations.VectorReductionsComplete
  rintro e f s wide g size
  exact ⟨lanesDue_group rfl (fun _ => rfl) wide size, lanesDue_group rfl (fun _ => rfl) wide size,
    lanesDue_group rfl (fun _ => rfl) wide size⟩

/-- Settles O10: a conversion's writes and generators are those of `cvtOp`; a dequantization works lane by lane; a block
quantization leaves its two writes. -/
theorem vectorConversionsComplete : Obligations.VectorConversionsComplete := by
  unfold Obligations.VectorConversionsComplete
  refine fun e f s => ⟨fun taken => ?cvt, fun _ => ?dqmx, ?qmx⟩
  case cvt =>
    obtain ⟨t, run, beside, parcels, core⟩ := vecCmd_takes (cmd := .vxCvt e f) rfl taken
    refine ⟨t, run, beside, parcels, core.trans ?_⟩
    have generators : (joined e (.vec .cvt f) s).rng = (s.core e.core).rng := by rw [joined_vec, struck_eq]
    rw [vecDone, generators, cvt_rng]
    rfl
  case dqmx =>
    exact lanesDue_laneWise _ rfl (fun _ => rfl) rfl fun _ _ => by simp only [beq_iff_eq]
  case qmx =>
    have due := writesDue_vecOp (cmd := .vxQmx e f) (e := e) (op := .qmx) (f := f) (s := s) rfl rfl
    rwa [qmx_writes] at due

end

section
/-! SUPPORT. The operations of the matrix slot, and slots without an operation (R102, R130, R140). -/

namespace Sys2Proof.Machine

open Sys2Proof.Claims

/-- R140: a slot without an operation: what struck the core, and its intra-frame cycle. -/
theorem slotCmd_none {e : CoreEnv} {s : State} (sound : issuesSound e s = true) :
    slotCmd e none s = .next (slotStart e s) := by
  simp only [issuesSound, Bool.and_eq_true, Option.isNone_iff_eq_none] at sound
  obtain ⟨issues, bundleSound⟩ := sound
  have quiet : reviveSlot e.core s = none := reviveSlot_issuing (issuing_struck e s ▸ issues)
  unfold slotCmd slotRow
  rw [quiet]
  unfold slotRun
  simp only [strikeCore_core, issues, struck_seq, bundleSound, Bool.not_true, Bool.false_eq_true, if_false]
  rfl

theorem leaves_none {cmd : Instr} {e : CoreEnv} {s : State} (row : exec cmd s = slotCmd e none s)
    (sound : issuesSound e s = true) : leaves cmd e (struck e s) s :=
  ⟨slotStart e s, row.trans (slotCmd_none sound), strikeCore_core e s, besideCore_atCycle (besideCore_strikeCore e s) _,
    strikeCore_parcels e s⟩

/-- Effects that fall due later. -/
theorem dues_of_addDue {cmd : Instr} {e : CoreEnv} {op : SlotOp} {s : State} {f : Core → Core} {new : List (Nat × Due)}
    (row : exec cmd s = slotCmd e (some op) s) (noReads : readsOf (struck e s) op = [])
    (performs : ∀ u : State, u.core e.core = joined e op s → performOp e.core op u = u.modCore e.core f)
    (adds : f (joined e op s) = addDue new (joined e op s)) : dues cmd e op new s := by
  intro taken
  have left := leaves_of_modCore row taken noReads performs
  have due : (joined e op s).due = (s.core e.core).due := by rw [joined_of_noReads noReads, struck_eq]
  rwa [adds, addDue, due] at left

/-- Effects that fall due in plan cycles counted from that of the issue. -/
theorem dues_of_plan {cmd : Instr} {e : CoreEnv} {op : SlotOp} {s : State} (new : Nat → List (Nat × Due))
    (row : exec cmd s = slotCmd e (some op) s) (noReads : readsOf (struck e s) op = [])
    (performs : ∀ u : State, performOp e.core op u = u.modCore e.core (addDue (new (u.core e.core).seq.plan))) :
    dues cmd e op (new (s.core e.core).seq.plan) s := by
  refine dues_of_addDue row noReads (fun u core => ?_) rfl
  have plan : (joined e op s).seq.plan = (s.core e.core).seq.plan := by rw [joined, struck_eq]
  rw [performs, core, plan]

/-- R102: a pass or load begins with the address registers of its issue. -/
theorem begins_of_startMat {cmd : Instr} {e : CoreEnv} {op : SlotOp} {s : State} {isPass : Bool} {f : MatF}
    (row : exec cmd s = slotCmd e (some op) s) (noReads : readsOf (struck e s) op = [])
    (performs : ∀ u : State, u.core e.core = joined e op s → performOp e.core op u = u.modCore e.core (startMat isPass f)) :
    begins cmd e op isPass f s := by
  intro taken
  have left := leaves_of_modCore row taken noReads performs
  rw [joined_of_noReads noReads, struck_eq] at left
  rw [joined_of_noReads noReads, struck_eq]
  exact left

end Sys2Proof.Machine

open Sys2Proof Sys2Proof.Machine Sys2Proof.Claims

/-- Settles O5: an operation that reads no word of the scratchpad adds what comes of it to its core alone. -/
theorem matrixSlotCompletes : Obligations.MatrixSlotCompletes := by
  unfold Obligations.MatrixSlotCompletes
  refine ⟨fun e s sound cmd which => ?_, fun e s => ⟨fun f => ?_, fun f => ?_, fun a q => ?_, fun m => ?_, fun m => ?_⟩⟩
  · rcases which with rfl | rfl | rfl <;> exact leaves_none rfl sound
  · exact begins_of_startMat rfl rfl fun _ _ => rfl
  · exact begins_of_startMat rfl rfl fun _ _ => rfl
  · exact dues_of_plan (fun t => [(t + 7, .mode a q)]) rfl rfl fun _ => rfl
  · exact dues_of_plan (fun t => wakeDue t m) rfl rfl fun _ => rfl
  · exact dues_of_plan (fun t => (bitsSet m 12).map fun a => (t + 7, Due.rest a)) rfl rfl fun _ => rfl
end

section
/-! SUPPORT. A refutation: the read of a vector load counts the errors that it corrects (R226), and the count that saturates is
recorded in the logs of the tenancies of the core's parcel (R556), which `leaves` says stay. -/

namespace Sys2Proof.Machine

open Sys2Proof.Claims

/-- Core 0 issues, word 0 of its scratchpad holds an error of one bit, and its count of corrected errors is one below its end;
a parcel with one tenancy has the core. -/
def countingState : State := {
  power := { good := true }
  parcels := [(0, { state := .active, running := 0, quads := [0], coreMap := [0, 1, 2, 3], tenancies := [(0, { mailbox := 1 })]
                    items := [{ seq := 1, tenancy := 0 }] })]
  cores := [(0, { seq := { st := .issuing, item := some (0, 1, 0) }, spCorrected := 2 ^ 48 - 2, upsets := [.word 0 false] })] }

/-- The number of records in the log of tenancy 0 of parcel 0. -/
def tenancyRecords (s : State) : Nat := ((s.parcel 0).ten 0).log.recs.length

/-- Whether a load of 512 bytes from word 0 answers a state in which that log is longer. -/
def loadRecords (s : State) : Bool :=
  match exec (.vxLd { core := 0 } { vr := 0, areg := 0 }) s with
  | .next t => tenancyRecords t != tenancyRecords s
  | _ => false

theorem takes_countingState : takes { core := 0 } (.ld { vr := 0, areg := 0 }) countingState = true := by decide +kernel

theorem loadRecords_countingState : loadRecords countingState = true := by decide +kernel

/-- A load that lengthens the log changes the parcels. -/
theorem parcels_ne_of_loadRecords {s t : State} (records : loadRecords s = true)
    (run : exec (.vxLd { core := 0 } { vr := 0, areg := 0 }) s = .next t) : t.parcels ≠ s.parcels := by
  intro same
  have log : tenancyRecords t = tenancyRecords s := by rw [tenancyRecords, State.parcel, same, ← State.parcel, tenancyRecords]
  rw [loadRecords, run] at records
  simp [log] at records

end Sys2Proof.Machine

open Sys2Proof.Machine

/-- Refutes O11: a load whose read brings the core's count of corrected errors to its end is recorded in a tenancy's log. -/
theorem not_scratchpadAndArmsComplete : ¬ Obligations.ScratchpadAndArmsComplete := by
  unfold Obligations.ScratchpadAndArmsComplete
  intro complete
  obtain ⟨t, run, -, -, same⟩ :=
    ((complete { core := 0 } countingState).1 { vr := 0, areg := 0 }).1 takes_countingState
  exact parcels_ne_of_loadRecords loadRecords_countingState run same
end

section
/-! SUPPORT. What a memory reads after bytes have been written or have become undefined (R290). -/

namespace Sys2Proof.Machine

/-- Whether an undefined range holds an address. -/
def Undef.covers (u : Undef) (x : Nat) : Bool := decide (u.start ≤ x) && decide (x < u.start + u.len)

/-- The tag of the first undefined range that holds an address: what a read there takes its free byte from. -/
def undefTag (us : List Undef) (x : Nat) : Option Nat := (us.find? (·.covers x)).map (·.tag)

theorem memRead_eq (m : Mem) (x : Nat) : memRead m x = match undefTag m.undef x with
    | some t => Config.freeByte t x
    | none => cellAt x m.cells := by
  unfold memRead undefTag Undef.covers
  cases m.undef.find? _ <;> rfl

theorem undefTag_append (us vs : List Undef) (x : Nat) : undefTag (us ++ vs) x = (undefTag us x).or (undefTag vs x) := by
  unfold undefTag
  rw [List.find?_append, Option.map_or]

/-- The tag that one range gives, where there is one. -/
theorem undefTag_piece (c : Prop) [Decidable c] (start len tag x : Nat) :
    undefTag (if c then [⟨start, len, tag⟩] else []) x = if c ∧ start ≤ x ∧ x < start + len then some tag else none := by
  by_cases there : c <;> by_cases covered : start ≤ x ∧ x < start + len <;>
    simp [undefTag, Undef.covers, there, covered]

theorem undefTag_singleton (u : Undef) (x : Nat) :
    undefTag [u] x = if u.start ≤ x ∧ x < u.start + u.len then some u.tag else none := by
  simpa using undefTag_piece True u.start u.len u.tag x

/-- A range that is cut keeps its tag outside the bytes that have become defined. -/
theorem undefTag_cut1 (a n : Nat) (u : Undef) (x : Nat) :
    undefTag (undefCut1 a n u) x = if a ≤ x ∧ x < a + n then none else undefTag [u] x := by
  rw [undefTag_singleton]
  unfold undefCut1
  dsimp only
  split
  case isTrue meets =>
    rw [undefTag_append, undefTag_piece, undefTag_piece]
    by_cases cut : a ≤ x ∧ x < a + n
    · rw [if_pos cut, if_neg (by omega), if_neg (by omega)]
      rfl
    · rw [if_neg cut]
      by_cases covered : u.start ≤ x ∧ x < u.start + u.len
      · rw [if_pos covered]
        by_cases low : x < a
        · rw [if_pos (by omega)]
          rfl
        · rw [if_neg (by omega), if_pos (by omega)]
          rfl
      · rw [if_neg covered, if_neg (by omega), if_neg (by omega)]
        rfl
  case isFalse apart =>
    rw [undefTag_singleton]
    by_cases cut : a ≤ x ∧ x < a + n
    · rw [if_pos cut, if_neg (by omega)]
    · rw [if_neg cut]

/-- Ranges that are cut keep their tags outside the bytes that have become defined. -/
theorem undefTag_cut (a n : Nat) (us : List Undef) (x : Nat) :
    undefTag (undefCut a n us) x = if a ≤ x ∧ x < a + n then none else undefTag us x := by
  induction us with
  | nil => simp [undefCut, undefTag]
  | cons u us ih =>
    rw [undefCut, List.flatMap_cons, undefTag_append, undefTag_cut1, ← undefCut, ih]
    by_cases cut : a ≤ x ∧ x < a + n
    · simp only [if_pos cut, Option.or_none]
    · simp only [if_neg cut, ← undefTag_append, List.singleton_append]

/-- A byte that is written is read back, and every other address reads as before. -/
theorem memRead_write {m : Mem} (canonical : memWf m = true) (a x : Nat) (b : Byte) :
    memRead (memWrite m a b) x = if x = a then b else memRead m x := by
  rw [memRead_eq, memRead_eq]
  simp only [memWrite, undefTag_cut, cellAt_put a x b canonical]
  by_cases same : x = a
  · rw [if_pos (by omega), if_pos same]
    simp [same]
  · rw [if_neg (by omega), if_neg same, if_neg same]

/-- Bytes that are written are read back, and every other address reads as before. -/
theorem memRead_writeN {m : Mem} (canonical : memWf m = true) (a x : Nat) (bs : List Byte) :
    memRead (memWriteN m a bs) x = if h : a ≤ x ∧ x - a < bs.length then bs[x - a]'h.2 else memRead m x := by
  induction bs generalizing m a with
  | nil => simp [memWriteN]
  | cons b bs ih =>
    rw [memWriteN, ih (memWf_write a b canonical), memRead_write canonical]
    by_cases same : x = a
    · simp [same]
    · by_cases inside : a ≤ x ∧ x - a < (b :: bs).length
      · have tail : a + 1 ≤ x ∧ x - (a + 1) < bs.length := by
          simp only [List.length_cons] at inside
          omega
        have step : x - a = x - (a + 1) + 1 := by omega
        rw [dif_pos inside, dif_pos tail]
        simp only [step, List.getElem_cons_succ]
      · have tail : ¬ (a + 1 ≤ x ∧ x - (a + 1) < bs.length) := by
          simp only [List.length_cons] at inside
          omega
        rw [dif_neg inside, dif_neg tail, if_neg same]

/-- What is written is read back whole. -/
theorem memReadN_writeN {m : Mem} (canonical : memWf m = true) (a : Nat) (bs : List Byte) :
    memReadN (memWriteN m a bs) a bs.length = bs := by
  refine List.ext_getElem? fun i => ?_
  by_cases inside : i < bs.length
  · rw [memReadN_get _ _ _ _ inside, memRead_writeN canonical, dif_pos (by omega)]
    simp [inside]
  · rw [List.getElem?_eq_none (by simpa using inside), List.getElem?_eq_none (by simpa using inside)]

/-- Cells that are kept read as before. -/
theorem cellAt_outside (a n x : Nat) (l : List Host.Cell) (outside : x < a ∨ a + n ≤ x) :
    cellAt x (cellsOutside a n l) = cellAt x l := by
  induction l with
  | nil => rfl
  | cons c l ih =>
    unfold cellsOutside at ih ⊢
    rw [List.filter_cons]
    split
    · simp only [cellAt, ih]
    · next cut =>
      have other : c.1 ≠ x := by
        simp only [Bool.or_eq_true, decide_eq_true_eq] at cut
        omega
      rw [ih, cellAt, if_neg other]

/-- Bytes that become undefined leave every other address. -/
theorem memRead_undef (m : Mem) (a n tag x : Nat) (outside : x < a ∨ a + n ≤ x) :
    memRead (memUndef m a n tag) x = memRead m x := by
  rw [memRead_eq, memRead_eq]
  have uncovered : undefTag (memUndef m a n tag).undef x = undefTag m.undef x := by
    have apart : ¬ (a ≤ x ∧ x < a + n) := by omega
    rw [memUndef, ← List.singleton_append, undefTag_append, undefTag_singleton, undefTag_cut, if_neg apart, if_neg apart,
      Option.none_or]
  rw [uncovered, memUndef, cellAt_outside a n x m.cells outside]

/-! A granule that is stored whole (R297, R316). -/

/-- R292: the pseudo-channel and the index of an address are those of its granule. -/
theorem hashOf_granule_start (a : Nat) : hashOf (256 * (a / 256)) = hashOf a := by
  have granule : 256 * (a / 256) / 256 = a / 256 := by omega
  simp only [hashOf, granule]

/-- R316: a granule that is stored whole is marked lost no longer; every other mark stays. -/
theorem granMarked_putGran (a g : Nat) (d : List Byte) (s : State) :
    granMarked (putGran a d s) g = (g != a / 256 && granMarked s g) := by
  unfold granMarked putGran
  dsimp only
  by_cases same : g = a / 256
  · subst same
    rw [hashOf_granule_start]
    by_cases lost : (hashOf a).1 ∈ s.hbm.lostPcs <;> by_cases cleared : a / 256 ∈ s.hbm.cleared <;> simp [lost, cleared]
  · by_cases lost : (hashOf a).1 ∈ s.hbm.lostPcs <;> by_cases cleared : a / 256 ∈ s.hbm.cleared <;>
      simp [lost, cleared, same]

end Sys2Proof.Machine

open Sys2Proof Sys2Proof.Machine

/-- Settles O20: by induction on the bytes, each of which cuts the undefined ranges at its address. -/
theorem memoriesReadBackWhatIsWritten : Obligations.MemoriesReadBackWhatIsWritten := by
  unfold Obligations.MemoriesReadBackWhatIsWritten
  exact fun m a x bs canonical => memRead_writeN canonical a x bs

/-- Settles O22: the write of a granule's bytes is read back, and the tables of marks and errors lose the granule alone. -/
theorem wholeGranuleStoresClearLostMarks : Obligations.WholeGranuleStoresClearLostMarks := by
  unfold Obligations.WholeGranuleStoresClearLostMarks
  intro a d s whole canonical
  refine ⟨?_, ?_, tblGet_del_same _ _, fun x other => ⟨?_, ?_, tblGet_del_other _ _ _ other⟩⟩
  · have back := memReadN_writeN canonical (256 * (a / 256)) d
    rw [whole] at back
    rw [granData, Nat.mul_comm]
    exact back
  · simp [granMarked_putGran]
  · refine (memRead_writeN canonical _ x d).trans (dif_neg ?_)
    omega
  · simp [granMarked_putGran, other]
end

section
/-! SUPPORT. Gates of the scratchpad (R233 to R235). -/

namespace Sys2Proof.Machine

open Sys2Proof.Claims

/-! Quarters of a core. -/

theorem quarter_setQuarter_same (c : Core) (q : Nat) (x : Quarter) : (c.setQuarter q x).quarter q = x := by
  simp [Core.quarter, Core.setQuarter]

theorem quarter_setQuarter_other (c : Core) {q r : Nat} (x : Quarter) (other : r ≠ q) :
    (c.setQuarter q x).quarter r = c.quarter r := by
  simp [Core.quarter, Core.setQuarter, other]

theorem quarter_setQuarter (c : Core) (q r : Nat) (x : Quarter) :
    (c.setQuarter q x).quarter r = if r = q then x else c.quarter r := by
  by_cases same : r = q
  · rw [if_pos same, same, quarter_setQuarter_same]
  · rw [if_neg same, quarter_setQuarter_other c x same]

theorem mem_bitsSet {m n q : Nat} : q ∈ bitsSet m n ↔ q < n ∧ bit m q = true := by simp [bitsSet]

/-! Requests (R234). -/

/-- R234: a gate is requested on every quarter of a list. -/
theorem requestGates_eq (qs : List Nat) (c : Core) (nodup : qs.Nodup) :
    let d := qs.foldl (fun c q => c.setQuarter q { c.quarter q with pendingGate := true, gateAt := c.seq.plan + 1 }) c
    d = { c with quarters := d.quarters } ∧ ∀ r, d.quarter r =
      if r ∈ qs then { c.quarter r with pendingGate := true, gateAt := c.seq.plan + 1 } else c.quarter r := by
  induction qs generalizing c with
  | nil => simp
  | cons q qs ih =>
    obtain ⟨fresh, rest⟩ := List.nodup_cons.1 nodup
    obtain ⟨same, quarters⟩ := ih (c.setQuarter q { c.quarter q with pendingGate := true, gateAt := c.seq.plan + 1 }) rest
    refine ⟨same, fun r => (quarters r).trans ?_⟩
    rw [quarter_setQuarter]
    by_cases own : r = q
    · simp [own, fresh]
    · simp [own, Core.setQuarter]

theorem bitsSet_nodup (m n : Nat) : (bitsSet m n).Nodup := List.nodup_range.filter _

theorem requestGate_eq (m : Nat) (c : Core) : requestGate m c = { c with quarters := (requestGate m c).quarters } ∧
    ∀ r, (requestGate m c).quarter r = if r < 16 ∧ bit m r = true then
      { c.quarter r with pendingGate := true, gateAt := c.seq.plan + 1 } else c.quarter r := by
  obtain ⟨rest, quarters⟩ := requestGates_eq (bitsSet m 16) c (bitsSet_nodup m 16)
  simp only [mem_bitsSet] at quarters
  exact ⟨rest, quarters⟩

/-! Powering up (R235). -/

/-- R235: one quarter is powered up. -/
def ungateOne (k q : Nat) (s : State) : State :=
  let x := (s.core k).quarter q
  let s := if x.off || x.granted then spUndef k (q * 786432) 786432 s else s
  s.modCore k (fun c => c.setQuarter q { pendingGate := false, off := false, usableAt := c.seq.plan + 32 })

theorem ungateAll_eq (k m : Nat) (s : State) : ungateAll k m s = (bitsSet m 16).foldl (fun s q => ungateOne k q s) s := rfl

/-- R235: from s to t the quarters of a list are powered up in core k, and nothing else differs but the draw of free values. -/
structure Ungated (k : Nat) (qs : List Nat) (s t : State) : Prop where
  others : ∀ j, j ≠ k → t.core j = s.core j
  rest : t.hbm = s.hbm ∧ t.dies = s.dies ∧ t.host = s.host ∧ t.parcels = s.parcels
  core : t.core k = { s.core k with quarters := (t.core k).quarters, sp := (t.core k).sp, upsets := (t.core k).upsets }
  reads : ∀ a, quarterOf a ∉ qs ∨
    (((s.core k).quarter (quarterOf a)).off || ((s.core k).quarter (quarterOf a)).granted) = false →
      memRead (t.core k).sp a = memRead (s.core k).sp a
  quarter : ∀ r, (t.core k).quarter r = if r ∈ qs then { usableAt := (s.core k).seq.plan + 32 } else (s.core k).quarter r

theorem ungated_nil (k : Nat) (s : State) : Ungated k [] s s := ⟨fun _ _ => rfl, ⟨rfl, rfl, rfl, rfl⟩, rfl, fun _ _ => rfl, by simp⟩

/-- R235: what powering up one quarter sets in its core. -/
theorem ungated_setCore {k q : Nat} {s u : State} {sp : Mem} {us : List Upset} {x : Quarter}
    (others : ∀ j, j ≠ k → u.core j = s.core j)
    (rest : u.hbm = s.hbm ∧ u.dies = s.dies ∧ u.host = s.host ∧ u.parcels = s.parcels)
    (reads : ∀ a, quarterOf a ≠ q ∨
      (((s.core k).quarter (quarterOf a)).off || ((s.core k).quarter (quarterOf a)).granted) = false →
        memRead sp a = memRead (s.core k).sp a)
    (powered : x = { usableAt := (s.core k).seq.plan + 32 }) :
    Ungated k [q] s (u.setCore k ({ s.core k with sp := sp, upsets := us }.setQuarter q x)) := by
  refine ⟨fun j other => ?_, rest, ?_, fun a => ?_, fun r => ?_⟩
  · rw [State.setCore_core_other _ _ _ _ other, others j other]
  · rw [State.setCore_core_same]
    rfl
  · rw [State.setCore_core_same, List.mem_singleton]
    exact reads a
  · rw [State.setCore_core_same, quarter_setQuarter, powered]
    simp only [List.mem_singleton]
    rfl

theorem ungated_one (k q : Nat) (s : State) : Ungated k [q] s (ungateOne k q s) := by
  unfold ungateOne State.modCore
  dsimp only
  split
  · next off =>
    rw [spUndef, State.setCore_core_same]
    refine ungated_setCore (fun j other => State.setCore_core_other _ _ _ _ other) ⟨rfl, rfl, rfl, rfl⟩ (fun a kept => ?_) rfl
    refine memRead_undef _ _ _ _ _ ?_
    have quarter : quarterOf a ≠ q := by
      rintro rfl
      exact (kept.resolve_left (fun h => h rfl)).symm.trans off |> Bool.false_ne_true
    unfold quarterOf at quarter
    omega
  · exact ungated_setCore (fun _ _ => rfl) ⟨rfl, rfl, rfl, rfl⟩ (fun _ _ => rfl) rfl

theorem Ungated.cons {k q : Nat} {qs : List Nat} {s t u : State} (fresh : q ∉ qs) (one : Ungated k [q] s t)
    (rest : Ungated k qs t u) : Ungated k (q :: qs) s u := by
  have plan : (t.core k).seq.plan = (s.core k).seq.plan := by rw [one.core]
  refine ⟨fun j other => (rest.others j other).trans (one.others j other), ?_, ?_, fun a kept => ?_, fun r => ?_⟩
  · obtain ⟨a, b, c, d⟩ := rest.rest
    obtain ⟨a', b', c', d'⟩ := one.rest
    exact ⟨a.trans a', b.trans b', c.trans c', d.trans d'⟩
  · have core := rest.core
    rw [one.core] at core
    exact core
  · by_cases own : quarterOf a = q
    · have off := kept.resolve_left (by simp [own])
      rw [rest.reads a (.inl (own ▸ fresh)), one.reads a (.inr off)]
    · have same : (t.core k).quarter (quarterOf a) = (s.core k).quarter (quarterOf a) := by
        rw [one.quarter, if_neg (by simpa using own)]
      rw [rest.reads a (by rw [same]; exact kept.imp_left fun h g => h (List.mem_cons_of_mem _ g)),
        one.reads a (.inl (by simpa using own))]
  · rw [rest.quarter, one.quarter, plan]
    by_cases own : r = q
    · simp [own, fresh]
    · simp [own]

theorem ungated_foldl (k : Nat) (qs : List Nat) (s : State) (nodup : qs.Nodup) :
    Ungated k qs s (qs.foldl (fun s q => ungateOne k q s) s) := by
  induction qs generalizing s with
  | nil => exact ungated_nil k s
  | cons q qs ih =>
    obtain ⟨fresh, rest⟩ := List.nodup_cons.1 nodup
    exact .cons fresh (ungated_one k q s) (ih _ rest)

/-! Grants (R234). -/

theorem gateReady_iff {c : Core} {u q : Nat} : gateReady c u q = true ↔
    (c.quarter q).pendingGate = true ∧ (c.quarter q).gateAt ≤ c.seq.plan ∧
    (∀ d ∈ c.due, ∀ a bs, d.2 = .sp a bs → quarterOf a ≠ q) ∧
    ∀ x ∈ c.descs, x.2.landedBy u = true ∨ q ∉ x.2.quarters := by
  unfold gateReady
  simp only [Bool.and_eq_true, Bool.not_eq_true', List.any_eq_false, decide_eq_true_eq, and_assoc]
  refine and_congr_right fun _ => and_congr_right fun _ => and_congr (forall₂_congr fun d _ => ?_) (forall₂_congr fun x _ => ?_)
  · cases d.2 <;> simp
  · cases x.2.landedBy u <;> simp

/-- R234: a request that is granted in a cycle in which no failure comes first. -/
theorem execGateGrant_granted {k q : Nat} {s : State} (ready : gateReady (s.core k) (gateCycle s (s.core k)) q = true) :
    execGateGrant k q s = .next (s.setCore k (if (s.core k).seq.st = .issuing
      then (s.core k).setQuarter q { (s.core k).quarter q with pendingGate := false, granted := true }
      else gateOff [q] (s.core k))) := by
  unfold execGateGrant
  simp only [ready, Bool.not_true, Bool.false_eq_true, if_false, beq_iff_eq]
  split <;> rfl

/-- What is in flight to the scratchpad once quarters have gone off. -/
def keepNear (qs : List Nat) (d : Nat × Due) : Nat × Due :=
  match d.2 with
  | .near l => (d.1, .near (l.filter (fun x => !qs.contains (quarterOf x.1))))
  | _ => d

theorem gateOff_eq (qs : List Nat) (c : Core) : gateOff qs c =
    qs.foldl (fun c q => c.setQuarter q { c.quarter q with pendingGate := false, granted := false, off := true })
      { c with due := c.due.map (keepNear qs) } := rfl

theorem keepNear_near {qs : List Nat} {d : Nat × Due} {l : List (Nat × List Byte)} (near : (keepNear qs d).2 = .near l) :
    ∀ y ∈ l, quarterOf y.1 ∉ qs := by
  obtain ⟨u, d⟩ := d
  cases d <;> simp only [keepNear, reduceCtorEq, Due.near.injEq] at near
  subst near
  intro y kept
  simpa using (List.mem_filter.1 kept).2

theorem keepNear_eq_sp {qs : List Nat} {d : Nat × Due} {u a : Nat} {bs : List Byte} :
    keepNear qs d = (u, .sp a bs) ↔ d = (u, .sp a bs) := by
  obtain ⟨t, d⟩ := d
  cases d <;> simp [keepNear]

/-- R234: quarters go off, and nothing else of their core changes but what is in flight to them. -/
theorem gateOff_plan (qs : List Nat) (c : Core) : (gateOff qs c).seq = c.seq := by
  rw [gateOff_eq]
  generalize c.due.map (keepNear qs) = due
  induction qs generalizing c due with
  | nil => rfl
  | cons q qs ih => exact ih (c.setQuarter q _) due

theorem foldl_off_off {qs : List Nat} {c : Core} {q : Nat} (off : q ∈ qs ∨ (c.quarter q).off = true) :
    ((qs.foldl (fun c q => c.setQuarter q { c.quarter q with pendingGate := false, granted := false, off := true })
      c).quarter q).off = true := by
  induction qs generalizing c with
  | nil => simpa using off
  | cons r qs ih =>
    refine ih ?_
    rw [quarter_setQuarter]
    by_cases own : q = r
    · simp [own]
    · simpa [own] using off

theorem gateOff_off {qs : List Nat} {q : Nat} (c : Core) (off : q ∈ qs) : ((gateOff qs c).quarter q).off = true :=
  foldl_off_off (.inl off)

/-- R234: the plan cycle of a core in which nothing falls due. -/
theorem finishTick_quiet {k : Nat} {qs : List Nat} {s : State} (running : (s.core k).seq.item.isSome = true)
    (quiet : (s.core k).due = []) : ∃ c, (finishTick k qs s).core k = gateOff qs c ∧ c.seq.plan = (s.core k).seq.plan + 1 := by
  unfold finishTick
  simp only [quiet, List.filter_nil, List.append_nil, List.foldl_nil, State.setCore_core_same, Option.isNone_iff_eq_none]
  rw [if_neg (Option.isSome_iff_ne_none.1 running)]
  exact ⟨_, State.setCore_core_same _ _ _, rfl⟩

end Sys2Proof.Machine

open Sys2Proof Sys2Proof.Machine Sys2Proof.Claims

/-- Settles O12: the quarters of the mask one by one; a grant by `gateReady`; what goes off by `gateOff`, in a plan cycle and in
a hold. -/
theorem scratchpadGatingCompletes : Obligations.ScratchpadGatingCompletes := by
  unfold Obligations.ScratchpadGatingCompletes
  refine ⟨fun e m s => ⟨fun taken => ?gate, fun taken => ?ungate⟩, fun k q s pending due noWrite noDesc => ?grant,
    fun c q => ?off, fun k q qs s running quiet goes => ?tick⟩
  case gate =>
    obtain ⟨t, run, core, beside, parcels⟩ := leaves_of_modCore (cmd := .spGate e m) (f := requestGate m) rfl taken rfl
      fun _ _ => rfl
    obtain ⟨same, quarters⟩ := requestGate_eq m (joined e (.gate m) s)
    refine ⟨t, _, run, beside, parcels, core.trans same, fun q => ?_⟩
    rw [core, quarters, joined_of_noReads rfl, struck_eq]
    rfl
  case ungate =>
    have start := joinedStart_core_of_noReads (e := e) (op := .ungate m) (s := s) rfl
    have ungated := ungated_foldl e.core (bitsSet m 16) (joinedStart e (.ungate m) s) (bitsSet_nodup m 16)
    rw [← ungateAll_eq] at ungated
    obtain ⟨others, ⟨hbm, dies, host, parcels⟩, core, reads, quarter⟩ := ungated
    obtain ⟨sameOthers, -, sameHbm, sameDies, sameHost, -⟩ := besideCore_joinedStart e (.ungate m) s
    rw [start] at core reads quarter
    rw [joined_of_noReads rfl, struck_eq] at reads quarter
    refine ⟨_, _, _, _, (slotCmd_takes taken :), fun j other => (others j other).trans (sameOthers j other),
      hbm.trans sameHbm, dies.trans sameDies, host.trans sameHost, parcels.trans (joinedStart_parcels e _ s), core,
      fun a kept => ?_, fun q => ?_⟩
    · exact reads a (kept.imp_left fun clear => by simp [mem_bitsSet, clear])
    · refine (quarter q).trans ?_
      simp only [mem_bitsSet]
      rfl
  case grant => exact execGateGrant_granted (gateReady_iff.2 ⟨pending, due, noWrite, noDesc⟩)
  case off =>
    refine ⟨quarter_setQuarter_same _ _ _, fun r other => quarter_setQuarter_other _ _ other, rfl, rfl, rfl,
      fun x due l near y inside => ?_, fun u a bs => ?_⟩
    · obtain ⟨d, -, rfl⟩ := List.mem_map.1 due
      simpa using keepNear_near near y inside
    · refine List.mem_map.trans ⟨?_, fun due => ⟨(u, .sp a bs), due, rfl⟩⟩
      rintro ⟨d, due, same⟩
      exact keepNear_eq_sp.1 same ▸ due
  case tick =>
    obtain ⟨c, core, plan⟩ := finishTick_quiet (qs := qs) running quiet
    rw [core, gateOff_plan]
    exact ⟨gateOff_off c goes, plan⟩

end

section
/-! SUPPORT. The control slot of a bundle (R142 to R148). -/

namespace Sys2Proof.Machine

open Sys2Proof.Claims

/-- R142, R144, R148: a control slot whose bundle and address registers read sound completes its bundle. -/
theorem ctlCmd_sound {e : CoreEnv} {ctl : CtlOp} {s : State} (sound : issuesSound e s = true)
    (reads : ctlFault (struck e s) ctl = none) : ctlCmd e ctl s = .next (runCore e.core ((slotStart e s).setCore e.core
      (closeBundle ctl (ctlHeal ctl (ctlRegs ctl (struck e s)))))) := by
  simp only [issuesSound, Bool.and_eq_true, Option.isNone_iff_eq_none] at sound
  obtain ⟨issues, bundleSound⟩ := sound
  have quiet : reviveSlot e.core s = none := reviveSlot_issuing (issuing_struck e s ▸ issues)
  have start : ((strikeCore e s).atCycle (struck e s).frameCycle).core e.core = struck e s := strikeCore_core e s
  unfold ctlCmd slotRow
  rw [quiet]
  unfold ctlRun
  simp only [strikeCore_core, issues, struck_seq, bundleSound, Bool.not_true, Bool.false_eq_true, if_false]
  rw [issueCtl, start, reads]
  rfl

/-- The address registers that a control slot writes. -/
def ctlWrites : CtlOp → List Nat
  | .step f => [f.incaDst, f.incbDst]
  | .seta _ dst _ | .adda _ dst _ _ => [dst]
  | _ => []

/-- R591: what a control slot leaves of the errors of its core: all but those of the registers that it writes. -/
theorem mem_upsets_ctlHeal (ctl : CtlOp) (c : Core) (u : Upset) :
    u ∈ (ctlHeal ctl c).upsets ↔ u ∈ c.upsets ∧ ∀ x b, u = .addr x b → x ∉ ctlWrites ctl := by
  have kept : (ctlHeal ctl c).upsets = c.upsets.filter (fun u => !(match u with
    | .addr r _ => (ctlWrites ctl).contains r
    | _ => false)) := rfl
  rw [kept, List.mem_filter]
  cases u <;> simp

@[simp] theorem Core.setAreg_upsets (c : Core) (k : Nat) (w : Word) : (c.setAreg k w).upsets = c.upsets := by
  unfold Core.setAreg
  split <;> rfl

@[simp] theorem Core.setAreg_seq (c : Core) (k : Nat) (w : Word) : (c.setAreg k w).seq = c.seq := by
  unfold Core.setAreg
  split <;> rfl

/-- The registers' new values leave what has struck the core. -/
theorem ctlRegs_upsets (ctl : CtlOp) (c : Core) : (ctlRegs ctl c).upsets = c.upsets := by
  cases ctl <;> simp [ctlRegs]

/-- The registers' new values leave the sequencer. -/
theorem ctlRegs_seq (ctl : CtlOp) (c : Core) : (ctlRegs ctl c).seq = c.seq := by
  cases ctl <;> simp [ctlRegs]

/-- R142, R145: a closed bundle, from the core before the slot. -/
theorem closeBundle_ctlHeal (ctl : CtlOp) (c : Core) : closeBundle ctl (ctlHeal ctl (ctlRegs ctl c)) =
    { ctlRegs ctl c with
      upsets := (ctlHeal ctl (ctlRegs ctl c)).upsets
      seq := (closeBundle ctl c).seq } := by
  have before : (ctlHeal ctl (ctlRegs ctl c)).seq = c.seq := ctlRegs_seq ctl c
  simp only [closeBundle, before]
  rfl

end Sys2Proof.Machine

open Sys2Proof Sys2Proof.Machine Sys2Proof.Claims

/-- Settles O13: each of the four control slots completes its bundle as `ctlCmd_sound` says. -/
theorem controlSlotsComplete : Obligations.ControlSlotsComplete := by
  intro e s sound
  have left (ctl : CtlOp) (u : Upset) : u ∈ (ctlHeal ctl (ctlRegs ctl (struck e s))).upsets ↔
      u ∈ (struck e s).upsets ∧ ∀ x b, u = .addr x b → x ∉ ctlWrites ctl := by
    rw [mem_upsets_ctlHeal, ctlRegs_upsets]
  have done (ctl : CtlOp) (reads : ctlFault (struck e s) ctl = none) := ctlCmd_sound sound reads
  simp only [closeBundle_ctlHeal] at done
  refine ⟨fun f reads => ⟨_, ?_, left (.step f)⟩, fun delta body count reads => ⟨_, ?_, left (.blk delta body count)⟩,
    fun delta dst imm reads => ⟨_, ?_, left (.seta delta dst imm)⟩,
    fun delta dst src imm reads => ⟨_, ?_, left (.adda delta dst src imm)⟩⟩
  · refine (done (.step f) reads).trans ?_
    by_cases last : f.repeat_ = 0
    · simp only [closeBundle, afterIssue, last, beq_self_eq_true, if_true, ctlRegs, Core.setAreg_seq]
    · simp only [closeBundle, afterIssue, last, beq_iff_eq, if_false, ctlRegs, Core.setAreg_seq]
  · exact done (.blk delta body count) reads
  · refine (done (.seta delta dst imm) reads).trans ?_
    simp only [closeBundle, ctlRegs, Core.setAreg_seq]
    rfl
  · refine (done (.adda delta dst src imm) reads).trans ?_
    simp only [closeBundle, ctlRegs, Core.setAreg_seq]
    rfl
end

section
/-! SUPPORT. The event logs (R550 to R556). -/

namespace Sys2Proof.Machine

open Sys2Proof.Claims

theorem SignalsOnly.parcels {s t : State} (h : SignalsOnly s t) : t.parcels = s.parcels := h.eqs.2.2.2.2.2.2.2.2.2.2.1

theorem SignalsOnly.pfLog {s t : State} (h : SignalsOnly s t) : t.pfLog = s.pfLog := by
  rw [h.rest]

theorem SignalsOnly.bmcLog {s t : State} (h : SignalsOnly s t) : t.bmcLog = s.bmcLog := by
  rw [h.rest]

theorem foldl_keeps {α β : Type} {f : State → α → State} {g : State → β}
    (h : ∀ s a, g (f s a) = g s) (l : List α) (s : State) : g (l.foldl f s) = g s := by
  induction l generalizing s with
  | nil => rfl
  | cons a r ih => rw [List.foldl_cons, ih, h]

/-! The logs of the package. -/

theorem logPf_parcels (e : Event) (s : State) : (logPf e s).parcels = s.parcels := by
  unfold logPf
  dsimp only
  rw [(setIrq_signals _ _ _).parcels]
  split
  · rw [(msix_signals _ _ _).parcels]
  · rfl

theorem logPf_pfLog (e : Event) (s : State) : (logPf e s).pfLog = logAppend 4096 (operatorCopy s e) s.pfLog := by
  unfold logPf
  dsimp only
  rw [(setIrq_signals _ _ _).pfLog]
  split
  · rw [(msix_signals _ _ _).pfLog]
  · rfl

theorem logPf_bmcLog (e : Event) (s : State) : (logPf e s).bmcLog = s.bmcLog := by
  unfold logPf
  dsimp only
  rw [(setIrq_signals _ _ _).bmcLog]
  split
  · rw [(msix_signals _ _ _).bmcLog]
  · rfl

theorem logTen_pfLog (p t : Nat) (e : Event) (s : State) : (logTen p t e s).pfLog = s.pfLog := by
  unfold logTen
  dsimp only
  split
  · rfl
  · rw [(setIrq_signals _ _ _).pfLog]; rfl

theorem logTen_bmcLog (p t : Nat) (e : Event) (s : State) : (logTen p t e s).bmcLog = s.bmcLog := by
  unfold logTen
  dsimp only
  split
  · rfl
  · rw [(setIrq_signals _ _ _).bmcLog]; rfl

/-- R551, R555: a record joins the PF log in the operator's form. -/
theorem recordNow_pfLog (kind p t seq len : Nat) (a b : List Byte) (s : State) : (recordNow kind p t seq len a b s).pfLog =
    logAppend 4096 (operatorCopy s ⟨s.time.postmark, s.time.stamp, kind, p, t, len, 0, seq, a⟩) s.pfLog := by
  unfold recordNow
  dsimp only
  split <;> split <;>
    simp only [foldl_keeps (g := State.pfLog) (fun s k => logTen_pfLog _ k _ s), logPf_pfLog]

/-- R553: a record joins the management controller's log where its kind goes there. -/
theorem recordNow_bmcLog_tail (kind p t seq len : Nat) (a b : List Byte) (s : State) :
    (recordNow kind p t seq len a b s).bmcLog.tail = s.bmcLog.tail + (if kindBmc kind then 1 else 0) := by
  unfold recordNow
  dsimp only
  split <;> split <;> rename_i goes _ <;>
    simp only [foldl_keeps (g := State.bmcLog) (fun s k => logTen_bmcLog _ k _ s), logPf_bmcLog, *] <;> rfl

/-- R553: a record that concerns no parcel leaves the parcels. -/
theorem recordNow_parcels {p : Nat} (none : 48 ≤ p) (kind t seq len : Nat) (a b : List Byte) (s : State) :
    (recordNow kind p t seq len a b s).parcels = s.parcels := by
  unfold recordNow
  dsimp only
  rw [if_pos none]
  split <;> exact logPf_parcels _ s

theorem satLogs_nil_parcels (n : Nat) (old s : State) : (satLogs [] n old s).parcels = s.parcels := by
  induction n generalizing old s with
  | zero => rfl
  | succ n ih =>
    have package (l : List ((Nat × Nat × Nat × Nat) × (Nat × Nat × Nat × Nat))) (small : ∀ x ∈ l, 48 ≤ x.1.1) (s : State) :
        (l.foldl (fun s x => recordNow evSat x.1.1 x.1.2.1 0xFFFFFFFF 4 (leBytes 17 2 ++ leBytes x.1.2.2.1 2)
          (leBytes 17 2 ++ leBytes x.1.2.2.1 2) s) s).parcels = s.parcels := by
      induction l generalizing s with
      | nil => rfl
      | cons x r ih =>
        rw [List.foldl_cons, ih fun y h => small y (List.mem_cons_of_mem _ h),
          recordNow_parcels (small x List.mem_cons_self)]
    unfold satLogs
    dsimp only
    split
    · rfl
    · rw [ih, package]
      intro x hit
      have old := (List.of_mem_zip (List.mem_filter.mp hit).1).1
      simp only [lostCounts, List.flatMap_nil, List.append_nil, List.mem_cons, List.not_mem_nil, or_false] at old
      rcases old with h | h <;> rw [h] <;> exact (by decide : 48 ≤ 255)

/-- R553, R556: an event of the package leaves the parcels. -/
theorem recordM_parcels (kind len : Nat) (a : List Byte) (s : State) : (recordM kind len a s).parcels = s.parcels := by
  have whole : (48 ≤ 0xFF) = True := by decide
  unfold recordM recordP
  simp only [whole, if_true]
  rw [satLogs_nil_parcels, recordNow_parcels (by decide)]

/-- R550: the newest record of a log. -/
theorem mem_logAppend_new {cap : Nat} (room : 1 ≤ cap) (e : Event) (l : EvLog) : (l.tail + 1, e) ∈ (logAppend cap e l).recs :=
  List.mem_filter.mpr ⟨List.mem_append_right _ List.mem_cons_self, by simpa using Nat.pos_of_ne_zero (Nat.ne_of_gt room)⟩

/-- R550: what a log holds after a record. -/
theorem mem_logAppend {cap : Nat} {e : Event} {l : EvLog} {r : Nat × Event} : r ∈ (logAppend cap e l).recs ↔
    (r ∈ l.recs ∨ r = (l.tail + 1, e)) ∧ l.tail + 1 < r.1 + cap := by
  unfold logAppend
  simp [List.mem_filter, or_and_right]

end Sys2Proof.Machine

open Sys2Proof Sys2Proof.Machine Sys2Proof.Claims

/-- Settles O59: `logAppend` as its filter says, and the three logs that a record joins. -/
theorem eventsAreLogged : Obligations.EventsAreLogged := by
  refine ⟨fun cap e l room below => ⟨rfl, rfl, mem_logAppend_new room e l, fun r here => ?_, fun r old fits => ?_,
    fun lost => ?_, fun kept => ?_⟩, fun kind p t seq len a b s => ?_⟩
  · obtain ⟨known | new, fits⟩ := mem_logAppend.mp here
    · exact ⟨Nat.le_succ_of_le (below r known), fits⟩
    · exact ⟨new ▸ Nat.le_refl _, fits⟩
  · exact mem_logAppend.mpr ⟨.inl old, fits⟩
  · have passed : l.recs.any (fun r => r.1 + cap == l.tail + 1 && decide (l.head < r.1)) = true := by
      obtain ⟨r, here, last, unread⟩ := lost
      exact List.any_eq_true.mpr ⟨r, here, by simp [last, unread]⟩
    simp [logAppend, passed]
  · have none : l.recs.any (fun r => r.1 + cap == l.tail + 1 && decide (l.head < r.1)) = false := by
      refine List.any_eq_false.mpr fun r here => ?_
      simp only [Bool.and_eq_true, beq_iff_eq, decide_eq_true_eq, not_and, Nat.not_lt]
      exact kept r here
    simp [logAppend, none]
  · have records := (recordNow_records kind p t seq len a b s).eqs
    have new : ∀ r ∈ (recordNow kind p t seq len a b s).pfLog.recs, r ∉ s.pfLog.recs →
        r.2 = operatorCopy s ⟨s.time.postmark, s.time.stamp, kind, p, t, len, 0, seq, a⟩ := by
      intro r here fresh
      rw [recordNow_pfLog] at here
      exact congrArg Prod.snd ((mem_logAppend.mp here).1.resolve_left fresh)
    refine ⟨by rw [recordNow_pfLog]; rfl, recordNow_bmcLog_tail kind p t seq len a b s,
      (recordNow_counts kind p t seq len a b s).bare, by tauto, by tauto, by tauto, fun r here _ fresh => ⟨?_, ?_⟩⟩
    · intro owned sealed_
      rw [new r here fresh]
      simp [operatorCopy, owned, sealed_]
    · intro open_
      rw [new r here fresh]
      rcases open_ with none | plain
      · simp [operatorCopy, Nat.not_lt.mpr none]
      · simp [operatorCopy, plain]

/-- Settles O60, by evaluation of the reset state. -/
theorem resetIsAsTheManualSays : Obligations.ResetIsAsTheManualSays := by
  refine ⟨rfl, rfl, rfl, rfl, rfl, rfl, rfl, rfl, rfl, rfl, rfl, fun n => ⟨rfl, rfl, rfl, rfl⟩, fun k => ⟨rfl, rfl, rfl, fun a => rfl⟩,
    fun k => rfl, rfl, rfl, rfl, rfl, rfl, fun a => rfl⟩
end

section
/-! SUPPORT. What a reply leaves in its partner's block (R471 to R475). -/

namespace Sys2Proof.Machine

theorem msix_blocks (fn v : Nat) (s : State) : (msix fn v s).blocks = s.blocks := by
  unfold msix
  dsimp only
  split <;> rfl

theorem blockMsix_blocks (n k : Nat) (s : State) : (blockMsix n k s).blocks = s.blocks := by
  unfold blockMsix
  dsimp only
  split <;> exact msix_blocks _ _ _

/-- R491: interrupt bits that are set now. -/
theorem setIrqNow_blocks (n b : Nat) (s : State) :
    (setIrqNow n b s).blocks = (s.setBlock n { s.block n with irqStatus := (s.block n).irqStatus ||| b }).blocks :=
  foldl_keeps (g := State.blocks) (fun s k => blockMsix_blocks n k s) _ _

theorem setIrqNow_block (n b : Nat) (s : State) :
    (setIrqNow n b s).block n = { s.block n with irqStatus := (s.block n).irqStatus ||| b } := by
  rw [State.block, setIrqNow_blocks, ← State.block, State.setBlock_block_same]

theorem bit_eq_testBit (x k : Nat) : bit x k = x.testBit k := by
  rw [Nat.testBit_eq_decide_div_mod_eq, bit]
  rfl

theorem bit_or (x y k : Nat) : bit (x ||| y) k = (bit x k || bit y k) := by
  rw [bit_eq_testBit, bit_eq_testBit, bit_eq_testBit, Nat.testBit_or]

theorem carries_iff (st : RStatus) : carries st = true ↔ st = .ok ∨ st = .okPartial := by
  simp [carries]

/-- The envelope of a reply whose payload has no place of its own (R471). -/
def replyEnv (tk : Ticket) (st : RStatus) (body : List Byte) (s : State) : List Byte :=
  let data := if st = .ok ∨ st = .okPartial then body else []
  envHeader 1 tk.op st.code tk.seq data.length tk.parcel tk.tenancy tk.baseline s.time.postmark ++ data

/-- R471: a reply whose payload has no place of its own is one envelope. -/
theorem replyNow_direct {tk : Ticket} (direct : tk.indirect = none) (st : RStatus) (body : List Byte) (s : State) :
    replyNow tk st false body s = deliver tk (replyEnv tk st body s) s := by
  unfold replyNow replyEnv
  rw [direct]
  simp only [carries_iff, Bool.or_false]

/-- R460, R468: a reply of a session that has not ended, to a partner whose parcel is not sealed. -/
theorem reply_now {tk : Ticket} {s : State} (alive : tk.dead = false) (current : staleTicket s tk = false)
    (plain : tk.block = 64 ∨ ∀ p t, boundTo s tk.block = some (p, t) → isSealed s p = false) (st : RStatus) (body : List Byte) :
    reply tk st body s = replyNow tk st false body s := by
  unfold reply replyWith
  rw [alive, current]
  simp only [Bool.false_eq_true, if_false]
  split
  next p t bound =>
    have now : (isSealed s p && tk.block != 64) = false := by
      rcases plain with own | open_
      · simp [own]
      · simp [open_ p t bound]
    rw [now]
    rfl
  next => rfl

end Sys2Proof.Machine

open Sys2Proof Sys2Proof.Machine

/-- Settles O41, by the places that `deliver` tells apart. -/
theorem repliesLandWhereTheyBelong : Obligations.RepliesLandWhereTheyBelong := by
  intro tk st body s alive direct
  refine ⟨fun stale => ?_, fun current => ⟨fun own now => ?_, fun other now inline => ?_, fun k l other now slot reach => ?_,
    fun p t other bound closed => ?_⟩⟩
  · unfold reply replyWith
    rw [alive, stale]
    rfl
  · rw [reply_now alive current (.inl own), replyNow_direct direct, deliver, own]
    rfl
  · rw [reply_now alive current (.inr now), replyNow_direct direct, deliver, if_neg (mt beq_iff_eq.1 other), inline]
    dsimp only
    rw [setIrqNow_block, State.setBlock_block_same]
    exact ⟨rfl, rfl, by rw [bit_or]; simp [bit, irqInline]⟩
  · have written : hostWrite s tk.block ((s.block tk.block).env.addr k 2048 + 1024) (replyEnv tk st body s) =
        some { s with host := { s.host with mem := spansWrite l (replyEnv tk st body s) s.host.mem } } := by
      rw [hostWrite]
      exact congrArg (Option.map _) reach
    rw [reply_now alive current (.inr now), replyNow_direct direct, deliver, if_neg (mt beq_iff_eq.1 other), slot]
    dsimp only
    rw [written]
    dsimp only
    refine ⟨by rw [(setIrqNow_signals _ _ _).rest]; rfl, ?_⟩
    rw [setIrqNow_block, bit_or]
    simp [bit, irqEnv]
  · have waits : (isSealed s p && tk.block != 64) = true := by simp [closed, other]
    unfold reply replyWith
    rw [alive, current, bound]
    simp only [waits, if_true, Bool.false_eq_true, if_false, Bool.or_false, carries_iff]
end

section
/-! SUPPORT. Numbers and fields of bytes (R16): what a field of a list of bytes reads. -/

namespace Sys2Proof.Machine

@[simp] theorem length_leBytes (x n : Nat) : (leBytes x n).length = n := by
  induction n generalizing x with
  | zero => rfl
  | succ n ih => rw [leBytes, List.length_cons, ih]

@[simp] theorem length_zeros (n : Nat) : (zeros n).length = n := List.length_replicate

/-- R16: n bytes hold a number up to 256^n. -/
theorem leNat_leBytes (x n : Nat) : leNat (leBytes x n) = x % 256 ^ n := by
  induction n generalizing x with
  | zero => rw [leBytes, leNat, Nat.pow_zero, Nat.mod_one]
  | succ n ih =>
    have low : (BitVec.ofNat 8 x).toNat = x % 256 := BitVec.toNat_ofNat x 8
    rw [leBytes, leNat, ih, low, Nat.pow_succ, Nat.mul_comm (256 ^ n), Nat.mod_mul]

theorem length_slice (p : List Byte) (o n : Nat) : (slice p o n).length = n := by
  unfold slice
  simp only [List.length_append, List.length_replicate, List.length_take, List.length_drop]
  omega

/-- A field within a list is what stands there. -/
theorem slice_eq {p : List Byte} {o n : Nat} (within : o + n ≤ p.length) : slice p o n = (p.drop o).take n := by
  have full : n - ((p.drop o).take n).length = 0 := by
    rw [List.length_take, List.length_drop]
    omega
  unfold slice
  simp only [full, List.replicate_zero, List.append_nil]

/-- A field at the start of a list. -/
theorem slice_prefix {a : List Byte} {n : Nat} (len : a.length = n) (b : List Byte) : slice (a ++ b) 0 n = a := by
  rw [slice_eq (by rw [List.length_append]; omega), List.drop_zero, List.take_left' len]

theorem slice_self {a : List Byte} {n : Nat} (len : a.length = n) : slice a 0 n = a := by
  simpa using slice_prefix len []

/-- A field after the first part of a list. -/
theorem slice_skip {a : List Byte} {o : Nat} (past : a.length ≤ o) (b : List Byte) (n : Nat) :
    slice (a ++ b) o n = slice b (o - a.length) n := by
  unfold slice
  rw [List.drop_append, List.drop_eq_nil_of_le past, List.nil_append]

/-- A field within the first part of a list. -/
theorem slice_left {a : List Byte} {o n : Nat} (within : o + n ≤ a.length) (b : List Byte) : slice (a ++ b) o n = slice a o n := by
  rw [slice_eq within, slice_eq (by rw [List.length_append]; omega), List.drop_append_of_le_length (by omega),
    List.take_append_of_le_length (by rw [List.length_drop]; omega)]

theorem le_skip {a : List Byte} {o : Nat} (past : a.length ≤ o) (b : List Byte) (n : Nat) :
    le (a ++ b) o n = le b (o - a.length) n := by
  rw [le, slice_skip past, le]

theorem le_left {a : List Byte} {o n : Nat} (within : o + n ≤ a.length) (b : List Byte) : le (a ++ b) o n = le a o n := by
  rw [le, slice_left within, le]

/-- R16: the first field of a list of bytes. -/
theorem le_leBytes (x n : Nat) (b : List Byte) : le (leBytes x n ++ b) 0 n = x % 256 ^ n := by
  rw [le, slice_prefix (length_leBytes x n), leNat_leBytes]

theorem le_leBytes_self (x n : Nat) : le (leBytes x n) 0 n = x % 256 ^ n := by
  rw [le, slice_self (length_leBytes x n), leNat_leBytes]

/-- R16: a later field of a list of bytes. -/
theorem le_leBytes_skip {m o : Nat} (past : m ≤ o) (x : Nat) (b : List Byte) (n : Nat) :
    le (leBytes x m ++ b) o n = le b (o - m) n := by
  rw [le_skip (by rw [length_leBytes]; exact past), length_leBytes]

theorem slice_leBytes_skip {m o : Nat} (past : m ≤ o) (x : Nat) (b : List Byte) (n : Nat) :
    slice (leBytes x m ++ b) o n = slice b (o - m) n := by
  rw [slice_skip (by rw [length_leBytes]; exact past), length_leBytes]

@[simp] theorem pay_nil : pay [] = [] := rfl

@[simp] theorem pay_cons (x n : Nat) (l : List (Nat × Nat)) : pay ((x, n) :: l) = leBytes x n ++ pay l := rfl

theorem length_flatMap_of_length {α : Type} {f : α → List Byte} {n : Nat} (same : ∀ a, (f a).length = n) (l : List α) :
    (l.flatMap f).length = n * l.length := by
  induction l with
  | nil => rfl
  | cons a r ih => rw [List.flatMap_cons, List.length_append, same, ih, List.length_cons, Nat.mul_succ, Nat.add_comm]

/-! The checks of a request (R480). -/

/-- R480 check 1: the header of a request envelope. -/
def headSound (b : List Byte) : Bool :=
  decide (64 + le b 12 4 ≤ b.length) && le b 0 2 == 0x5A45 && le b 2 1 == 1 && (le b 3 1 == 0 || le b 3 1 == 2) && le b 6 2 == 0
    && allZero b 24 40 && decide (le b 12 4 ≤ 960) && (le b 3 1 == 0 || le b 12 4 == 32)

/-- R480: the first five checks in their order. -/
theorem zCheck_eq (r : ZReq) (s : State) : zCheck r s =
    if headSound r.env = false then .refused .badLength
    else if le r.env 4 2 = 1 ∧ le r.env 20 4 ≠ 0 then .refused .badBaseline
    else if le r.env 4 2 ≠ 1 ∧ (sessionOf s r.block).any (fun x => x.baseline == le r.env 20 4) = false then .refused .badBaseline
    else match specOf (le r.env 4 2) with
      | none => .refused .badOpcode
      | some z =>
        if le r.env 4 2 ≠ 1 ∧ ((sessionOf s r.block).map (·.baseline)).getD 0 % 65536 < z.minor then .refused .badBaseline
        else if privileged z (ticketOf r s) s = false then .refused .notPrivileged
        else checkPayload z (ticketOf r s) r s := by
  unfold zCheck
  simp only [Bool.not_eq_true', Bool.and_eq_true, beq_iff_eq, bne_iff_ne, decide_eq_true_eq]
  rfl

end Sys2Proof.Machine

open Sys2Proof Sys2Proof.Machine Sys2Proof.Claims

/-- Settles O39: what becomes of a row's request is said by `zRow`, the order of the checks by `zCheck_eq`. -/
theorem requestsAreCheckedInOrder : Obligations.RequestsAreCheckedInOrder := by
  refine ⟨fun row listed r s comes => ?_, fun tk st s => ⟨zRefuse_eq tk st s, fun hello => ?_⟩, fun m n => ⟨?_, ?_⟩, fun r s => ⟨?_, ?_⟩⟩
  · obtain ⟨f, runs⟩ := exec_eq_zRow row listed
    simp only [arrives, Bool.and_eq_true] at comes
    obtain ⟨⟨opcode, form⟩, served⟩ := comes
    have fits : rowFits row.1 row.2.1 r s := by
      refine ⟨?_, served⟩
      simp only [Bool.and_eq_true, Bool.or_eq_true] at form ⊢
      exact ⟨opcode, form.elim (fun h => .inl (.inl h)) .inr⟩
    refine ⟨fun st refusal => (runs r s).trans (zRow_refuses fits refusal), fun z fm p t b accepted held waits => ?_⟩
    have later : (z.held && !(mayPerform (taken r s) p t && (((taken r s).parcel p).ten t).held.isEmpty)) = true := by
      rw [taken_mayPerform, taken_parcel, held]
      rcases waits with away | behind
      · simp [away]
      · simp [behind]
    rw [runs, zRow]
    unfold rowFits at fits
    simp only [fits.1, fits.2, Bool.and_self, if_true, fin, zRun, accepted, later]
  · rw [zRefuse, hello]
    rfl
  · simp only [helloBody, List.length_append, length_leBytes, pay_cons, pay_nil, List.length_nil,
      length_flatMap_of_length (fun _ => length_leBytes _ 2), List.length_range]
  · rw [helloBody, pay_cons, pay_nil, List.append_nil, List.append_assoc, List.append_assoc, le_leBytes]
    exact congrArg (m % ·) (by decide)
  · intro bad
    have unsound : headSound r.env = false := by
      unfold headSound
      rcases bad with h | h | h | h | h | h | h
      · simp [h]
      · simp [h]
      · simp [Nat.not_le.mpr h]
      · simp [h.1, h.2]
      · simp [h.1, h.2]
      · simp [h]
      · simp [h]
    rw [zCheck_eq, if_pos unsound]
  · intro magic version len kind reserved room
    have sound : ¬ headSound r.env = false := by
      unfold headSound
      rcases len with ⟨flags, short⟩ | ⟨flags, short⟩
      · simp [magic, version, kind, reserved, room, flags, short]
      · simpa [magic, version, kind, reserved, flags, short] using room
    rw [zCheck_eq, if_neg sound]
    refine ⟨fun hello stray => if_pos ⟨hello, stray⟩, fun other none => ?_, fun x other has based => ?_⟩
    · have away : (sessionOf s r.block).any (fun x => x.baseline == le r.env 20 4) = false := by
        cases h : sessionOf s r.block with
        | none => rfl
        | some x => simpa using none x h
      rw [if_neg (fun h => other h.1), if_pos ⟨other, away⟩]
    · have same : ¬ (sessionOf s r.block).any (fun x => x.baseline == le r.env 20 4) = false := by simp [has, based]
      rw [if_neg (fun h => other h.1), if_neg (fun h => same h.2)]
      refine ⟨fun unknown => by rw [unknown], fun z known => ?_⟩
      rw [known, has]
      refine ⟨fun old => if_pos ⟨other, old⟩, fun new barred => ?_⟩
      dsimp only [Option.map_some, Option.getD_some]
      rw [if_neg (fun h => Nat.not_lt.mpr new h.2), if_pos barred]
end

section
/-! SUPPORT. The fields of deeds (R454 to R457). -/

namespace Sys2Proof.Machine

/-- R454: a signed deed ends with its signature, of what stands before it. -/
theorem signDeed_signature (n : Nat) (s : State) (body : List Byte) :
    let d := signDeed n s body
    let g := signWith s.sec.aliasKey n (sha256 (d.take (d.length - 64)))
    d.drop (d.length - 64) = leBytes g.1 32 ++ leBytes g.2 32 := by
  intro d
  have split (g : Nat × Nat) : (body ++ leBytes g.1 32 ++ leBytes g.2 32).length - 64 = body.length := by
    simp only [List.length_append, length_leBytes]
    omega
  have taken : d.take (d.length - 64) = body := by
    simp only [d, signDeed]
    rw [split, List.append_assoc, List.take_left' rfl]
  rw [taken]
  simp only [d, signDeed]
  rw [split, List.append_assoc, List.drop_left' rfl]

end Sys2Proof.Machine

open Sys2Proof Sys2Proof.Machine

/-- Settles O45: the deeds are signed bodies, whose fields stand at the places that they are written to. -/
theorem deedsSayWhatIsTrue : Obligations.DeedsSayWhatIsTrue := by
  intro s n p t nonce inSession len small few
  refine ⟨fun body deed => ?_, ?_, ?_, ?_, ?_, ?_, ?_, ?_, ?_, fun full => ?_⟩
  · simp only [List.mem_cons, List.not_mem_nil, or_false] at deed
    rcases deed with rfl | rfl
    · exact signDeed_signature n s _
    · exact signDeed_signature n s _
  all_goals
    simp only [parcelDeed, packageDeed, signDeed, pay_cons, pay_nil, List.append_assoc, List.append_nil]
    rw [slice_self len]
    simp only [le_leBytes_skip, slice_leBytes_skip, Nat.reduceLeDiff, Nat.reduceSub]
  · rw [le_leBytes]
    rfl
  · rw [le_leBytes]
    exact congrArg (s.time.postmark % ·) (by decide)
  · rw [slice_prefix len]
  · rw [le_skip (by omega), len, le_leBytes]
    exact Nat.mod_eq_of_lt small
  · rw [le_skip (by omega), len, le_leBytes_skip (by omega), le_leBytes]
    exact Nat.mod_eq_of_lt few
  · rw [le_skip (by omega), len, le_leBytes_skip (by omega), le_leBytes_skip (by omega), le_leBytes]
    by_cases never : (s.parcel p).sealedAt = 0 <;> simp [never]
  · rw [le_leBytes]
    rfl
  · rw [slice_prefix len]
  · rw [slice_skip (by omega), len, slice_prefix full]
end

section
/-! SUPPORT. What records leave of the parcels: all but the logs of their tenancies. -/

namespace Sys2Proof.Machine

open Sys2Proof.Claims

/-- A tenancy but for its log. -/
def Tenancy.logless (t : Tenancy) : Tenancy := { t with log := {} }

/-- A parcel but for its tenancies. -/
def Parcel.untenanted (x : Parcel) : Parcel := { x with tenancies := [] }

theorem Parcel.untenanted_eqs {x y : Parcel} (h : x.untenanted = y.untenanted) : x.items = y.items ∧ x.plans = y.plans ∧
    x.state = y.state ∧ x.running = y.running ∧ x.coreMap = y.coreMap ∧ x.lots = y.lots ∧ x.work = y.work ∧
      x.slice = y.slice ∧ x.quads = y.quads ∧ x.sealedAt = y.sealedAt ∧ x.sealPending = y.sealPending ∧
      x.cursors = y.cursors ∧ x.coarse = y.coarse ∧ x.granules = y.granules := by
  simp only [Parcel.untenanted, Parcel.mk.injEq] at h
  tauto

theorem Parcel.setTen_ten_same (x : Parcel) (k : Nat) (t : Tenancy) : (x.setTen k t).ten k = t := by
  simp [Parcel.ten, Parcel.setTen]

theorem Parcel.setTen_ten_other (x : Parcel) {j k : Nat} (t : Tenancy) (other : j ≠ k) : (x.setTen k t).ten j = x.ten j := by
  simp [Parcel.ten, Parcel.setTen, other]

/-- Nothing differs but the logs, the package's and the tenancies', and what signals them. -/
structure LogsOnly (s t : State) : Prop where
  records : RecordsOnly s t
  rest : ∀ p, (t.parcel p).untenanted = (s.parcel p).untenanted
  ten : ∀ p k, ((t.parcel p).ten k).logless = ((s.parcel p).ten k).logless

namespace LogsOnly

theorem refl (s : State) : LogsOnly s s := ⟨.refl s, fun _ => rfl, fun _ _ => rfl⟩

theorem trans {s t u : State} (a : LogsOnly s t) (b : LogsOnly t u) : LogsOnly s u :=
  ⟨a.records.trans b.records, fun p => (b.rest p).trans (a.rest p), fun p k => (b.ten p k).trans (a.ten p k)⟩

theorem foldl {α : Type} {f : State → α → State} (h : ∀ s a, LogsOnly s (f s a)) (l : List α) (s : State) :
    LogsOnly s (l.foldl f s) := by
  induction l generalizing s with
  | nil => exact .refl s
  | cons a r ih => exact (h s a).trans (ih _)

theorem of_parcels {s t : State} (records : RecordsOnly s t) (same : t.parcels = s.parcels) : LogsOnly s t :=
  have parcel (p : Nat) : t.parcel p = s.parcel p := by rw [State.parcel, same, ← State.parcel]
  ⟨records, fun p => by rw [parcel], fun p k => by rw [parcel]⟩

theorem of_signals {s t : State} (h : SignalsOnly s t) : LogsOnly s t := .of_parcels h.records h.parcels

theorem core {s t : State} (h : LogsOnly s t) (k : Nat) : t.core k = s.core k := h.records.core k

theorem items {s t : State} (h : LogsOnly s t) (p : Nat) : (t.parcel p).items = (s.parcel p).items :=
  (Parcel.untenanted_eqs (h.rest p)).1

theorem item {s t : State} (h : LogsOnly s t) (p seq : Nat) : (t.parcel p).item seq = (s.parcel p).item seq := by
  rw [Parcel.item, h.items, ← Parcel.item]

theorem plans {s t : State} (h : LogsOnly s t) (p : Nat) : (t.parcel p).plans = (s.parcel p).plans :=
  (Parcel.untenanted_eqs (h.rest p)).2.1

theorem state {s t : State} (h : LogsOnly s t) (p : Nat) : (t.parcel p).state = (s.parcel p).state :=
  (Parcel.untenanted_eqs (h.rest p)).2.2.1

theorem mailbox {s t : State} (h : LogsOnly s t) (p k : Nat) : ((t.parcel p).ten k).mailbox = ((s.parcel p).ten k).mailbox := by
  have same := h.ten p k
  simp only [Tenancy.logless, Tenancy.mk.injEq] at same
  tauto

theorem inUse {s t : State} (h : LogsOnly s t) (p : Nat) : (t.parcel p).inUse = (s.parcel p).inUse := by
  simp only [Parcel.inUse, h.mailbox]

end LogsOnly

theorem modTen_log_logs (s : State) (p t : Nat) (f : EvLog → EvLog) :
    LogsOnly s (s.modTen p t (fun x => { x with log := f x.log })) := by
  refine ⟨rfl, fun q => ?_, fun q k => ?_⟩
  · unfold State.modTen State.modParcel
    by_cases own : q = p
    · rw [own, State.setParcel_parcel_same]; rfl
    · rw [State.setParcel_parcel_other _ _ _ _ own]
  · unfold State.modTen State.modParcel
    by_cases own : q = p
    · rw [own, State.setParcel_parcel_same]
      by_cases same : k = t
      · rw [same, Parcel.setTen_ten_same]; rfl
      · rw [Parcel.setTen_ten_other _ _ same]
    · rw [State.setParcel_parcel_other _ _ _ _ own]

theorem logPf_logs (e : Event) (s : State) : LogsOnly s (logPf e s) := .of_parcels (logPf_records e s) (logPf_parcels e s)

theorem logTen_logs (p t : Nat) (e : Event) (s : State) : LogsOnly s (logTen p t e s) := by
  have logged := modTen_log_logs s p t (logAppend 512 { e with cycle := 0, flags := 1 })
  unfold logTen
  dsimp only
  split
  · exact logged
  · exact logged.trans (.of_signals (setIrq_signals _ _ _))

theorem recordNow_logs (kind p t seq len : Nat) (a b : List Byte) (s : State) :
    LogsOnly s (recordNow kind p t seq len a b s) := by
  have log := logPf_logs ⟨s.time.postmark, s.time.stamp, kind, p, t, len, 0, seq, a⟩ s
  have bmc (x : State) (l : EvLog) : LogsOnly x { x with bmcLog := l } := .of_parcels rfl rfl
  unfold recordNow
  dsimp only
  split
  · split
    · exact log.trans (bmc _ _)
    · exact log
  · split
    · exact (log.trans (bmc _ _)).trans (.foldl (fun s k => logTen_logs p k _ s) _ _)
    · exact log.trans (.foldl (fun s k => logTen_logs p k _ s) _ _)

theorem satLogs_logs (ps : List Nat) (n : Nat) (old s : State) : LogsOnly s (satLogs ps n old s) := by
  induction n generalizing old s with
  | zero => exact .refl s
  | succ n ih =>
    unfold satLogs
    dsimp only
    split
    · exact .refl s
    · exact (LogsOnly.foldl (fun s x => recordNow_logs _ _ _ _ _ _ _ s) _ _).trans (ih _ _)

/-- R553, R556: a record changes logs alone. -/
theorem recordP_logs (kind p t seq len : Nat) (a b : List Byte) (s : State) : LogsOnly s (recordP kind p t seq len a b s) :=
  (recordNow_logs kind p t seq len a b s).trans (satLogs_logs _ _ _ _)

theorem recordM_logs (kind len : Nat) (a : List Byte) (s : State) : LogsOnly s (recordM kind len a s) := recordP_logs _ _ _ _ _ _ _ _

theorem recordShared_logs (kind len : Nat) (ps : List Nat) (a : List Byte) (b : Nat → List Byte) (s : State) :
    LogsOnly s (recordShared kind len ps a b s) :=
  ((recordNow_logs kind 0xFF 0xFF 0xFFFFFFFF len a a s).trans
    (.foldl (fun u p => LogsOnly.foldl (fun u t => logTen_logs p t _ u) _ u) _ _)).trans (satLogs_logs _ _ _ _)

theorem feedLate_logs (p ten seq seg k : Nat) (h : HoldRec) (s : State) : LogsOnly s (feedLate p ten seq seg k h s) := by
  unfold feedLate
  split
  · exact .refl s
  · exact recordP_logs _ _ _ _ _ _ _ _

/-! The items of a parcel. -/

/-- A change of an item that keeps its number. -/
theorem Parcel.updItem_item_same {x : Parcel} {seq : Nat} {i : Item} {f : Item → Item} (found : x.item seq = some i)
    (keeps : ∀ i, (f i).seq = i.seq) : (x.updItem seq f).item seq = some (f i) := by
  have key : ((fun i : Item => i.seq == seq) ∘ fun i => if (i.seq == seq) = true then f i else i) = fun i => i.seq == seq := by
    funext j
    dsimp only [Function.comp]
    split <;> simp only [keeps]
  have own : (i.seq == seq) = true := by simpa using List.find?_some found
  rw [Parcel.item] at found ⊢
  unfold Parcel.updItem
  dsimp only
  rw [List.find?_map, key, found]
  simp only [Option.map_some, own, if_true]

theorem State.modItem_item_same {s : State} {p seq : Nat} {i : Item} {f : Item → Item}
    (found : (s.parcel p).item seq = some i) (keeps : ∀ i, (f i).seq = i.seq) :
    ((s.modItem p seq f).parcel p).item seq = some (f i) := by
  unfold State.modItem State.modParcel
  rw [State.setParcel_parcel_same]
  exact Parcel.updItem_item_same found keeps

/-! The end of a segment (R129, R147, R171, R173). -/

/-- R147, R175: CT_END of a core whose bundle reads sound. -/
theorem ctEnd_sound {e : CoreEnv} {s : State} (sound : issuesSound e s = true) :
    exec (.ctEnd e) s = .next (endCore e.core (coreTick e.core (slotStart e s))) := by
  simp only [issuesSound, Bool.and_eq_true, Option.isNone_iff_eq_none] at sound
  obtain ⟨issues, bundleSound⟩ := sound
  have quiet : reviveSlot e.core s = none := reviveSlot_issuing (issuing_struck e s ▸ issues)
  change execCtEnd e s = _
  unfold execCtEnd slotRow
  rw [quiet]
  unfold endRun
  simp only [strikeCore_core, issues, struck_seq, bundleSound, Bool.not_true, Bool.false_eq_true, if_false]
  rfl

/-- A fold that changes each listed core. -/
theorem foldl_modCore_core (f : Core → Core) {l : List Nat} {k : Nat} {P : Core → Prop} (made : ∀ c, P (f c)) (listed : k ∈ l)
    (s : State) : P ((l.foldl (fun s k => s.modCore k f) s).core k) := by
  induction l using List.reverseRecOn generalizing s with
  | nil => simp at listed
  | append_singleton r a ih =>
    rw [List.foldl_append, List.foldl_cons, List.foldl_nil, State.modCore]
    by_cases own : k = a
    · rw [own, State.setCore_core_same]
      exact made _
    · rw [State.setCore_core_other _ _ _ _ own]
      exact ih ((List.mem_append.mp listed).resolve_right (by simpa using own)) s

theorem foldl_modCore_parcels (f : Core → Core) (l : List Nat) (s : State) :
    (l.foldl (fun s k => s.modCore k f) s).parcels = s.parcels :=
  foldl_keeps (g := State.parcels) (f := fun s k => s.modCore k f) (fun _ _ => rfl) l s

/-- R267: an item that has a segment before it does not complete. -/
theorem tryComplete_early {s : State} {p seq : Nat} {i : Item} (found : (s.parcel p).item seq = some i)
    (early : ∀ v, s.planFor p i = some v → i.seg < v.segments) : tryComplete p seq s = s := by
  unfold tryComplete
  rw [found]
  dsimp only
  split
  · rfl
  next v bound =>
    have more := early v bound
    simp [more]

/-- R129, R173, R225: a core at the end of segment g: its writes have landed, its arrays are OFF, the halves with g are free. -/
def segmentFreed (g : Nat × Nat × Nat) (c : Core) : Core :=
  let c := landWrites c
  let q := c.seq
  let h0 : SeqHalf := if q.h0.seg == some g then {} else q.h0
  let h1 : SeqHalf := if q.h1.seg == some g then {} else q.h1
  { c with arrays := [], ops := [], due := [], seq := { q with h0 := h0, h1 := h1, hold := {} } }

/-- R171, R173: an item at the end of a segment with `held` cycles held. -/
def segmentPassed (held now : Nat) (i : Item) : Item := { i with
  held := i.held + held, late := i.late || held != 0, segsRun := i.segsRun + 1, segRunning := false, segEnd := now, seg := i.seg + 1 }

theorem segmentEnd_eq {s : State} {p seq : Nat} {i : Item} (found : (s.parcel p).item seq = some i) : segmentEnd p seq s =
    tryComplete p seq (((coresOf s p seq).foldl (fun s k => s.modCore k (segmentFreed (p, seq, i.seg)))
      ((coresOf s p seq).foldl (fun s k => feedLate p i.tenancy seq i.seg k (s.core k).seq.hold s) s)).modItem p seq
        (segmentPassed (((coresOf s p seq).map (fun k => (s.core k).seq.hold.cycles)).foldl max 0)
          ((coresOf s p seq).foldl (fun s k => s.modCore k (segmentFreed (p, seq, i.seg)))
            ((coresOf s p seq).foldl (fun s k => feedLate p i.tenancy seq i.seg k (s.core k).seq.hold s) s)).time.stamp)) := by
  unfold segmentEnd
  rw [found]
  rfl

theorem State.modItem_planFor (s : State) (p seq : Nat) (f : Item → Item) (i : Item) :
    (s.modItem p seq f).planFor p i = s.planFor p i := by
  unfold State.planFor State.modItem State.modParcel
  rw [State.setParcel_parcel_same]
  rfl

theorem LogsOnly.planFor {s t : State} (h : LogsOnly s t) (p : Nat) (i : Item) : t.planFor p i = s.planFor p i := by
  simp only [State.planFor, Parcel.planOf, Parcel.variants, h.plans]

/-- R171, R173: the end of a segment that is not the item's last. -/
theorem segmentEnd_before_last {s : State} {p seq : Nat} {i : Item} (found : (s.parcel p).item seq = some i)
    (more : ∀ v, s.planFor p i = some v → i.seg + 1 < v.segments) :
    (∀ k ∈ coresOf s p seq, ∀ a, ((segmentEnd p seq s).core k).array a = arrayOff) ∧
      ∃ now, ((segmentEnd p seq s).parcel p).item seq =
        some (segmentPassed (((coresOf s p seq).map (fun k => (s.core k).seq.hold.cycles)).foldl max 0) now i) := by
  have late := LogsOnly.foldl (fun s k => feedLate_logs p i.tenancy seq i.seg k (s.core k).seq.hold s) (coresOf s p seq) s
  rw [segmentEnd_eq found]
  generalize (coresOf s p seq).foldl (fun s k => feedLate p i.tenancy seq i.seg k (s.core k).seq.hold s) s = s1 at late ⊢
  have parcels := foldl_modCore_parcels (segmentFreed (p, seq, i.seg)) (coresOf s p seq) s1
  have off (k : Nat) (own : k ∈ coresOf s p seq) :=
    foldl_modCore_core (segmentFreed (p, seq, i.seg)) (P := fun c => c.arrays = []) (fun _ => rfl) own s1
  generalize (coresOf s p seq).foldl (fun s k => s.modCore k (segmentFreed (p, seq, i.seg))) s1 = s2 at parcels off ⊢
  have parcel : s2.parcel p = s1.parcel p := by rw [State.parcel, parcels, ← State.parcel]
  have before : (s2.parcel p).item seq = some i := by rw [parcel, late.item, found]
  generalize ((coresOf s p seq).map (fun k => (s.core k).seq.hold.cycles)).foldl max 0 = held
  have after := State.modItem_item_same before (f := segmentPassed held s2.time.stamp) (fun _ => rfl)
  have waits : ∀ v, (s2.modItem p seq (segmentPassed held s2.time.stamp)).planFor p (segmentPassed held s2.time.stamp i) =
      some v → (segmentPassed held s2.time.stamp i).seg < v.segments := by
    intro v bound
    rw [State.modItem_planFor, State.planFor, parcel, ← State.planFor, late.planFor] at bound
    exact more v bound
  rw [tryComplete_early after waits]
  refine ⟨fun k own a => ?_, _, after⟩
  have none : (s2.core k).arrays = [] := off k own
  change (s2.core k).array a = arrayOff
  rw [Core.array, none]
  rfl

end Sys2Proof.Machine

open Sys2Proof Sys2Proof.Machine Sys2Proof.Claims

/-- Settles O14: CT_END by `ctEnd_sound`; the segment's end frees the arrays and moves the item on, and what it records changes
logs alone. -/
theorem segmentEndCompletes : Obligations.SegmentEndCompletes := by
  refine ⟨fun e s p seq seg sound => ?_, fun p seq i s found more => ?_⟩
  · intro s1 runs
    refine (ctEnd_sound sound).trans ?_
    rw [endCore, show (coreTick e.core (slotStart e s)).core e.core = s1.core e.core from rfl, runs]
    rfl
  · obtain ⟨off, now, item⟩ := segmentEnd_before_last found more
    exact ⟨off, _, item, rfl, rfl, rfl, rfl⟩
end

section
/-! SUPPORT. What an access of a parcel's memory may change: memory, its marks and error counts, what is recorded of it (R290 to
R298, R316, R322 to R328). -/

namespace Sys2Proof.Machine

open Sys2Proof.Claims

/-- An item but for whether a lost access of it has been recorded. -/
def Item.unseen (i : Item) : Item := { i with lostSeen := false }

/-- A parcel but for its tenancies and what its items have recorded. -/
def Parcel.unaccessed (x : Parcel) : Parcel := { x with tenancies := [], items := x.items.map Item.unseen }

/-- Nothing differs but memory, the counts and lists of its errors, and the records of them. -/
structure Accesses (s t : State) : Prop where
  rest : t = { s with
    free := t.free, store := t.store, dies := t.dies, hs := t.hs, hbm := t.hbm, parcels := t.parcels, pfLog := t.pfLog, bmcLog := t.bmcLog
    blocks := t.blocks, outputs := t.outputs, delayed := t.delayed
    pcie := { s.pcie with msixPending := t.pcie.msixPending, statusShown := t.pcie.statusShown } }
  parcel : ∀ p, (t.parcel p).unaccessed = (s.parcel p).unaccessed
  ten : ∀ p k, ((t.parcel p).ten k).logless = ((s.parcel p).ten k).logless

namespace Accesses

variable {s t u : State}

theorem refl (s : State) : Accesses s s := ⟨rfl, fun _ => rfl, fun _ _ => rfl⟩

theorem trans (a : Accesses s t) (b : Accesses t u) : Accesses s u := by
  refine ⟨?_, fun p => (b.parcel p).trans (a.parcel p), fun p k => (b.ten p k).trans (a.ten p k)⟩
  have h := b.rest; have g := a.rest
  generalize u.free = x1 at *; generalize u.store = x2 at *; generalize u.dies = x3 at *; generalize u.hs = x4 at *
  generalize u.hbm = x5 at *; generalize u.parcels = x6 at *; generalize u.pfLog = x7 at *; generalize u.bmcLog = x8 at *
  generalize u.blocks = x9 at *; generalize u.outputs = x10 at *; generalize u.delayed = x11 at *
  generalize u.pcie.msixPending = x12 at *; generalize u.pcie.statusShown = x13 at *
  rw [g] at h
  exact h

theorem ite {c : Prop} {_ : Decidable c} (a : Accesses s t) (b : Accesses s u) : Accesses s (if c then t else u) := by
  split <;> assumption

/-- A step that is taken or not. -/
theorem when {c : Prop} {_ : Decidable c} (a : Accesses s t) (b : Accesses s t → Accesses s u) :
    Accesses s (if c then u else t) := .ite (b a) a

theorem foldl {α : Type} {f : State → α → State} {l : List α} (k : Accesses s t)
    (h : ∀ u a, Accesses s u → Accesses s (f u a)) : Accesses s (l.foldl f t) := by
  induction l generalizing t with
  | nil => exact k
  | cons a r ih => exact ih (h t a k)

section
variable {α β γ : Type} {c : Prop} {_ : Decidable c}

theorem mk2 {a : α} (h : Accesses s t) : Accesses s (a, t).2 := h
theorem mk22 {a : α} {b : β} (h : Accesses s t) : Accesses s (a, b, t).2.2 := h
theorem mk222 {a : α} {b : β} {c : γ} (h : Accesses s t) : Accesses s (a, b, c, t).2.2.2 := h

theorem ite2 {a b : α × State} (x : Accesses s a.2) (y : Accesses s b.2) : Accesses s (if c then a else b).2 := by
  split <;> assumption

theorem ite22 {a b : α × β × State} (x : Accesses s a.2.2) (y : Accesses s b.2.2) :
    Accesses s (if c then a else b).2.2 := by
  split <;> assumption

theorem ite222 {a b : α × β × γ × State} (x : Accesses s a.2.2.2) (y : Accesses s b.2.2.2) :
    Accesses s (if c then a else b).2.2.2 := by
  split <;> assumption
end

theorem of_same (rest : t = { s with
      free := t.free, store := t.store, dies := t.dies, hs := t.hs, hbm := t.hbm, parcels := t.parcels, pfLog := t.pfLog
      bmcLog := t.bmcLog, blocks := t.blocks, outputs := t.outputs, delayed := t.delayed
      pcie := { s.pcie with msixPending := t.pcie.msixPending, statusShown := t.pcie.statusShown } })
    (same : t.parcels = s.parcels) : Accesses s t :=
  have parcel (p : Nat) : t.parcel p = s.parcel p := by rw [State.parcel, same, ← State.parcel]
  ⟨rest, fun p => by rw [parcel], fun p k => by rw [parcel]⟩

/-- An update of the memory side alone. -/
theorem memory {free store dies hs hbm} (k : Accesses s t) :
    Accesses s { t with free := free, store := store, dies := dies, hs := hs, hbm := hbm } := k.trans (.of_same rfl rfl)

theorem of_logs (h : LogsOnly s t) : Accesses s t := by
  refine ⟨?_, fun p => ?_, h.ten⟩
  · have g := h.records
    unfold RecordsOnly at g
    generalize t.blocks = x at *; generalize t.outputs = y at *; generalize t.delayed = z at *
    generalize t.pcie.msixPending = v at *; generalize t.pcie.statusShown = w at *
    generalize t.pfLog = k at *; generalize t.bmcLog = l at *; generalize t.parcels = m at *
    subst g
    rfl
  · have same := h.rest p
    have items := h.items p
    simp only [Parcel.unaccessed, items]
    exact congrArg (fun x : Parcel => { x with items := (s.parcel p).items.map Item.unseen }) same

theorem logs (k : Accesses s t) (h : LogsOnly t u) : Accesses s u := k.trans (of_logs h)

theorem setDie {i x} (k : Accesses s t) : Accesses s (t.setDie i x) := k.memory
theorem setStack {i x} (k : Accesses s t) : Accesses s (t.setStack i x) := k.memory
theorem setGran {i x} (k : Accesses s t) : Accesses s (t.setGran i x) := k.memory
theorem draw (k : Accesses s t) : Accesses s (Machine.draw t).2 := k.memory

/-- R326: noting that a lost access of an item is recorded. -/
theorem modItem {p seq : Nat} {f : Item → Item} (k : Accesses s t) (unseen : ∀ i, (f i).unseen = i.unseen) :
    Accesses s (t.modItem p seq f) := by
  refine k.trans ⟨rfl, fun q => ?_, fun q j => ?_⟩
  · unfold State.modItem State.modParcel
    by_cases own : q = p
    · rw [own, State.setParcel_parcel_same]
      have items : ((t.parcel p).updItem seq f).items.map Item.unseen = (t.parcel p).items.map Item.unseen := by
        simp only [Parcel.updItem, List.map_map]
        refine List.map_congr_left fun i _ => ?_
        dsimp only [Function.comp]
        split
        · exact unseen i
        · rfl
      unfold Parcel.unaccessed
      rw [items]
      rfl
    · rw [State.setParcel_parcel_other _ _ _ _ own]
  · unfold State.modItem State.modParcel
    by_cases own : q = p
    · rw [own, State.setParcel_parcel_same]
      rfl
    · rw [State.setParcel_parcel_other _ _ _ _ own]

/-! What follows. -/

theorem core (h : Accesses s t) (k : Nat) : t.core k = s.core k := by
  rw [h.rest]
  rfl

theorem bare (h : Accesses s t) (p : Nat) : bare (t.parcel p) = bare (s.parcel p) :=
  congrArg (fun x : Parcel => { x with items := [] }) (h.parcel p)

theorem cores (h : Accesses s t) : t.cores = s.cores := by rw [h.rest]

theorem time (h : Accesses s t) : t.time = s.time := by rw [h.rest]

theorem power (h : Accesses s t) : t.power = s.power := by rw [h.rest]

theorem metas (h : Accesses s t) : t.metas = s.metas := by rw [h.rest]

theorem items (h : Accesses s t) (p : Nat) :
    (t.parcel p).items.map Item.unseen = (s.parcel p).items.map Item.unseen := congrArg Parcel.items (h.parcel p)

/-- An item is the one it was, but for what it has recorded. -/
theorem item (h : Accesses s t) (p seq : Nat) :
    ((t.parcel p).item seq).map Item.unseen = ((s.parcel p).item seq).map Item.unseen := by
  have find (l : List Item) : (l.find? (fun i => i.seq == seq)).map Item.unseen =
      (l.map Item.unseen).find? (fun i => i.seq == seq) := by
    rw [List.find?_map]
    rfl
  rw [Parcel.item, Parcel.item, find, find, h.items]

end Accesses

/-! The operations. -/

section
variable {s₀ s : State}

theorem Accesses.memErr {kind a replays detail c} (hs : Accesses s₀ s) :
    Accesses s₀ (Machine.memErr kind a replays detail c s) := by
  unfold Machine.memErr
  dsimp only
  split
  · exact .logs hs (recordP_logs _ _ _ _ _ _ _ _)
  · exact .logs hs (recordM_logs _ _ _ _)

theorem Accesses.lostAccess {a replays c} (hs : Accesses s₀ s) : Accesses s₀ (Machine.lostAccess a replays c s) := by
  unfold Machine.lostAccess
  split
  · exact .ite hs (.modItem (.memErr hs) fun _ => rfl)
  · exact .memErr hs

theorem Accesses.hbmCount {k which n} (hs : Accesses s₀ s) : Accesses s₀ (Machine.hbmCount k which n s) :=
  .when (.setStack hs) fun hs => .logs hs (recordShared_logs _ _ _ _ _ _)

theorem Accesses.rowNote {a worse} (hs : Accesses s₀ s) : Accesses s₀ (Machine.rowNote a worse s) :=
  .ite (.memory hs) (.memory hs)

theorem Accesses.granCheck {a err exhausted replays c} (hs : Accesses s₀ s) :
    Accesses s₀ (Machine.granCheck a err exhausted replays c s).2.2 :=
  .ite22 (.mk22 (.lostAccess (.when hs fun hs => .memErr hs)))
    (.ite22 (.ite22 (.mk22 (.memErr (.memErr (.hbmCount hs)))) (.ite22 (.mk22 (.memErr (.hbmCount hs))) (.mk22 hs)))
    (.ite22 (.mk22 (.memErr (.hbmCount hs))) (by
    split
    · exact .mk22 hs
    · exact .ite22 (.mk22 hs) (.mk22 (.ite (.rowNote (.hbmCount hs)) (.memErr (.setStack (.rowNote (.hbmCount hs))))))
    · exact .mk22 (.memErr (.rowNote (.hbmCount hs)))
    · exact .mk22 (.memErr (.rowNote (.hbmCount hs))))))

theorem Accesses.rdGran {a c} (hs : Accesses s₀ s) : Accesses s₀ (Machine.rdGran a c s).2.2 := .granCheck hs

theorem Accesses.putGran {a d} (hs : Accesses s₀ s) : Accesses s₀ (Machine.putGran a d s) := .memory hs

theorem Accesses.wrGran {a bs c} (hs : Accesses s₀ s) : Accesses s₀ (Machine.wrGran a bs c s).2 :=
  .ite2 (.mk2 (.lostAccess hs))
    (.ite2 (.mk2 (.putGran hs)) (.ite2 (.mk2 (.putGran (.rdGran hs))) (.mk2 (.rdGran hs))))

theorem Accesses.writeBack {h key} (hs : Accesses s₀ s) : Accesses s₀ (Machine.writeBack h key s) := by
  unfold Machine.writeBack
  dsimp only
  split
  · exact .when hs fun hs => .setGran (.wrGran hs)
  · exact hs

theorem Accesses.touch {h key} (hs : Accesses s₀ s) : Accesses s₀ (Machine.touch h key s) := .setGran hs

theorem Accesses.fillLine {h set tag l} (hs : Accesses s₀ s) : Accesses s₀ (Machine.fillLine h set tag l s) :=
  .touch (.setGran (.writeBack hs))

theorem Accesses.rdLine {p a n alloc c} (hs : Accesses s₀ s) : Accesses s₀ (Machine.rdLine p a n alloc c s).2.2 := by
  unfold Machine.rdLine
  dsimp only
  split
  · exact .mk22 (.rdGran hs)
  · exact .ite22 (.mk22 (.lostAccess hs)) (by
      split
      · exact .mk22 (.touch hs)
      · exact .ite22 (.mk22 (.fillLine (.rdGran hs))) (.mk22 (.rdGran hs)))

theorem Accesses.wrLine {p a bs alloc w c} (hs : Accesses s₀ s) : Accesses s₀ (Machine.wrLine p a bs alloc w c s).2 := by
  unfold Machine.wrLine
  dsimp only
  split
  · exact .wrGran hs
  · exact .ite2 (.mk2 (.lostAccess hs)) (by
      split
      · exact .mk2 (.touch (.setGran hs))
      · exact .ite2 (.wrGran hs)
          (.ite2 (.mk2 (.lostAccess hs))
          (.ite2 (.mk2 (.fillLine hs)) (.ite2 (.mk2 (.fillLine (.rdGran hs))) (.mk2 (.rdGran hs))))))

theorem Accesses.pvReadL {p ten alloc c l acc} (hs : Accesses s₀ s) :
    Accesses s₀ (Machine.pvReadL p ten alloc c l acc s).2.2.2 := by
  induction l generalizing s acc with
  | nil => exact hs
  | cons x l ih =>
    unfold Machine.pvReadL
    split
    · exact hs
    · exact .ite222 (ih (.rdLine hs)) (.mk222 (.rdLine hs))

theorem Accesses.pvRead {p ten v n alloc c} (hs : Accesses s₀ s) : Accesses s₀ (Machine.pvRead p ten v n alloc c s).2.2.2 :=
  .pvReadL hs

theorem Accesses.pvWriteL {p ten alloc w c l bs n} (hs : Accesses s₀ s) :
    Accesses s₀ (Machine.pvWriteL p ten alloc w c l bs n s).2.2.2 := by
  induction l generalizing s bs n with
  | nil => exact hs
  | cons x l ih =>
    unfold Machine.pvWriteL
    split
    · exact hs
    · exact .ite222 (ih (.wrLine hs)) (.mk222 (.wrLine hs))

theorem Accesses.pvWrite {p ten v bs alloc w c} (hs : Accesses s₀ s) :
    Accesses s₀ (Machine.pvWrite p ten v bs alloc w c s).2.2.2 :=
  .pvWriteL hs

theorem Accesses.dropLines {f} (hs : Accesses s₀ s) : Accesses s₀ (Machine.dropLines f s) := .memory hs

theorem Accesses.zeroLot {lot} (hs : Accesses s₀ s) : Accesses s₀ (Machine.zeroLot lot s) := .memory (.dropLines hs)

theorem Accesses.flushGran {h} (hs : Accesses s₀ s) : Accesses s₀ (Machine.flushGran h s) :=
  .setGran (.foldl hs fun _ _ hs => .writeBack hs)

theorem Accesses.zeroGran {h} (hs : Accesses s₀ s) : Accesses s₀ (Machine.zeroGran h s) := .setDie hs

theorem Accesses.flushParcel {p} (hs : Accesses s₀ s) : Accesses s₀ (Machine.flushParcel p s) :=
  .foldl hs fun _ _ hs => .ite (.flushGran hs) (.zeroGran hs)

theorem Accesses.flushItem {p seq} (hs : Accesses s₀ s) : Accesses s₀ (Machine.flushItem p seq s) :=
  .foldl hs fun _ _ hs => .foldl hs fun _ _ hs => .writeBack hs
end

end Sys2Proof.Machine
end

section
/-! SUPPORT. The start of a segment (R44, R150, R167, R267): which cores are ready does not change while they enter it. -/

namespace Sys2Proof.Machine

open Sys2Proof.Claims

/-! The cores of an item, and when they are ready. -/

theorem mem_coresOf {s : State} {p seq k : Nat} :
    k ∈ coresOf s p seq ↔ (s.core k).seq.item.any (fun x => x.1 == p && x.2.1 == seq) = true := by
  rw [coresOf, List.mem_filter, and_iff_right_iff_imp]
  intro runs
  cases listed : tblGet s.cores k with
  | none =>
    rw [State.core, listed] at runs
    cases runs
  | some c =>
    obtain ⟨e, found, -⟩ := Option.map_eq_some_iff.mp listed
    have key : e.1 = k := by simpa using List.find?_some found
    exact List.mem_map.mpr ⟨e, List.mem_of_find?_eq_some found, key⟩

theorem unlanded_iff {s : State} {p seq : Nat} : unlanded s p seq = true ↔
    ∃ k, (s.core k).seq.item.any (fun x => x.1 == p && x.2.1 == seq) = true ∧
      (s.core k).slots.any (fun x => (x.2.active.toList ++ x.2.next.toList).any (fun d => d.landedAt.isNone)) = true := by
  simp only [unlanded, List.any_eq_true (l := coresOf s p seq), mem_coresOf]

theorem foldl_max_le {l : List Nat} {a n : Nat} : l.foldl max a ≤ n ↔ a ≤ n ∧ ∀ x ∈ l, x ≤ n := by
  induction l generalizing a with
  | nil => simp
  | cons x r ih => simp [ih, and_assoc]

/-- The largest of a list depends on its members alone. -/
theorem foldl_max_congr {l m : List Nat} (same : ∀ x, x ∈ l ↔ x ∈ m) (a : Nat) : l.foldl max a = m.foldl max a := by
  refine le_antisymm (foldl_max_le.mpr ?_) (foldl_max_le.mpr ?_)
  · obtain ⟨base, each⟩ := foldl_max_le.mp (le_refl (m.foldl max a))
    exact ⟨base, fun x h => each x ((same x).mp h)⟩
  · obtain ⟨base, each⟩ := foldl_max_le.mp (le_refl (l.foldl max a))
    exact ⟨base, fun x h => each x ((same x).mpr h)⟩

/-- What the readiness of a core looks at, of every core but for its descriptors. -/
structure SameReadiness (c d : Core) : Prop where
  item : c.seq.item = d.seq.item
  h0 : c.seq.h0 = d.seq.h0
  h1 : c.seq.h1 = d.seq.h1
  usable : c.usable = d.usable
  lastLanded : c.lastLanded = d.lastLanded

theorem readyFrom_congr {s t : State} {g : Nat × Nat × Nat} (time : t.time = s.time)
    (cores : ∀ j, SameReadiness (t.core j) (s.core j)) (landed : unlanded t g.1 g.2.1 = unlanded s g.1 g.2.1) (k : Nat) :
    readyFrom t k g = readyFrom s k g := by
  have half : fullHalf (t.core k) g = fullHalf (s.core k) g := by simp only [fullHalf, (cores k).h0, (cores k).h1]
  have cycle : cycleIn t = cycleIn s := by funext x; simp only [cycleIn, time]
  have members (j : Nat) : j ∈ coresOf t g.1 g.2.1 ↔ j ∈ coresOf s g.1 g.2.1 := by
    simp only [mem_coresOf, (cores j).item]
  have last : ((coresOf t g.1 g.2.1).map (fun j => cycleIn s (s.core j).lastLanded + 1)).foldl max 0 =
      ((coresOf s g.1 g.2.1).map (fun j => cycleIn s (s.core j).lastLanded + 1)).foldl max 0 :=
    foldl_max_congr (fun x => by simp only [List.mem_map, members]) 0
  simp only [readyFrom, half, landed, cycle, (cores _).usable, (cores _).lastLanded, last]

/-! Entering a segment. -/

/-- R167: a core that enters segment g ready, or holds for what is not. -/
def enterAs (ready : Bool) (g : Nat × Nat × Nat) (c : Core) : Core :=
  if ready then loadAregs g c
  else { c with seq := { c.seq with st := .hold true c.seq.start, hold := { c.seq.hold with episodes := 1 } } }

theorem enterSegment_eq (k : Nat) (g : Nat × Nat × Nat) (s : State) : enterSegment k g s =
    s.modCore k (enterAs ((readyFrom s k g).any (fun r => decide (r ≤ (s.core k).seq.start))) g) := by
  unfold enterSegment enterAs State.modCore
  dsimp only
  split <;> rfl

theorem loadAregs_seq (g : Nat × Nat × Nat) (c : Core) : (loadAregs g c).seq = c.seq := by
  unfold loadAregs
  split <;> rfl

theorem loadAregs_idem (g : Nat × Nat × Nat) (c : Core) : loadAregs g (loadAregs g c) = loadAregs g c := by
  cases half : fullHalf c g with
  | none =>
    have same : loadAregs g c = c := by rw [loadAregs, half]
    rw [same, same]
  | some h =>
    have again : fullHalf (loadAregs g c) g = some h := by rw [fullHalf, loadAregs_seq, ← fullHalf, half]
    rw [loadAregs, again, loadAregs, half]

theorem enterAs_idem (ready : Bool) (g : Nat × Nat × Nat) (c : Core) : enterAs ready g (enterAs ready g c) = enterAs ready g c := by
  cases ready with
  | false => rfl
  | true => exact loadAregs_idem g c

theorem enterAs_readiness (ready : Bool) (g : Nat × Nat × Nat) (c : Core) : SameReadiness (enterAs ready g c) c := by
  cases ready with
  | false => exact ⟨rfl, rfl, rfl, rfl, rfl⟩
  | true =>
    have seq : (enterAs true g c).seq = c.seq := loadAregs_seq g c
    have usable : (loadAregs g c).usable = c.usable := by unfold loadAregs; split <;> rfl
    have landed : (loadAregs g c).lastLanded = c.lastLanded := by unfold loadAregs; split <;> rfl
    exact ⟨by rw [seq], by rw [seq], by rw [seq], usable, landed⟩

theorem enterAs_start (ready : Bool) (g : Nat × Nat × Nat) (c : Core) : (enterAs ready g c).seq.start = c.seq.start := by
  cases ready with
  | false => rfl
  | true => exact congrArg Seq.start (loadAregs_seq g c)

/-- While the cores of a segment enter it: each is as before, or has entered as its own readiness says. -/
structure Entering (g : Nat × Nat × Nat) (ready : Nat → Bool) (s t : State) : Prop where
  time : t.time = s.time
  core : ∀ j, t.core j = s.core j ∨ t.core j = enterAs (ready j) g (s.core j)

namespace Entering

variable {g : Nat × Nat × Nat} {ready : Nat → Bool} {s t : State}

theorem readiness (h : Entering g ready s t) (j : Nat) : SameReadiness (t.core j) (s.core j) := by
  obtain same | entered := h.core j
  · rw [same]
    exact ⟨rfl, rfl, rfl, rfl, rfl⟩
  · rw [entered]
    exact enterAs_readiness _ _ _

theorem start (h : Entering g ready s t) (j : Nat) : (t.core j).seq.start = (s.core j).seq.start := by
  obtain same | entered := h.core j
  · rw [same]
  · rw [entered, enterAs_start]

/-- R267: a core enters ready only where every descriptor of the item has landed. -/
theorem unlanded (h : Entering g ready s t) (waits : ∀ k, ready k = true → unlanded s g.1 g.2.1 = false) :
    unlanded t g.1 g.2.1 = Machine.unlanded s g.1 g.2.1 := by
  rw [Bool.eq_iff_iff, unlanded_iff, unlanded_iff]
  simp only [(h.readiness _).item]
  constructor
  · rintro ⟨k, own, flight⟩
    refine ⟨k, own, ?_⟩
    obtain same | entered := h.core k
    · rwa [same] at flight
    · cases r : ready k with
      | false =>
        rw [entered, r] at flight
        exact flight
      | true =>
        rw [entered, r, enterAs, if_pos rfl, loadAregs] at flight
        split at flight
        · cases flight
        · exact flight
  · rintro ⟨k, own, flight⟩
    refine ⟨k, own, ?_⟩
    obtain same | entered := h.core k
    · rwa [same]
    · cases r : ready k with
      | false =>
        rw [entered, r]
        exact flight
      | true => exact absurd (unlanded_iff.mpr ⟨k, own, flight⟩) (by simp [waits k r])

theorem readyFrom (h : Entering g ready s t) (waits : ∀ k, ready k = true → Machine.unlanded s g.1 g.2.1 = false) (k : Nat) :
    readyFrom t k g = Machine.readyFrom s k g := readyFrom_congr h.time h.readiness (h.unlanded waits) k

theorem modCore (h : Entering g ready s t) (k : Nat) : Entering g ready s (t.modCore k (enterAs (ready k) g)) := by
  refine ⟨h.time, fun j => ?_⟩
  unfold State.modCore
  by_cases own : j = k
  · rw [own, State.setCore_core_same]
    obtain same | entered := h.core k
    · exact .inr (by rw [same])
    · exact .inr (by rw [entered, enterAs_idem])
  · rw [State.setCore_core_other _ _ _ _ own]
    exact h.core j

end Entering

/-- R167: whether core k may issue plan cycle 0 of segment g in its start cycle. -/
def readyNow (s : State) (g : Nat × Nat × Nat) (k : Nat) : Bool :=
  (readyFrom s k g).any (fun r => decide (r ≤ (s.core k).seq.start))

theorem unlanded_of_readyNow {s : State} {g : Nat × Nat × Nat} {k : Nat} (ready : readyNow s g k = true) :
    unlanded s g.1 g.2.1 = false := by
  rw [readyNow, readyFrom] at ready
  cases h : unlanded s g.1 g.2.1 with
  | false => rfl
  | true =>
    rw [h] at ready
    cases half : fullHalf (s.core k) g <;> rw [half] at ready <;> cases ready

/-- R167: the cores of a segment enter it one after another as they would all at once. -/
theorem foldl_enterSegment (g : Nat × Nat × Nat) (f : Nat → Nat) (l : List Nat) {s t : State}
    (entering : Entering g (readyNow s g) s t) : l.foldl (fun t c => enterSegment (f c) g t) t =
      l.foldl (fun t c => t.modCore (f c) (enterAs (readyNow s g (f c)) g)) t := by
  induction l generalizing t with
  | nil => rfl
  | cons c r ih =>
    have own : enterSegment (f c) g t = t.modCore (f c) (enterAs (readyNow s g (f c)) g) := by
      rw [enterSegment_eq, entering.readyFrom fun _ => unlanded_of_readyNow, entering.start]
      rfl
    rw [List.foldl_cons, List.foldl_cons, own]
    exact ih (entering.modCore (f c))

/-- A fold that changes each named core, by a change that counts once. -/
theorem foldl_modCore_idem {F : Nat → Core → Core} (idem : ∀ k c, F k (F k c) = F k c) (f : Nat → Nat) (l : List Nat) (s : State)
    (k : Nat) : (l.foldl (fun s c => s.modCore (f c) (F (f c))) s).core k = if k ∈ l.map f then F k (s.core k) else s.core k := by
  induction l generalizing s with
  | nil => rfl
  | cons c r ih =>
    rw [List.foldl_cons, ih, State.modCore]
    by_cases own : k = f c
    · have member : f c ∈ (c :: r).map f := List.mem_map_of_mem List.mem_cons_self
      rw [own, State.setCore_core_same, idem, ite_self, if_pos member]
    · rw [State.setCore_core_other _ _ _ _ own]
      simp only [List.map_cons, List.mem_cons, own, false_or]

/-- R167: what the cores of a segment are once all have entered it. -/
theorem enterSegments (g : Nat × Nat × Nat) (f : Nat → Nat) (l : List Nat) (s : State) :
    let t := l.foldl (fun t c => enterSegment (f c) g t) s
    (∀ k ∈ l.map f, t.core k = enterAs (readyNow s g k) g (s.core k)) ∧ t.parcels = s.parcels ∧
      ∀ k, readyFrom t k g = readyFrom s k g := by
  have base : Entering g (readyNow s g) s s := ⟨rfl, fun _ => .inl rfl⟩
  have entering : ∀ (l : List Nat) (t : State), Entering g (readyNow s g) s t →
      Entering g (readyNow s g) s (l.foldl (fun t c => t.modCore (f c) (enterAs (readyNow s g (f c)) g)) t) := by
    intro l
    induction l with
    | nil => exact fun _ h => h
    | cons c r ih => exact fun t h => ih _ (h.modCore (f c))
  intro t
  have atOnce : t = l.foldl (fun t c => t.modCore (f c) (enterAs (readyNow s g (f c)) g)) s := foldl_enterSegment g f l base
  refine ⟨fun k member => ?_, ?_, fun k => ?_⟩
  · rw [atOnce, foldl_modCore_idem (F := fun k => enterAs (readyNow s g k) g) (fun k c => enterAs_idem _ _ c), if_pos member]
  · rw [atOnce]
    exact foldl_keeps (g := State.parcels) (f := fun t c => t.modCore (f c) (enterAs (readyNow s g (f c)) g)) (fun _ _ => rfl) l s
  · rw [atOnce]
    exact (entering l s base).readyFrom (fun _ => unlanded_of_readyNow) k

/-- The readiness of a core depends on the cores and the frame alone. -/
theorem readyFrom_of_cores {s t : State} (cores : t.cores = s.cores) (time : t.time = s.time) (k : Nat) (g : Nat × Nat × Nat) :
    readyFrom t k g = readyFrom s k g := by
  have core (j : Nat) : t.core j = s.core j := by rw [State.core, cores, ← State.core]
  have flight : unlanded t g.1 g.2.1 = unlanded s g.1 g.2.1 := by
    rw [Bool.eq_iff_iff, unlanded_iff, unlanded_iff]
    simp only [core]
  exact readyFrom_congr time (fun j => by rw [core]; exact ⟨rfl, rfl, rfl, rfl, rfl⟩) flight k

/-- R78, R110, R150: each core of a unit is cleared, for a logical core whose place it takes. -/
theorem foldl_clearCore (f : Nat → Nat) (g : Nat × Nat × Nat) (start seed : Nat) {l : List Nat} {c : Nat} (listed : c ∈ l) (s : State) :
    ∃ y, ∃ b ∈ l, f b = f c ∧
      (l.foldl (fun s c => s.modCore (f c) (fun y => clearCore y g start c seed)) s).core (f c) = clearCore y g start b seed := by
  induction l using List.reverseRecOn generalizing s with
  | nil => cases listed
  | append_singleton r a ih =>
    rw [List.foldl_append, List.foldl_cons, List.foldl_nil, State.modCore]
    by_cases own : f c = f a
    · exact ⟨_, a, by simp, own.symm, by rw [own, State.setCore_core_same]⟩
    · rw [State.setCore_core_other _ _ _ _ own]
      have before : c ∈ r := (List.mem_append.mp listed).resolve_right fun last => own (by rw [List.mem_singleton.mp last])
      obtain ⟨y, b, member, place, cleared⟩ := ih before s
      exact ⟨y, b, List.mem_append_left _ member, place, cleared⟩

/-- R78, R110, R150: what a core that has entered a segment from cleared units reads. -/
theorem enterAs_clearCore (ready : Bool) (y : Core) (p seq seg start lc seed : Nat) :
    let g := (p, seq, seg)
    let d := enterAs ready g (clearCore y g start lc seed)
    d.seq.item = some g ∧ d.seq.start = start ∧ d.seq.plan = 0 ∧ d.arrays = [] ∧ d.ops = [] ∧ d.due = [] ∧
      d.vregs = List.replicate 64 0 ∧ d.mregs = List.replicate 8 0 ∧
      d.rng = (List.range 256).map (rngInit (BitVec.ofNat 32 seed) seg lc) ∧
      d.seq.st = (if ready then .issuing else .hold true start) ∧
      ∀ h, ready = true → fullHalf d g = some h → d.slots = [] ∧ ∀ a, a < 32 → d.areg a = if a = 0 then 0 else nth h.aregs a 0 := by
  intro g d
  cases ready with
  | false => exact ⟨rfl, rfl, rfl, rfl, rfl, rfl, rfl, rfl, rfl, rfl, nofun⟩
  | true =>
    have loaded : d = loadAregs g (clearCore y g start lc seed) := rfl
    cases half : fullHalf (clearCore y g start lc seed) g with
    | none =>
      have same : d = clearCore y g start lc seed := by rw [loaded, loadAregs, half]
      rw [same, half]
      exact ⟨rfl, rfl, rfl, rfl, rfl, rfl, rfl, rfl, rfl, rfl, nofun⟩
    | some h =>
      have again : fullHalf d g = some h := by rw [loaded, fullHalf, loadAregs_seq, ← fullHalf, half]
      rw [loadAregs, half] at loaded
      rw [again, loaded]
      refine ⟨rfl, rfl, rfl, rfl, rfl, rfl, rfl, rfl, rfl, rfl, fun h' _ found => ⟨rfl, fun a small => ?_⟩⟩
      obtain rfl := Option.some.inj found
      unfold Core.areg
      by_cases zero : a = 0
      · rw [if_pos zero, if_pos zero]
      · rw [if_neg zero, if_neg zero]
        simp [nth, zero, small]

/-- R424, R427: the mapping of windows after accesses leaves the time and the items. -/
theorem windowMap_keeps {s : State} {w : MRes × Nat × Nat × State} (built : Accesses s w.2.2.2) (p : Nat) (reg : Reg) (i : Item) :
    (w.1, w.2.1, w.2.2.2.modParcel p (windowMap reg i)).2.2.time = s.time ∧ ∀ q n,
      (((w.1, w.2.1, w.2.2.2.modParcel p (windowMap reg i)).2.2.parcel q).item n).map Item.unseen =
        ((s.parcel q).item n).map Item.unseen := by
  refine ⟨built.time, fun q n => ?_⟩
  rw [← built.item]
  dsimp only
  unfold State.modParcel
  by_cases own : q = p
  · rw [own, State.setParcel_parcel_same]
    rfl
  · rw [State.setParcel_parcel_other _ _ _ _ own]

/-- R427: the batch of an item, once it is built, leaves the time and the items. -/
theorem batchStart_keeps (p : Nat) (i : Item) (s : State) : (batchStart p i s).2.2.time = s.time ∧
    ∀ q n, (((batchStart p i s).2.2.parcel q).item n).map Item.unseen = ((s.parcel q).item n).map Item.unseen := by
  unfold batchStart
  split
  · split
    · exact ⟨rfl, fun _ _ => rfl⟩
    · exact windowMap_keeps (.pvWrite (.refl s)) _ _ _
  · exact ⟨rfl, fun _ _ => rfl⟩

/-- R307: the note of a grade leaves cores, time and items. -/
theorem thermNote_keeps (p : Nat) (v : Plan) (s : State) : (thermNote p v s).cores = s.cores ∧ (thermNote p v s).time = s.time ∧
    ∀ n, ((thermNote p v s).parcel p).item n = (s.parcel p).item n := by
  refine ⟨rfl, rfl, fun n => ?_⟩
  unfold thermNote State.modParcel
  dsimp only
  rw [State.setParcel_parcel_same]
  split <;> rfl

/-- R44, R335: an item whose segment runs from cycle `start` of this frame. -/
def segmentRunning (start pm : Nat) (cursors : Tbl Nat) (i : Item) : Item := { i with
  begun := true, segRunning := true, segStart := start, segFrame := pm, reissuePending := false
  cursors := cursors, exc := if i.begun then i.exc else [0, 0, 0, 0] }

/-- An item put in the place of the one with its number. -/
theorem State.modItem_item_const {s : State} {p seq : Nat} {j : Item} (found : ((s.parcel p).item seq).isSome = true)
    (own : j.seq = seq) : ((s.modItem p seq (fun _ => j)).parcel p).item seq = some j := by
  obtain ⟨i, found⟩ := Option.isSome_iff_exists.mp found
  have key : ((fun i : Item => i.seq == seq) ∘ fun i => if (i.seq == seq) = true then j else i) = fun i => i.seq == seq := by
    funext k
    dsimp only [Function.comp]
    split
    next h => rw [h, own, beq_self_eq_true]
    next h => rfl
  have named : (i.seq == seq) = true := by simpa using List.find?_some found
  unfold State.modItem State.modParcel
  rw [State.setParcel_parcel_same]
  rw [Parcel.item] at found ⊢
  unfold Parcel.updItem
  dsimp only
  rw [List.find?_map, key, found]
  simp only [Option.map_some, named, if_true]

/-- R44, R150, R167: SEGMENT_START of an item that may start, on cores that are all up. -/
theorem segmentStart_starts {p seq start : Nat} {i : Item} {v : Plan} {lcs : List Nat} {s : State}
    (found : (s.parcel p).item seq = some i) (bound : s.planFor p i = some v) (may : mayStart s p i v start = true)
    (kind : i.kind = .plan ∨ ∃ r, i.kind = .batch r) (unit : unitCores (s.parcel p) v.unit = some lcs)
    (up : ∀ c ∈ lcs, coreUp s ((s.parcel p).phys c) = true)
    (built : i.begun = true ∨ (batchStart p i (s.atCycle start)).1 = .ok) : ∃ (u : State) (cursors : Tbl Nat),
      u.time = (s.atCycle start).time ∧
      (∀ q n, ((u.parcel q).item n).map Item.unseen = ((s.parcel q).item n).map Item.unseen) ∧
      exec (.segmentStart p seq start) s = .next (refresh (thermNote p v
        (lcs.foldl (fun t c => enterSegment ((s.parcel p).phys c) (p, seq, i.seg) t)
          (lcs.foldl (fun t c => t.modCore ((s.parcel p).phys c) (fun y => clearCore y (p, seq, i.seg) start c v.seed))
            (u.modItem p seq (fun _ => segmentRunning start s.time.postmark cursors i)))))) := by
  have plan : i.isPlan = true := by
    unfold Item.isPlan
    obtain one | ⟨r, many⟩ := kind
    · rw [one]
    · rw [many]
  have all : lcs.find? (fun c => !coreUp (s.atCycle start) ((s.parcel p).phys c)) = none :=
    List.find?_eq_none.mpr fun c own => by
      have stands : coreUp (s.atCycle start) ((s.parcel p).phys c) = true := up c own
      simp [stands]
  change ∃ (u : State) (cursors : Tbl Nat), _ ∧ _ ∧ execSegmentStart p seq start s = _
  unfold execSegmentStart
  rw [found]
  dsimp only
  rw [bound]
  dsimp only
  rw [may, plan, if_neg (by decide), State.atCycle_parcel, unit, Option.getD_some, all]
  dsimp only
  by_cases begun : i.begun = true
  · refine ⟨s.atCycle start, i.cursors, rfl, fun _ _ => rfl, ?_⟩
    simp only [segmentRunning, begun, if_true, bne_self_eq_false, Bool.false_eq_true, if_false, fin, State.atCycle_time]
  · obtain ⟨time, items⟩ := batchStart_keeps p i (s.atCycle start)
    have ok := built.resolve_left begun
    refine ⟨(batchStart p i (s.atCycle start)).2.2, lcs.map (fun c => (c, (tblGet (s.parcel p).cursors c).getD 0)), time, items, ?_⟩
    simp only [segmentRunning, begun, ok, time, bne_self_eq_false, Bool.false_eq_true, if_false, fin, State.atCycle_time]

end Sys2Proof.Machine

open Sys2Proof Sys2Proof.Machine

/-- Settles O15: the command leads where `segmentStart_starts` says, and its cores enter the segment as they would all at once. -/
theorem segmentStartCompletes : Obligations.SegmentStartCompletes := by
  intro p seq start i v lcs s found bound may kind unit up built
  obtain ⟨u, cursors, time, items, runs⟩ := segmentStart_starts found bound may kind unit up built
  have before : ((u.parcel p).item seq).isSome = true := by
    have same := congrArg Option.isSome (items p seq)
    simpa [found] using same
  have own : i.seq = seq := by simpa using List.find?_some found
  have item := State.modItem_item_const (j := segmentRunning start s.time.postmark cursors i) before own
  generalize u.modItem p seq (fun _ => segmentRunning start s.time.postmark cursors i) = s1 at runs item
  have cleared {c : Nat} (listed : c ∈ lcs) := foldl_clearCore (s.parcel p).phys (p, seq, i.seg) start v.seed listed s1
  have parcels := foldl_keeps (g := State.parcels)
    (f := fun t c => t.modCore ((s.parcel p).phys c) (fun y => clearCore y (p, seq, i.seg) start c v.seed)) (fun _ _ => rfl) lcs s1
  generalize lcs.foldl (fun t c => t.modCore ((s.parcel p).phys c) (fun y => clearCore y (p, seq, i.seg) start c v.seed)) s1 = s2
    at runs cleared parcels
  have entry := enterSegments (p, seq, i.seg) (s.parcel p).phys lcs s2
  generalize lcs.foldl (fun t c => enterSegment ((s.parcel p).phys c) (p, seq, i.seg) t) s2 = s3 at runs entry
  obtain ⟨entered, parcels3, ready3⟩ := entry
  obtain ⟨cores4, time4, items4⟩ := thermNote_keeps p v s3
  have shown := (refresh_signals (thermNote p v s3)).eqs
  have cores5 : (refresh (thermNote p v s3)).cores = s3.cores := by rw [← cores4]; tauto
  have time5 : (refresh (thermNote p v s3)).time = s3.time := by rw [← time4]; tauto
  have parcels5 := (refresh_signals (thermNote p v s3)).parcels
  generalize refresh (thermNote p v s3) = t at runs cores5 time5 parcels5
  have core5 (k : Nat) : t.core k = s3.core k := by rw [State.core, cores5, ← State.core]
  refine ⟨t, runs, fun c listed => ?_, segmentRunning start s.time.postmark cursors i, ?_, rfl, rfl, rfl, rfl, rfl⟩
  · obtain ⟨y, b, member, place, core2⟩ := cleared listed
    have core3 := entered _ (List.mem_map_of_mem listed)
    have start2 : (s2.core ((s.parcel p).phys c)).seq.start = start := by rw [core2]; rfl
    have ready : (readyFrom t ((s.parcel p).phys c) (p, seq, i.seg)).any (fun r => decide (r ≤ start)) =
        readyNow s2 (p, seq, i.seg) ((s.parcel p).phys c) := by
      rw [readyFrom_of_cores cores5 time5, ready3, readyNow, start2]
    have is := enterAs_clearCore (readyNow s2 (p, seq, i.seg) ((s.parcel p).phys c)) y p seq i.seg start b v.seed
    dsimp only at is ⊢
    rw [core5, core3, core2, ready]
    obtain ⟨item, started, plan, arrays, ops, due, vregs, mregs, rng, st, loaded⟩ := is
    exact ⟨item, started, plan, arrays, ops, due, vregs, mregs, fun only => only b member place ▸ rng, st, loaded⟩
  · rw [State.parcel, parcels5, ← State.parcel, items4, State.parcel, parcels3, parcels, ← State.parcel, item]
end

section
/-! SUPPORT. Fills of sequencer halves, holds and deadlocks (R165 to R174, R275, R276). -/

namespace Sys2Proof.Machine

/-- R536: a row about a core that has not stopped. -/
theorem withLate_running {k u : Nat} {row : State → Host.Outcome State Fault Refusal} {s : State}
    (running : (s.core k).seq.st ≠ .idle) : withLate k u row s = row s := by
  have alive : reviveAt k u s = none := by
    unfold reviveAt
    simp [running]
  rw [withLate, alive]

theorem Seq.firstFills_iff (q : Seq) : q.firstFills = true ↔ q.h0.filling = true ∧ (q.h1.filling = false ∨ q.h1.later = true) := by
  simp [Seq.firstFills]

/-- R185: an error of a bundle or of a descriptor in one half of a sequencer. -/
def upsetOfHalf (second : Bool) : Upset → Bool
  | .bundle b _ | .entry b _ => b == second
  | _ => false

theorem not_upsetOfHalf_iff (second : Bool) (u : Upset) :
    (!upsetOfHalf second u) = true ↔ ∀ n, u ≠ .bundle second n ∧ u ≠ .entry second n := by
  cases u <;> simp [upsetOfHalf]

/-- R166: a core whose free half begins to fill with a segment as it has been read. -/
def fillHalf (h : SeqHalf) (c : Core) : Core :=
  ({ c with seq := if c.seq.h0.seg.isSome then { c.seq with h1 := h }
      else { c.seq with h0 := h, h1 := { c.seq.h1 with later := false } } } : Core).heal (upsetOfHalf c.seq.h0.seg.isSome)

/-- R166: SEQUENCER_FILL_START of a half that is free, with a segment that reads sound. -/
theorem fillStart_reads {k : Nat} {g : Nat × Nat × Nat} {i : Item} {v : Plan} {s : State} {r : MRes × Nat × SeqHalf × State}
    (next : nextFill s k = some g) (open_ : ((s.core k).seq.h0.seg == some g || (s.core k).seq.h1.seg == some g ||
      ((s.core k).seq.h0.seg.isSome && (s.core k).seq.h1.seg.isSome)) = false)
    (found : (s.parcel g.1).item g.2.1 = some i) (bound : s.planFor g.1 i = some v)
    (read : readSegment g.1 i v (((s.parcel g.1).logical k).getD 0xFFFF) g.2.2 s = r) (ok : r.1 = .ok) :
    execSequencerFillStart k s = .next (r.2.2.2.modCore k (fillHalf r.2.2.1)) := by
  unfold execSequencerFillStart
  rw [next]
  dsimp only
  rw [open_, found]
  dsimp only
  rw [bound]
  dsimp only
  rw [read, ok]
  rfl

theorem fillHalf_eq (h : SeqHalf) (c : Core) : fillHalf h c = { c with
    upsets := c.upsets.filter (fun u => !upsetOfHalf c.seq.h0.seg.isSome u)
    seq := if c.seq.h0.seg = none then { c.seq with h0 := h, h1 := { c.seq.h1 with later := false } }
      else { c.seq with h1 := h } } := by
  unfold fillHalf
  cases held : c.seq.h0.seg with
  | none => rfl
  | some g => rfl

/-- R166: what a free half and the segment's errors are once the fill has begun. -/
theorem fillStart_completes {k : Nat} {g : Nat × Nat × Nat} {i : Item} {v : Plan} {s : State} {r : MRes × Nat × SeqHalf × State}
    (next : nextFill s k = some g) (other0 : (s.core k).seq.h0.seg ≠ some g) (other1 : (s.core k).seq.h1.seg ≠ some g)
    (free : (s.core k).seq.h0.seg = none ∨ (s.core k).seq.h1.seg = none)
    (found : (s.parcel g.1).item g.2.1 = some i) (bound : s.planFor g.1 i = some v)
    (read : readSegment g.1 i v (((s.parcel g.1).logical k).getD 0xFFFF) g.2.2 s = r) : r.1 = .ok →
      let c := r.2.2.2.core k
      ∃ us, exec (.sequencerFillStart k) s = .next (r.2.2.2.setCore k { c with
          upsets := us
          seq := if c.seq.h0.seg = none then { c.seq with h0 := r.2.2.1, h1 := { c.seq.h1 with later := false } }
            else { c.seq with h1 := r.2.2.1 } }) ∧
        ∀ u, u ∈ us ↔ u ∈ c.upsets ∧ ∀ n, u ≠ .bundle c.seq.h0.seg.isSome n ∧ u ≠ .entry c.seq.h0.seg.isSome n := by
  intro ok c
  have open_ : ((s.core k).seq.h0.seg == some g || (s.core k).seq.h1.seg == some g ||
      ((s.core k).seq.h0.seg.isSome && (s.core k).seq.h1.seg.isSome)) = false := by
    rcases free with h | h <;> simp [other0, other1, h]
  have runs := fillStart_reads next open_ found bound read ok
  rw [State.modCore, fillHalf_eq] at runs
  exact ⟨_, runs, fun u => by rw [List.mem_filter, not_upsetOfHalf_iff]⟩

/-- R276: a descriptor of a core that waits for a core which holds too. -/
def stuckWith (s : State) (p lc : Nat) (d : Desc) : Bool :=
  d.far == 2 && !d.moved && (partnerOf s p lc d).isNone &&
    (match (s.core ((s.parcel p).phys d.partner)).seq.st with | .hold _ _ => true | _ => false)

/-- R275, R276: a core in a deadlock that no overrun comes before. -/
theorem deadlockRow_fails {k at_ since p : Nat} {i : Item} {v : Plan} {slot : Nat} {d : Desc} {s : State}
    (held : (s.core k).seq.st = .hold false since) (runs : runOf s k = some (p, i, some v))
    (awaits : lowest (awaited (s.core k)) = some (slot, d))
    (stuck : (awaited (s.core k)).all (fun x => stuckWith s p (((s.parcel p).logical k).getD 0xFFFF) x.2) = true)
    (long : since + ((awaited (s.core k)).map (fun x => x.2.waitBound)).foldl min (2 ^ 32 - 1) ≤ at_ + 1)
    (within : ((coresOf s p i.seq).map (fun j => heldAt (s.core j) at_)).foldl max 0 ≤ imgH v.image i.seg) :
    ∃ body bodyTen, let s1 := recordP evStreamDeadlock p i.tenancy i.seq 12 body bodyTen (s.atCycle at_)
      deadlockRow k at_ s = .next (refresh (failOn k .streamDeadlock 5 slot (tenTail s1 p i.tenancy) s1)) := by
  have both : (decide (since + ((awaited (s.core k)).map (fun x => x.2.waitBound)).foldl min (2 ^ 32 - 1) ≤ at_ + 1) &&
      (awaited (s.core k)).all (fun x => stuckWith s p (((s.parcel p).logical k).getD 0xFFFF) x.2)) = true := by
    rw [stuck, decide_eq_true long]
    rfl
  unfold stuckWith at both
  unfold deadlockRow
  dsimp only
  rw [runs, held]
  dsimp only
  rw [awaits]
  dsimp only
  have none : ¬ imgH v.image i.seg <
      ((coresOf (s.atCycle at_) p i.seq).map (fun j => heldAt ((s.atCycle at_).core j) at_)).foldl max 0 := Nat.not_lt.mpr within
  split
  next => exact ⟨_, _, rfl⟩
  next none => exact absurd both none

end Sys2Proof.Machine

open Sys2Proof Sys2Proof.Machine

/-- Settles O16: the free half of a core is the second where the first holds a segment; the half that fills first is complete
first. -/
theorem sequencerFillsComplete : Obligations.SequencerFillsComplete := by
  refine ⟨fun k g i v s next other0 other1 free found bound => ?_, fun k at_ s => ?_⟩
  · exact fillStart_completes next other0 other1 free found bound rfl
  · intro full q first
    have runs : exec (.sequencerFillComplete k at_) s = .next ((s.atCycle at_).setCore k { s.core k with
        seq := if q.firstFills then { q with h0 := full q.h0 } else { q with h1 := full q.h1 } }) := rfl
    have turn : q.firstFills = true ↔ first := Seq.firstFills_iff q
    refine ⟨fun h => ?_, fun h => ?_⟩
    · rw [runs, if_pos (turn.mpr h)]
    · rw [runs, if_neg (mt turn.mp h)]

/-- Settles O17: the rows of a hold under their conditions. -/
theorem holdsComplete : Obligations.HoldsComplete := by
  intro k at_ fill since p i v g s held runs item
  refine ⟨fun resumes within => ?_, fun real after bound => ?_⟩
  · change execHoldResume k at_ s = _
    unfold execHoldResume
    simp only [held, runs, item, resumes, bne_self_eq_false, Bool.false_eq_true, if_false, if_neg (Nat.not_lt.mpr within), beq_iff_eq,
      fin]
  · change execHoldBoundExceeded k at_ s = _
    have running : (s.core k).seq.st ≠ .idle := by rw [held]; nofun
    rw [execHoldBoundExceeded, withLate_running running, boundRow]
    simp only [held, runs, real, decide_eq_true after, bound, beq_self_eq_true, Bool.and_self, if_true, fin]

/-- Settles O19: the row of a deadlock under its conditions. -/
theorem deadlocksEndItems : Obligations.DeadlocksEndItems := by
  intro k at_ since p i v slot d s held runs awaits stuck long within
  have running : (s.core k).seq.st ≠ .idle := by rw [held]; nofun
  have all : (awaited (s.core k)).all (fun x => stuckWith s p (((s.parcel p).logical k).getD 0xFFFF) x.2) = true := by
    refine List.all_eq_true.mpr fun x listed => ?_
    obtain ⟨far, still, alone, f, u, holds⟩ := stuck x listed
    rw [stuckWith, far, still, alone, holds]
    rfl
  obtain ⟨body, bodyTen, fails⟩ := deadlockRow_fails held runs awaits all long within
  exact ⟨body, bodyTen, (withLate_running running).trans fails⟩
end

section
/-! SUPPORT. Descriptors that land, and the bursts of a cycle (R264 to R269, R283, R301). -/

namespace Sys2Proof.Machine

theorem runOf_item {s : State} {k : Nat} {x : Nat × Item × Option Plan} (runs : runOf s k = some x) :
    (s.core k).seq.item.isSome = true := by
  unfold runOf at runs
  split at runs
  next held => rw [held]; rfl
  next => cases runs

/-- R536: a row about a core that has an item. -/
theorem withLate_item {k u : Nat} {row : State → Host.Outcome State Fault Refusal} {s : State}
    (item : (s.core k).seq.item.isSome = true) : withLate k u row s = row s := by
  have alive : reviveAt k u s = none := by
    obtain ⟨g, held⟩ := Option.isSome_iff_exists.mp item
    unfold reviveAt
    simp [held]
  rw [withLate, alive]

/-! Landing (R264, R269). -/

/-- R264, R269: the core of a slot whose active descriptor is complete and has landed. -/
def landedCore (slot completeAt landedAt pm : Nat) (c : Core) : Core :=
  reviewHold (releaseSlot slot { c with
    gone := c.gone ++ ((c.slot slot).active.map (fun d =>
      (slot, { d with completeAt := some completeAt, landedAt := some landedAt }))).toList
    lastLanded := later c.lastLanded (pm, landedAt) })

theorem markLanded_eq (k slot completeAt landedAt : Nat) (s : State) : markLanded k slot completeAt landedAt s =
    match ((s.modCore k (landedCore slot completeAt landedAt s.time.postmark)).core k).seq.item with
    | some (p, seq, _) => tryComplete p seq (s.modCore k (landedCore slot completeAt landedAt s.time.postmark))
    | none => s.modCore k (landedCore slot completeAt landedAt s.time.postmark) := rfl

theorem reviewHold_slots (c : Core) : (reviewHold c).slots = c.slots := by
  unfold reviewHold
  split
  · split <;> rfl
  · rfl

theorem reviewHold_item (c : Core) : (reviewHold c).seq.item = c.seq.item := by
  unfold reviewHold
  split
  · split <;> rfl
  · rfl

theorem releaseSlot_seq (slot : Nat) (c : Core) : (releaseSlot slot c).seq = c.seq := by
  unfold releaseSlot
  split <;> rfl

theorem releaseSlot_slot (slot : Nat) (c : Core) :
    (releaseSlot slot c).slot slot = { active := (c.slot slot).next, next := none } := by
  unfold releaseSlot
  cases next : (c.slot slot).next with
  | some d => exact Core.setSlot_slot_same _ _ _
  | none =>
    dsimp only
    rw [Core.slot, tblGet_del_same]
    rfl

theorem landedCore_item (slot completeAt landedAt pm : Nat) (c : Core) :
    (landedCore slot completeAt landedAt pm c).seq.item = c.seq.item := by
  rw [landedCore, reviewHold_item, releaseSlot_seq]

theorem landedCore_slot (slot completeAt landedAt pm : Nat) (c : Core) :
    (landedCore slot completeAt landedAt pm c).slot slot = { active := (c.slot slot).next, next := none } := by
  rw [landedCore, Core.slot, reviewHold_slots, ← Core.slot, releaseSlot_slot]
  rfl

/-- R267: an item whose segment runs does not complete. -/
theorem tryComplete_running {s : State} {p seq : Nat} {i : Item} (found : (s.parcel p).item seq = some i)
    (running : i.segRunning = true) : tryComplete p seq s = s := by
  unfold tryComplete
  rw [found]
  dsimp only
  split
  · rfl
  · rw [running]
    rfl

/-- R269: the slot's next descriptor is active at once, while the item's segment runs. -/
theorem markLanded_slot {k slot completeAt landedAt : Nat} {s : State} {g : Nat × Nat × Nat} {j : Item}
    (item : (s.core k).seq.item = some g) (found : (s.parcel g.1).item g.2.1 = some j) (running : j.segRunning = true) :
    ((markLanded k slot completeAt landedAt s).core k).slot slot = { active := ((s.core k).slot slot).next, next := none } := by
  have own : (s.modCore k (landedCore slot completeAt landedAt s.time.postmark)).core k =
      landedCore slot completeAt landedAt s.time.postmark (s.core k) := State.setCore_core_same _ _ _
  have still := tryComplete_running (s := s.modCore k (landedCore slot completeAt landedAt s.time.postmark)) found running
  rw [markLanded_eq, own, landedCore_item, item]
  dsimp only
  rw [still, own, landedCore_slot]

/-- R264, R265: an active descriptor that no earlier one must come before, and whose bytes have moved. -/
theorem descriptorLanded_done {k slot completeAt landedAt p : Nat} {i : Item} {v : Plan} {d : Desc} {s : State} {r : Moved × State}
    (runs : runOf s k = some (p, i, some v)) (order : completeAt ≤ landedAt) (inbound : d.inbound = true → landedAt = completeAt)
    (active : ((s.core k).slot slot).active = some d)
    (first : ∀ g ∈ (s.core k).gone, g.1 = slot → ∀ l, g.2.landedAt = some l → l < completeAt)
    (free : blocked s p k (((s.parcel p).logical k).getD 0xFFFF) v d = false)
    (moved : moveDesc p k (((s.parcel p).logical k).getD 0xFFFF) slot i v d (s.atCycle landedAt) = r) (done : r.1 = .done) :
    exec (.descriptorLanded k slot completeAt landedAt) s = .next (refresh (markLanded k slot completeAt landedAt r.2)) := by
  have together : (d.inbound && landedAt != completeAt) = false := by
    cases dir : d.inbound with
    | false => rfl
    | true => simp [inbound dir]
  have earlier : landedBefore? (s.core k) slot completeAt = false := by
    refine List.any_eq_false.mpr fun g listed => ?_
    simp only [Bool.and_eq_true, beq_iff_eq, not_and]
    intro own
    cases at_ : g.2.landedAt with
    | none => simp
    | some l => simpa using first g listed own l at_
  change execDescriptorLanded k slot completeAt landedAt s = _
  rw [execDescriptorLanded, withLate_item (runOf_item runs), landRow]
  dsimp only
  rw [runs, active]
  dsimp only
  rw [together, earlier, free, decide_eq_false (Nat.not_lt.mpr order), moved, done]
  rfl

/-! The failures of one cycle (R301). -/

/-- The item of a failed burst. -/
def FailedBurst.key (f : FailedBurst) : Nat × Nat := (f.parcel, f.seq)

/-- R301: one failure stays of each item that has not been seen. -/
theorem firstOfItem_spec (l : List FailedBurst) (seen : List (Nat × Nat)) :
    (firstOfItem l seen).Pairwise (fun a b => a.key ≠ b.key) ∧ (∀ f ∈ firstOfItem l seen, f.key ∉ seen) ∧
      ∀ f ∈ l, f.key ∈ seen ∨ ∃ g ∈ firstOfItem l seen, g.key = f.key := by
  induction l generalizing seen with
  | nil => exact ⟨.nil, nofun, nofun⟩
  | cons f r ih =>
    rw [firstOfItem]
    split
    next known =>
      have member : f.key ∈ seen := List.contains_iff_mem.mp known
      obtain ⟨apart, fresh, all⟩ := ih seen
      refine ⟨apart, fresh, fun g listed => ?_⟩
      obtain rfl | later := List.mem_cons.mp listed
      · exact .inl member
      · exact all g later
    next unknown =>
      have fresh : f.key ∉ seen := fun h => unknown (List.contains_iff_mem.mpr h)
      obtain ⟨apart, further, all⟩ := ih (f.key :: seen)
      refine ⟨List.pairwise_cons.mpr ⟨fun g listed same => further g listed (by simp [← same]), apart⟩, fun g listed => ?_,
        fun g listed => ?_⟩
      · obtain rfl | later := List.mem_cons.mp listed
        · exact fresh
        · exact fun h => further g later (List.mem_cons_of_mem _ h)
      · obtain rfl | later := List.mem_cons.mp listed
        · exact .inr ⟨g, List.mem_cons_self, rfl⟩
        · obtain old | ⟨x, here, same⟩ := all g later
          · obtain own | before := List.mem_cons.mp old
            · exact .inr ⟨f, List.mem_cons_self, own.symm⟩
            · exact .inl before
          · exact .inr ⟨x, List.mem_cons_of_mem _ here, same⟩

/-! Write bursts (R248, R265, R297). -/

theorem agentOf_item {s : State} {k slot : Nat} {x : Nat × Item × Plan × Desc} (agent : agentOf s k slot = some x) :
    (s.core k).seq.item.isSome = true := by
  unfold agentOf at agent
  split at agent
  next runs _ => exact runOf_item runs
  next => cases agent

/-- R297: a write burst of a core's outbound descriptor, within a run of it and within a line, that no earlier write must come
before. -/
theorem writeRow_stores {w : HbmWrite} {q slot : Nat} {i : Item} {v : Plan} {d : Desc} {s : State} (good : s.power.good = true)
    (owner : ownerOf s w.addr = some (q, slot)) (agent : agentOf (s.atCycle w.cycle) w.core w.slot = some (q, i, v, d))
    (outbound : d.inbound = false)
    (covers : d.runs.any (fun r => decide (r.1 ≤ slot * 2 ^ 30 + w.addr % 2 ^ 30) &&
      decide (slot * 2 ^ 30 + w.addr % 2 ^ 30 + w.data.length ≤ r.1 + d.n0)) = true)
    (owns : (lotAt s (w.addr / 2 ^ 30)).any (fun e => e.2.2.owner == i.tenancy) = true)
    (room : w.addr % 256 + w.data.length ≤ 256) (whole : w.exhausted = false)
    (free : blocked (s.atCycle w.cycle) q w.core (((s.parcel q).logical w.core).getD 0xFFFF) v d = false)
    {x : MRes × State} (stored : wrLine q w.addr w.data (d.policy == 0) (q, i.seq) { ten := i.tenancy, seq := i.seq, quiet := true }
      (writeReplays w { ten := i.tenancy, seq := i.seq, quiet := true } (s.atCycle w.cycle)) = x) (ok : x.1 = .ok) :
    writeRow w s = .next (refresh x.2) := by
  have owner' : ownerOf (s.atCycle w.cycle) w.addr = some (q, slot) := owner
  have owns' : (lotAt (s.atCycle w.cycle) (w.addr / 2 ^ 30)).any (fun e => e.2.2.owner == i.tenancy) = true := owns
  unfold writeRow
  dsimp only
  rw [good, owner']
  dsimp only
  rw [agent]
  dsimp only
  rw [State.atCycle_parcel, bne_self_eq_false, outbound, covers, owns', decide_eq_false (Nat.not_lt.mpr room), free, whole, stored]
  simp only [Bool.not_true, Bool.false_eq_true, if_false, Bool.or_self, ok, beq_self_eq_true, if_true, fin]

/-- R285: a write burst of no core. -/
theorem writeRow_engine {w : HbmWrite} {q slot : Nat} {s : State} (good : s.power.good = true)
    (owner : ownerOf s w.addr = some (q, slot)) (noCore : w.core = 0xFFFF) (agent : agentOf (s.atCycle w.cycle) w.core w.slot = none)
    {x : State} (replayed : writeReplays w (engineCtx true (s.atCycle w.cycle) w.addr) (s.atCycle w.cycle) = x) : writeRow w s =
      .next (refresh (if w.exhausted then collFault q slot w.addr .lost (updFault true q slot w.addr .lost x) else x)) := by
  have owner' : ownerOf (s.atCycle w.cycle) w.addr = some (q, slot) := owner
  unfold writeRow
  dsimp only
  rw [good, owner']
  dsimp only
  rw [agent]
  dsimp only
  rw [noCore, bne_self_eq_false, replayed]
  rfl

end Sys2Proof.Machine

open Sys2Proof Sys2Proof.Machine

/-- Settles O18: the row of a landing under its conditions, and what `markLanded` leaves in the slot. -/
theorem descriptorsLand : Obligations.DescriptorsLand := by
  intro k slot completeAt landedAt p i v d s runs order inbound active first lc free r done
  exact ⟨descriptorLanded_done runs order inbound active first free rfl done,
    fun g j item found running => markLanded_slot item found running⟩

/-- Settles O23: the row of the reads, `firstOfItem_spec`, and the rows of a write under their conditions. -/
theorem hbmBurstsComplete : Obligations.HbmBurstsComplete := by
  refine ⟨fun cycle rs s good => ?_, fun l => ?_, fun w q slot i v d s good owner agent outbound covers owns room whole free => ?_,
    fun w q slot s good owner noCore agent unseen => ?_⟩
  · change execHbmReadComplete cycle rs s = _
    rw [execHbmReadComplete, good]
    rfl
  · obtain ⟨apart, -, all⟩ := firstOfItem_spec l []
    exact ⟨apart, fun f listed => (all f listed).resolve_left (List.not_mem_nil)⟩
  · intro c x ok
    have runs : d.runs.any (fun r => decide (r.1 ≤ slot * 2 ^ 30 + w.addr % 2 ^ 30) &&
        decide (slot * 2 ^ 30 + w.addr % 2 ^ 30 + w.data.length ≤ r.1 + d.n0)) = true := by
      obtain ⟨r, listed, lo, hi⟩ := covers
      exact List.any_eq_true.mpr ⟨r, listed, by simp only [lo, hi, decide_true, Bool.and_self]⟩
    have own : (lotAt s (w.addr / 2 ^ 30)).any (fun e => e.2.2.owner == i.tenancy) = true := by
      obtain ⟨e, at_, owner⟩ := owns
      rw [at_, Option.any_some, owner, beq_self_eq_true]
    have item : (s.core w.core).seq.item.isSome = true := agentOf_item (s := s.atCycle w.cycle) agent
    exact (withLate_item item).trans (writeRow_stores good owner agent outbound runs own room whole free rfl ok)
  · intro x
    have alive : reviveAt w.core w.cycle s = none := by
      have absent : s.fails.cores.find? (fun x => x.1 == w.core) = none :=
        List.find?_eq_none.mpr fun x listed => by simpa [noCore] using unseen x listed
      rw [reviveAt, absent]
      simp
    change withLate w.core w.cycle (writeRow w) s = _
    rw [withLate, alive]
    exact writeRow_engine good owner noCore agent rfl
end

section
/-! SUPPORT. Channels, their retraining, and the accesses that a granule serves (R242, R250, R310 to R315). -/

namespace Sys2Proof.Machine

open Sys2Proof.Claims

/-! What records leave. -/

namespace RecordsOnly

variable {s t : State}

theorem time (h : RecordsOnly s t) : t.time = s.time := by have := h.eqs; tauto
theorem power (h : RecordsOnly s t) : t.power = s.power := by have := h.eqs; tauto
theorem dies (h : RecordsOnly s t) : t.dies = s.dies := by have := h.eqs; tauto
theorem hs (h : RecordsOnly s t) : t.hs = s.hs := by have := h.eqs; tauto
theorem hbm (h : RecordsOnly s t) : t.hbm = s.hbm := by have := h.eqs; tauto
theorem cores (h : RecordsOnly s t) : t.cores = s.cores := by have := h.eqs; tauto
theorem fed (h : RecordsOnly s t) : t.fed = s.fed := by have := h.eqs; tauto
theorem ports (h : RecordsOnly s t) : t.ports = s.ports := by have := h.eqs; tauto
theorem telem (h : RecordsOnly s t) : t.telem = s.telem := by have := h.eqs; tauto
theorem metas (h : RecordsOnly s t) : t.metas = s.metas := by have := h.eqs; tauto
theorem store (h : RecordsOnly s t) : t.store = s.store := by have := h.eqs; tauto

theorem die (h : RecordsOnly s t) (d : Nat) : t.die d = s.die d := by rw [State.die, h.dies, ← State.die]
theorem stack (h : RecordsOnly s t) (k : Nat) : t.stack k = s.stack k := by rw [State.stack, h.hs, ← State.stack]
theorem gran (h : RecordsOnly s t) (g : Nat × Nat) : t.gran g = s.gran g := by rw [State.gran, h.die, ← State.gran]
theorem cmeta (h : RecordsOnly s t) (k : Nat) : t.cmeta k = s.cmeta k := by unfold State.cmeta fuseState; rw [h.metas, h.store]
theorem port (h : RecordsOnly s t) (k : Nat) : t.port k = s.port k := by rw [State.port, h.ports, ← State.port]

end RecordsOnly

theorem refresh_records (s : State) : RecordsOnly s (refresh s) := (refresh_signals s).records

theorem refresh_parcels (s : State) : (refresh s).parcels = s.parcels := (refresh_signals s).parcels

/-! Channels. -/

/-- R314: a stack of which no frame before this one declared anything. -/
theorem foldStack_idle {now k : Nat} {s : State} (unmap : (s.stack k).unmapDue = [])
    (fold : ∀ d, (s.stack k).foldDue = some d → now ≤ d.at_.1) : foldStack now k s = s := by
  unfold foldStack
  dsimp only
  rw [unmap]
  cases due : (s.stack k).foldDue with
  | none => rfl
  | some d => simp [Nat.not_lt.mpr (fold d due)]

/-- R310, R329: the retraining of the turn. -/
theorem retrainWindow_turn {k : Nat} {s : State} (good : s.power.good = true) (known : k < 12)
    (reached : (s.stack k).unreachable = false) (run : s.power.drainOn = false)
    (fresh : (s.stack k).window ≠ some s.time.postmark) (ok : Bool) : exec (.retrainWindow k ok) s =
      let x := { s.stack k with window := some s.time.postmark }
      if ok || foldCh s k == some x.nextCh || chanDead s k x.nextCh then
        .next ((s.atCycle 1024).setStack k { x with nextCh := (x.nextCh + 1) % 32, fails := 0 })
      else
        let n := x.fails + 1
        let t := (chanErr 7 k x.nextCh 0xFFFF 0 n (s.atCycle 1024)).setStack k
          { x with fails := if n == 3 then 0 else n, nextCh := if n == 3 then (x.nextCh + 1) % 32 else x.nextCh }
        .next (refresh (if n == 3 then channelDead k x.nextCh 3 t else t)) := by
  change execRetrainWindow k ok s = _
  unfold execRetrainWindow
  have first : ((s.stack k).window == some s.time.postmark) = false := by simpa using fresh
  dsimp only
  rw [good, reached, run, first, decide_eq_false (Nat.not_le.mpr known)]
  rfl

/-! Die store granules. -/

theorem State.setGran_gran_same (s : State) (h : Nat × Nat) (g : Granule) : (s.setGran h g).gran h = g := by
  simp [State.gran, State.setGran]

/-- R250: a count of a corrected word leaves the granules. -/
theorem dsCorrected_gran (d : Nat) (h : Nat × Nat) (s : State) : (dsCorrected d s).gran h = s.gran h := by
  have counted (n : Nat) : (s.setDie d { s.die d with dsCorrected := n }).gran h = s.gran h := by
    unfold State.gran
    by_cases own : h.1 = d
    · rw [own, State.setDie_die_same]
    · rw [State.setDie_die_other _ _ _ _ own]
  unfold dsCorrected
  dsimp only
  split
  · rw [satShared, (recordShared_logs _ _ _ _ _ _).records.gran, counted]
  · exact counted _

/-- R536: a row about a core that no failure of this cycle has stopped. -/
theorem withLate_none {k u : Nat} {row : State → Host.Outcome State Fault Refusal} {s : State} (alive : reviveAt k u s = none) :
    withLate k u row s = row s := by
  rw [withLate, alive]

end Sys2Proof.Machine

open Sys2Proof Sys2Proof.Machine

/-- Settles O24: the rows of a channel under their conditions; a failed retraining records in the package's logs. -/
theorem channelFailuresComplete : Obligations.ChannelFailuresComplete := by
  refine ⟨fun k ch s good stack channel => ?_, fun s head => ?_, fun k s unmap fold => foldStack_idle unmap fold,
    fun k s good known reached run fresh => ?_⟩
  · change execStackFatalError k ch s = _
    rw [execStackFatalError, good, decide_eq_false (Nat.not_le.mpr stack), decide_eq_false (Nat.not_le.mpr channel)]
    rfl
  · change execFoldApply s = _
    rw [execFoldApply, inHead, decide_eq_true head]
    rfl
  · intro x dead
    have turn := retrainWindow_turn good known reached run fresh
    refine ⟨fun ok passes => ?_, fun alive other => ?_, fun alive third => ?_⟩
    · have passed : (ok || foldCh s k == some (s.stack k).nextCh || chanDead s k (s.stack k).nextCh) = true := by
        simp only [Bool.or_eq_true, beq_iff_eq, or_assoc]
        exact passes
      exact (turn ok).trans (if_pos passed)
    all_goals
      have stays : ¬ (false || foldCh s k == some (s.stack k).nextCh || chanDead s k (s.stack k).nextCh) = true := by
        simp only [Bool.false_or, Bool.or_eq_true, beq_iff_eq]
        exact alive
    · have count : ((s.stack k).fails + 1 == 3) = false := by
        have : (s.stack k).fails ≠ 2 := other
        simp only [beq_eq_false_iff_ne]
        omega
      have fails := (turn false).trans (if_neg stays)
      dsimp only at fails
      rw [count] at fails
      simp only [Bool.false_eq_true, if_false] at fails
      refine ⟨_, fails, ?_, ?_, ?_⟩
      · rw [(refresh_records _).stack, State.setStack_stack_same]
      · rw [(refresh_records _).hbm, State.setStack_hbm, chanErr, (recordM_logs _ _ _ _).records.hbm]
        rfl
      · rw [refresh_parcels, State.setStack_parcels, chanErr, recordM_parcels]
        rfl
    · have count : (s.stack k).fails = 2 := third
      have fails := (turn false).trans (if_neg stays)
      dsimp only at fails
      rw [count] at fails
      exact fails

/-- Settles O25: the row of a granule under its conditions; the use of a line and a corrected word leave its lines. -/
theorem granuleServiceCompletes : Obligations.GranuleServiceCompletes := by
  intro g s o good die granule here owner alive s1 counted
  have row : exec (.granuleService g) s = granRow g s := (withLate_none alive : withLate g.core g.cycle (granRow g) s = _)
  have own : (s1.gran (g.die, g.granule)).owner = some o := owner
  refine ⟨fun plain => ?_, fun w cache hit => ?_⟩
  · have plain1 : (s1.gran (g.die, g.granule)).cache = false := plain
    rw [row, granRow, good, here, decide_eq_false (Nat.not_le.mpr die), decide_eq_false (Nat.not_le.mpr granule)]
    dsimp only
    rw [own, plain1]
    simp only [Bool.not_true, Bool.or_self, Bool.false_eq_true, if_false, fin]
    split <;> rfl
  · intro key s2
    have cache1 : (s1.gran (g.die, g.granule)).cache = true := cache
    have hit1 : findWay (s1.gran (g.die, g.granule)) (g.addr / 256 % 4096) (g.addr / 256 / 4096) = some w := hit
    have lines : (s2.gran (g.die, g.granule)).lines = (s.gran (g.die, g.granule)).lines := by
      have touched : ((touch (g.die, g.granule) key s1).gran (g.die, g.granule)).lines = (s.gran (g.die, g.granule)).lines := by
        rw [touch, State.setGran_gran_same]
        rfl
      change ((if g.corrected then dsCorrected g.die (touch (g.die, g.granule) key s1)
        else touch (g.die, g.granule) key s1).gran (g.die, g.granule)).lines = _
      split
      · rw [dsCorrected_gran, touched]
      · exact touched
    have serves : exec (.granuleService g) s = if g.uncorrectable then
        match tblGet (s2.gran (g.die, g.granule)).lines key with
        | some l => fin (lineError g key l s2)
        | none => .next s2
        else fin s2 := by
      rw [row, granRow, good, here, decide_eq_false (Nat.not_le.mpr die), decide_eq_false (Nat.not_le.mpr granule)]
      dsimp only
      rw [own, cache1, hit1]
      rfl
    refine ⟨fun whole => ?_, fun l broken found => ?_⟩
    · rw [serves, whole]
      rfl
    · rw [serves, broken, lines, found]
      rfl
end

section
/-! SUPPORT. Samples of temperature and power, and the package hold (R305 to R309, R519, R562 to R566, R578 to R581). -/

namespace Sys2Proof.Machine

/-- A fold over the first numbers, whose step changes what `get` shows of its own number alone. -/
theorem foldl_range_each {α : Type} {get : State → Nat → α} {f : State → Nat → State} {g : Nat → α → α}
    (own : ∀ s k, get (f s k) k = g k (get s k)) (other : ∀ s k j, j ≠ k → get (f s k) j = get s j) (n j : Nat) (s : State) :
    get ((List.range n).foldl f s) j = if j < n then g j (get s j) else get s j := by
  induction n with
  | zero => rfl
  | succ n ih =>
    rw [List.range_succ, List.foldl_append, List.foldl_cons, List.foldl_nil]
    by_cases last : j = n
    · subst last
      rw [own, ih, if_neg (Nat.lt_irrefl _), if_pos (Nat.lt_succ_self _)]
    · rw [other _ _ _ last, ih]
      have same : j < n ↔ j < n + 1 := by omega
      simp only [same]

/-! One stack, one die (R305, R306, R578). -/

/-- R305, R306: a stack after a sample of its temperature. -/
def Stack.sample (t : Nat) (x : Stack) : Stack :=
  if x.unreachable then x else { x with
    temp := t, refresh := max x.refresh (refreshAt t)
    below := [nth x.below 0 true && decide (t ≤ 328), nth x.below 1 true && decide (t ≤ 368)], sampled := true }

/-- R306, R578: a die after a sample of its temperature. -/
def Die.sample (t : Nat) (x : Die) : Die :=
  if x.lost then x else { x with temp := t, hot := x.hot || decide (380 < t), below := x.below && decide (t ≤ 368) }

/-- What a platform event and an average change: the sideband's readings and what has gone outside. -/
structure Shows (s t : State) : Prop where
  rest : t = { s with telem := t.telem, outputs := t.outputs }

theorem Shows.eqs {s t : State} (h : Shows s t) : t.power = s.power ∧ t.time = s.time ∧ t.dies = s.dies ∧ t.hs = s.hs := by
  rw [h.rest]
  exact ⟨rfl, rfl, rfl, rfl⟩

theorem averaged_bandEvent_shows (sensor old new value n t : Nat) (s : State) :
    Shows s (averaged n t (bandEvent sensor old new value s)) := by
  unfold bandEvent averaged
  split <;> exact ⟨rfl⟩

/-- A sensor's platform event and average, after its stack or die has been set. -/
theorem stackSample_reached {k t : Nat} {s : State} (reached : (s.stack k).unreachable = false) : stackSample k t s =
    let u := averaged (13 + k) t (bandEvent (13 + k) (stackLevel (s.stack k).temp) (stackLevel t) (t / 4)
      (s.setStack k ((s.stack k).sample t)))
    if max (s.stack k).refresh (refreshAt t) == (s.stack k).refresh then u else refreshEvent k u := by
  unfold stackSample Stack.sample
  dsimp only
  simp only [reached, Bool.false_eq_true, if_false]

theorem dieSample_there {d t : Nat} {s : State} (there : (s.die d).lost = false) : dieSample d t s =
    averaged (4 + d) t (bandEvent (4 + d) (dieLevel (s.die d).temp) (dieLevel t) (t / 4) (s.setDie d ((s.die d).sample t))) := by
  unfold dieSample Die.sample
  dsimp only
  simp only [there, Bool.false_eq_true, if_false]

/-- R306: a sample of a stack: the stack, and what is recorded and shown of it. -/
theorem stackSample_eqs (k t : Nat) (s : State) : (stackSample k t s).power = s.power ∧ (stackSample k t s).time = s.time ∧
    (stackSample k t s).dies = s.dies ∧ (stackSample k t s).stack k = (s.stack k).sample t ∧
    ∀ j, j ≠ k → (stackSample k t s).stack j = s.stack j := by
  cases reached : (s.stack k).unreachable with
  | true => simp [stackSample, Stack.sample, reached]
  | false =>
    rw [stackSample_reached reached]
    generalize (s.stack k).sample t = x
    have shown := (averaged_bandEvent_shows (13 + k) (stackLevel (s.stack k).temp) (stackLevel t) (t / 4) (13 + k) t (s.setStack k x)).eqs
    generalize averaged (13 + k) t (bandEvent (13 + k) (stackLevel (s.stack k).temp) (stackLevel t) (t / 4) (s.setStack k x)) = u at shown ⊢
    obtain ⟨power, time, dies, hs⟩ := shown
    have stack (j : Nat) : u.stack j = (s.setStack k x).stack j := by rw [State.stack, hs, ← State.stack]
    have plain : u.power = s.power ∧ u.time = s.time ∧ u.dies = s.dies ∧ u.stack k = x ∧ ∀ j, j ≠ k → u.stack j = s.stack j :=
      ⟨power, time, dies, by rw [stack, State.setStack_stack_same], fun j other => by rw [stack, State.setStack_stack_other _ _ _ _ other]⟩
    dsimp only
    split
    · exact plain
    · have records : RecordsOnly u (refreshEvent k u) := (recordM_logs _ _ _ _).records
      rw [records.power, records.time, records.dies, records.stack]
      simp only [records.stack]
      exact plain

theorem dieSample_eqs (d t : Nat) (s : State) : (dieSample d t s).power = s.power ∧ (dieSample d t s).time = s.time ∧
    (dieSample d t s).hs = s.hs ∧ (dieSample d t s).die d = (s.die d).sample t ∧
    ∀ j, j ≠ d → (dieSample d t s).die j = s.die j := by
  cases there : (s.die d).lost with
  | true => simp [dieSample, Die.sample, there]
  | false =>
    rw [dieSample_there there]
    generalize (s.die d).sample t = x
    have shown := (averaged_bandEvent_shows (4 + d) (dieLevel (s.die d).temp) (dieLevel t) (t / 4) (4 + d) t (s.setDie d x)).eqs
    generalize averaged (4 + d) t (bandEvent (4 + d) (dieLevel (s.die d).temp) (dieLevel t) (t / 4) (s.setDie d x)) = u at shown ⊢
    obtain ⟨power, time, dies, hs⟩ := shown
    have die (j : Nat) : u.die j = (s.setDie d x).die j := by rw [State.die, dies, ← State.die]
    exact ⟨power, time, hs, by rw [die, State.setDie_die_same], fun j other => by rw [die, State.setDie_die_other _ _ _ _ other]⟩

/-! A sample of every sensor. -/

/-- The hub's platform event and average. -/
def hubShown (x : Temps) (s : State) : State :=
  averaged 12 x.hub (bandEvent 12 (dieLevel s.power.hubTemp) (dieLevel x.hub) (x.hub / 4) s)

/-- The hub's and the regulator's readings of a sample. -/
def hubRead (x : Temps) (s : State) : State :=
  { s with power := { s.power with
    hubTemp := x.hub, regTemp := x.regulator, sampled := true
    hubHot := s.power.hubHot || decide (380 < x.hub), hubBelow := s.power.hubBelow && decide (x.hub ≤ 368) } }

def stacksSampled (x : Temps) (s : State) : State := (List.range 12).foldl (fun s k => stackSample k (nth x.hs k 0) s) s

def diesSampled (x : Temps) (s : State) : State := (List.range 8).foldl (fun s d => dieSample d (nth x.cd d 0) s) s

/-- The readings of a sample, before its limits are looked at (R578, R584). -/
def sampled (x : Temps) (s : State) : State := diesSampled x (stacksSampled x (hubRead x (hubShown x s)))

/-- Whether a die, or a stack, is above a limit. -/
def dieAbove (lim : Nat) (s : State) : Bool := (dieTemps s).any (fun x => decide (lim < x))
def stackAbove (lim : Nat) (s : State) : Bool := (stackTemps s).any (fun x => decide (lim < x))

/-- What the readings within the shutdown limits lead to (R563, R579). -/
def afterSample (s : State) : State :=
  let hot := dieAbove 400 s || stackAbove 420 s
  let s := { s with power := { s.power with frameCool := s.power.frameCool && coolNow s } }
  setAlert (thermNotes (if hot then callHold 1 s else s))

theorem tempSample_eq {x : Temps} {s : State} (good : s.power.good = true) : exec (.tempSample x) s =
    if dieAbove 440 (sampled x s) || stackAbove 460 (sampled x s) || decide (500 < x.regulator) then
      .next (powerOff true (sampled x s)) else .next (refresh (afterSample (sampled x s))) := by
  change execTempSample x s = _
  unfold execTempSample
  rw [if_neg (by rw [good]; decide)]
  extract_lets shown _ hub reached all dies hss
  have shownIs : shown = hubShown x s := rfl
  clear_value shown
  have hubIs : hub = hubRead x shown := rfl
  clear_value hub
  have reachedIs : reached = stacksSampled x hub := rfl
  clear_value reached
  have allIs : all = diesSampled x reached := rfl
  clear_value all
  rw [sampled, ← shownIs, ← hubIs, ← reachedIs, ← allIs]
  rfl

/-- What a sample reads (R305, R306, R578). -/
structure Samples (x : Temps) (s t : State) : Prop where
  time : t.time = s.time
  power : t.power = { s.power with
    hubTemp := x.hub, regTemp := x.regulator, sampled := true
    hubHot := s.power.hubHot || decide (380 < x.hub), hubBelow := s.power.hubBelow && decide (x.hub ≤ 368) }
  stack : ∀ k, t.stack k = if k < 12 then (s.stack k).sample (nth x.hs k 0) else s.stack k
  die : ∀ d, t.die d = if d < 8 then (s.die d).sample (nth x.cd d 0) else s.die d

theorem stacksSampled_eqs (x : Temps) (s : State) : (stacksSampled x s).power = s.power ∧ (stacksSampled x s).time = s.time ∧
    (stacksSampled x s).dies = s.dies ∧
    ∀ k, (stacksSampled x s).stack k = if k < 12 then (s.stack k).sample (nth x.hs k 0) else s.stack k :=
  ⟨foldl_keeps (g := State.power) (fun s k => (stackSample_eqs k _ s).1) _ s,
    foldl_keeps (g := State.time) (fun s k => (stackSample_eqs k _ s).2.1) _ s,
    foldl_keeps (g := State.dies) (fun s k => (stackSample_eqs k _ s).2.2.1) _ s,
    fun k => foldl_range_each (get := State.stack) (g := fun k => Stack.sample (nth x.hs k 0))
      (fun s k => (stackSample_eqs k _ s).2.2.2.1) (fun s k => (stackSample_eqs k _ s).2.2.2.2) 12 k s⟩

theorem diesSampled_eqs (x : Temps) (s : State) : (diesSampled x s).power = s.power ∧ (diesSampled x s).time = s.time ∧
    (diesSampled x s).hs = s.hs ∧
    ∀ d, (diesSampled x s).die d = if d < 8 then (s.die d).sample (nth x.cd d 0) else s.die d :=
  ⟨foldl_keeps (g := State.power) (fun s d => (dieSample_eqs d _ s).1) _ s,
    foldl_keeps (g := State.time) (fun s d => (dieSample_eqs d _ s).2.1) _ s,
    foldl_keeps (g := State.hs) (fun s d => (dieSample_eqs d _ s).2.2.1) _ s,
    fun d => foldl_range_each (get := State.die) (g := fun d => Die.sample (nth x.cd d 0))
      (fun s d => (dieSample_eqs d _ s).2.2.2.1) (fun s d => (dieSample_eqs d _ s).2.2.2.2) 8 d s⟩

theorem hubRead_eqs (x : Temps) (s : State) : (hubRead x (hubShown x s)).time = s.time ∧
    (hubRead x (hubShown x s)).dies = s.dies ∧ (hubRead x (hubShown x s)).hs = s.hs ∧
    (hubRead x (hubShown x s)).power = { s.power with
      hubTemp := x.hub, regTemp := x.regulator, sampled := true
      hubHot := s.power.hubHot || decide (380 < x.hub), hubBelow := s.power.hubBelow && decide (x.hub ≤ 368) } := by
  obtain ⟨power, time, dies, hs⟩ : (hubShown x s).power = s.power ∧ (hubShown x s).time = s.time ∧
      (hubShown x s).dies = s.dies ∧ (hubShown x s).hs = s.hs := (averaged_bandEvent_shows _ _ _ _ _ _ s).eqs
  generalize hubShown x s = t at *
  rw [hubRead, power]
  exact ⟨time, dies, hs, rfl⟩

theorem sampled_samples (x : Temps) (s : State) : Samples x s (sampled x s) := by
  obtain ⟨time0, dies0, hs0, power0⟩ := hubRead_eqs x s
  obtain ⟨power1, time1, dies1, stack1⟩ := stacksSampled_eqs x (hubRead x (hubShown x s))
  obtain ⟨power2, time2, hs2, die2⟩ := diesSampled_eqs x (stacksSampled x (hubRead x (hubShown x s)))
  have die (d : Nat) : (stacksSampled x (hubRead x (hubShown x s))).die d = s.die d := by rw [State.die, dies1, dies0, ← State.die]
  have stack (k : Nat) : (hubRead x (hubShown x s)).stack k = s.stack k := by rw [State.stack, hs0, ← State.stack]
  refine ⟨by rw [sampled, time2, time1, time0], by rw [sampled, power2, power1, power0], fun k => ?_, fun d => ?_⟩
  · rw [sampled, State.stack, hs2, ← State.stack, stack1, stack]
  · rw [sampled, die2, die]

theorem dieAbove_iff {x : Temps} {s t : State} (h : Samples x s t) (lim : Nat) : dieAbove lim t = true ↔
    lim < x.hub ∨ ∃ d, d < 8 ∧ (s.die d).lost = false ∧ lim < nth x.cd d 0 := by
  have hub : t.power.hubTemp = x.hub := by rw [h.power]
  have lost (d : Nat) (known : d < 8) : (t.die d).lost = (s.die d).lost := by
    rw [h.die, if_pos known, Die.sample]
    split <;> rfl
  have temp (d : Nat) (known : d < 8) (there : (s.die d).lost = false) : (t.die d).temp = nth x.cd d 0 := by
    rw [h.die, if_pos known, Die.sample, there]
    rfl
  unfold dieAbove dieTemps
  simp only [List.any_cons, List.any_map, Bool.or_eq_true, decide_eq_true_eq, List.any_eq_true, List.mem_filter, List.mem_range,
    Function.comp, Bool.not_eq_true', hub]
  refine or_congr Iff.rfl (exists_congr fun d => ⟨fun ⟨⟨known, there⟩, above⟩ => ?_, fun ⟨known, there, above⟩ => ?_⟩)
  · rw [lost d known] at there
    exact ⟨known, there, by rwa [temp d known there] at above⟩
  · exact ⟨⟨known, by rwa [lost d known]⟩, by rwa [temp d known there]⟩

theorem stackAbove_iff {x : Temps} {s t : State} (h : Samples x s t) (lim : Nat) : stackAbove lim t = true ↔
    ∃ k, k < 12 ∧ (s.stack k).unreachable = false ∧ lim < nth x.hs k 0 := by
  have lost (k : Nat) (known : k < 12) : (t.stack k).unreachable = (s.stack k).unreachable := by
    rw [h.stack, if_pos known, Stack.sample]
    split <;> rfl
  have temp (k : Nat) (known : k < 12) (there : (s.stack k).unreachable = false) : (t.stack k).temp = nth x.hs k 0 := by
    rw [h.stack, if_pos known, Stack.sample, there]
    rfl
  unfold stackAbove stackTemps
  simp only [List.any_map, decide_eq_true_eq, List.any_eq_true, List.mem_filter, List.mem_range,
    Function.comp, Bool.not_eq_true']
  refine exists_congr fun k => ⟨fun ⟨⟨known, there⟩, above⟩ => ?_, fun ⟨known, there, above⟩ => ?_⟩
  · rw [lost k known] at there
    exact ⟨known, there, by rwa [temp k known there] at above⟩
  · exact ⟨⟨known, by rwa [lost k known]⟩, by rwa [temp k known there]⟩

theorem thermNotes_eqs (s : State) : (thermNotes s).power = s.power ∧ (thermNotes s).dies = s.dies ∧ (thermNotes s).hs = s.hs := by
  have note {β : Type} (g : State → β) (keeps : ∀ p v s, g (thermNote p v s) = g s) : g (thermNotes s) = g s := by
    refine foldl_keeps (g := g) (fun s p => foldl_keeps (g := g) (fun s i => ?_) _ s) _ s
    split
    · exact keeps _ _ _
    · rfl
  exact ⟨note State.power fun _ _ _ => rfl, note State.dies fun _ _ _ => rfl, note State.hs fun _ _ _ => rfl⟩

/-- R308, R563: what a sample leads to leaves its readings. -/
theorem afterSample_eqs (s : State) : (refresh (afterSample s)).dies = s.dies ∧ (refresh (afterSample s)).hs = s.hs ∧
    ∃ cool alert, (refresh (afterSample s)).power =
      { (if dieAbove 400 s || stackAbove 420 s then callHold 1 s else s).power with frameCool := cool, alert := alert } := by
  rw [(refresh_records _).dies, (refresh_records _).hs, (refresh_records _).power]
  unfold afterSample setAlert
  dsimp only
  obtain ⟨power, dies, hs⟩ := thermNotes_eqs (if (dieAbove 400 s || stackAbove 420 s) = true
    then callHold 1 { s with power := { s.power with frameCool := s.power.frameCool && coolNow s } }
    else { s with power := { s.power with frameCool := s.power.frameCool && coolNow s } })
  rw [power, dies, hs]
  unfold callHold
  split
  · split
    · exact ⟨rfl, rfl, _, _, rfl⟩
    · exact ⟨rfl, rfl, _, _, rfl⟩
  · exact ⟨rfl, rfl, _, _, rfl⟩

/-! The package hold. -/

/-- What a frame sent on changes: the ports and what has gone outside. -/
theorem sendOn_keeps (k : Nat) (fr : List Byte) (s : State) :
    sendOn k fr s = { s with ports := (sendOn k fr s).ports, outputs := (sendOn k fr s).outputs } := by
  unfold sendOn
  dsimp only
  split
  · split <;> rfl
  · rfl

theorem routeFrame_keeps (fr : List Byte) (s : State) :
    routeFrame fr s = { s with ports := (routeFrame fr s).ports, outputs := (routeFrame fr s).outputs } := by
  unfold routeFrame
  dsimp only
  split
  · exact sendOn_keeps _ _ _
  · rfl

theorem sendHold_eqs (dur cause : Nat) (s : State) :
    (sendHold dur cause s).power = s.power ∧ (sendHold dur cause s).recovery = s.recovery := by
  unfold sendHold
  dsimp only
  split
  · exact ⟨rfl, rfl⟩
  · have records := (recordM_logs evHoldSent 3 (pay [(dur, 2), (cause, 1)]) ((namedMembers s).foldl (fun s m =>
      routeFrame (frameHeader ftHold 2 m s.fed.member s.fed.number 0 0 0 32 8 0 0 0 ++ pay [(dur, 2), (cause, 1), (0, 5)]) s) s)).records.eqs
    refine ⟨?_, ?_⟩
    · trans
      · exact records.2.2.2.1
      · exact foldl_keeps (g := State.power) (fun s m => by rw [routeFrame_keeps]) _ _
    · trans
      · exact records.2.2.2.2.2.2.2.2.2.2.2.2.1
      · exact foldl_keeps (g := State.recovery) (fun s m => by rw [routeFrame_keeps]) _ _

end Sys2Proof.Machine

open Sys2Proof Sys2Proof.Machine

/-- Settles O26: a sample's readings as `sampled_samples` says, and what comes of them as `afterSample_eqs`. -/
theorem temperatureSamplesComplete : Obligations.TemperatureSamplesComplete := by
  intro x s good die hbm
  have reads := sampled_samples x s
  have runs := tempSample_eq (x := x) good
  have over_ (a b : Nat) : (dieAbove a (sampled x s) || stackAbove b (sampled x s)) = true ↔ die a ∨ hbm b := by
    rw [Bool.or_eq_true, dieAbove_iff reads, stackAbove_iff reads]
  generalize sampled x s = t at reads runs over_
  by_cases shut : die 440 ∨ hbm 460 ∨ 500 < x.regulator
  · have trips : (dieAbove 440 t || stackAbove 460 t || decide (500 < x.regulator)) = true := by
      rw [Bool.or_eq_true, over_, or_assoc, decide_eq_true_eq]
      exact shut
    rw [if_pos trips] at runs
    exact ⟨_, runs, fun _ => ⟨rfl, rfl, rfl⟩, fun not => absurd shut not⟩
  · have stays : ¬ (dieAbove 440 t || stackAbove 460 t || decide (500 < x.regulator)) = true := by
      rw [Bool.or_eq_true, over_, or_assoc, decide_eq_true_eq]
      exact shut
    rw [if_neg stays] at runs
    obtain ⟨dies, hs, cool, alert, power⟩ := afterSample_eqs t
    have stack (k : Nat) : (refresh (afterSample t)).stack k = t.stack k := by rw [State.stack, hs, ← State.stack]
    refine ⟨_, runs, fun trips => absurd trips shut, fun _ => ?_⟩
    generalize refresh (afterSample t) = u at *
    have kept : u.power.good = t.power.good ∧ u.power.hubTemp = t.power.hubTemp ∧ u.power.regTemp = t.power.regTemp := by
      rw [power]
      unfold callHold
      split <;> [split; skip] <;> exact ⟨rfl, rfl, rfl⟩
    obtain ⟨good1, hub1, reg1⟩ := kept
    rw [reads.power] at good1 hub1 reg1
    refine ⟨good1.trans good, hub1, reg1, fun k known reached => ?_, fun k known gone => ?_, fun d known => ?_, ?_⟩
    · rw [stack, reads.stack, if_pos known, Stack.sample, reached]
      exact ⟨rfl, rfl⟩
    · rw [stack, reads.stack, if_pos known, Stack.sample, gone]
      rfl
    · rw [State.die, dies, ← State.die, reads.die, if_pos known, Die.sample]
    · intro older
      have held : t.power.holdDue = s.power.holdDue ∧ t.power.holdAt = s.power.holdAt ∧ t.time = s.time := by
        rw [reads.power]
        exact ⟨rfl, rfl, reads.time⟩
      obtain ⟨due, at_, time⟩ := held
      have earlier : (t.power.holdDue != 0 && t.power.holdAt != t.time.postmark) = true ↔ older := by
        rw [due, at_, time]
        simp [older]
      rw [power]
      refine ⟨fun ⟨hot, fresh⟩ => ?_, fun quiet => ?_⟩
      · rw [if_pos ((over_ 400 420).mpr hot), callHold, if_neg (mt earlier.mp fresh), ← time]
        exact ⟨rfl, rfl⟩
      · rcases quiet with cool | old
        · rw [if_neg (mt (over_ 400 420).mp cool)]
          exact ⟨due, at_⟩
        · rw [callHold, if_pos (earlier.mpr old)]
          split <;> exact ⟨due, at_⟩

/-- Settles O28: the rows of the hold under their conditions; a STATE event changes logs alone, and HOLD frames leave the
conditions. -/
theorem thermalHoldsComplete : Obligations.ThermalHoldsComplete := by
  refine ⟨fun s head off due earlier => ?_, fun s head on cool => ?_, fun s => ?_⟩
  · intro s1
    change execThermalHoldEnter s = _
    have called : (s.power.holdDue == 0) = false := by simpa using due
    unfold execThermalHoldEnter inHead
    dsimp only
    rw [off, called, decide_eq_true head, decide_eq_false (Nat.not_le.mpr earlier)]
    rfl
  · have runs : exec .thermalHoldExit s = .next (refresh (setAlert (stateEvent 1 0
        { s with power := { s.power with holdOn := false, holdCause := 0 } }))) := by
      change execThermalHoldExit s = _
      unfold execThermalHoldExit inHead
      dsimp only
      rw [on, cool, decide_eq_true head]
      rfl
    have records := (recordM_logs evState 2 (pay [(1, 1), (0, 1)])
      { s with power := { s.power with holdOn := false, holdCause := 0 } }).records
    have parcels := recordM_parcels evState 2 (pay [(1, 1), (0, 1)])
      { s with power := { s.power with holdOn := false, holdCause := 0 } }
    change RecordsOnly _ (stateEvent 1 0 _) at records
    change (stateEvent 1 0 _).parcels = _ at parcels
    generalize stateEvent 1 0 { s with power := { s.power with holdOn := false, holdCause := 0 } } = t at *
    refine ⟨_, runs, ?_⟩
    rw [(refresh_records _).power, refresh_parcels, (refresh_records _).cores, (refresh_records _).hbm, (refresh_records _).dies]
    unfold setAlert
    dsimp only
    rw [records.power, parcels, records.cores, records.hbm, records.dies]
    exact ⟨rfl, rfl, rfl, rfl, rfl, rfl⟩
  · intro a b
    have power : a.power = s.power ∧ a.recovery = s.recovery := by
      unfold a
      split
      · exact sendHold_eqs _ _ _
      · exact ⟨rfl, rfl⟩
    have recovery : b.recovery = s.recovery := by
      unfold b
      split
      · rw [(sendHold_eqs _ _ _).2, power.2]
      · exact power.2
    have same : b = if a.power.drainOn then sendHold 500 2 a else a := by rw [power.1]
    change Host.Outcome.next (refresh _) = _
    rw [← recovery, same]

/-- R563: a sample of the dies' power. -/
def dieWatts (dies : List Nat) (s : State) : State :=
  (List.range 8).foldl (fun (s : State) d => s.setDie d { s.die d with powerW := nth dies d 0 }) s

theorem dieWatts_eqs (dies : List Nat) (s : State) : (dieWatts dies s).power = s.power ∧ (dieWatts dies s).telem = s.telem ∧
    (dieWatts dies s).parcels = s.parcels ∧ (dieWatts dies s).cores = s.cores ∧ (dieWatts dies s).hbm = s.hbm ∧
    ∀ d, (dieWatts dies s).die d = if d < 8 then { s.die d with powerW := nth dies d 0 } else s.die d :=
  ⟨foldl_keeps (g := State.power) (f := fun s d => s.setDie d { s.die d with powerW := nth dies d 0 }) (fun _ _ => rfl) _ s, foldl_keeps (g := State.telem) (f := fun s d => s.setDie d { s.die d with powerW := nth dies d 0 }) (fun _ _ => rfl) _ s,
    foldl_keeps (g := State.parcels) (f := fun s d => s.setDie d { s.die d with powerW := nth dies d 0 }) (fun _ _ => rfl) _ s, foldl_keeps (g := State.cores) (f := fun s d => s.setDie d { s.die d with powerW := nth dies d 0 }) (fun _ _ => rfl) _ s,
    foldl_keeps (g := State.hbm) (f := fun s d => s.setDie d { s.die d with powerW := nth dies d 0 }) (fun _ _ => rfl) _ s, fun d => foldl_range_each (get := State.die) (f := fun s d => s.setDie d { s.die d with powerW := nth dies d 0 })
      (g := fun d x => { x with powerW := nth dies d 0 }) (fun _ _ => State.setDie_die_same _ _ _)
      (fun _ _ _ other => State.setDie_die_other _ _ _ _ other) 8 d s⟩

/-- Settles O27: the rows of the input under their conditions; a sample changes the readings and the hold that is due alone. -/
theorem powerEventsComplete : Obligations.PowerEventsComplete := by
  refine ⟨⟨fun w dies s good => ?_, fun w s good above => ?_⟩, fun mv us s => ⟨fun off latch pin above => ?_, fun down => ?_,
    fun below long good => ?_, fun below short => ?_, fun good above => ?_⟩⟩
  · intro high
    have runs : exec (.powerSample w dies) s =
        let t := dieWatts dies (averaged 2 s.power.inputMv { s with power := { s.power with inputW := w } })
        let u := if decide (3400 < w) || (List.range 8).any (fun (d : Nat) => !(t.die d).lost && decide (290 < (t.die d).powerW))
          then callHold 2 t else t
        .next { u with power := { u.power with frameCool := u.power.frameCool && coolNow u } } := by
      change execPowerSample w dies s = _
      unfold execPowerSample
      rw [if_neg (by rw [good]; decide)]
      rfl
    have telem : tblGet (averaged 2 s.power.inputMv { s with power := { s.power with inputW := w } }).telem.acc 2 =
        some (((tblGet s.telem.acc 2).getD (0, 0)).1 + s.power.inputMv, ((tblGet s.telem.acc 2).getD (0, 0)).2 + 1) :=
      tblGet_put_same _ _ _
    obtain ⟨power0, telem0, parcels0, cores0, hbm0, die⟩ :=
      dieWatts_eqs dies (averaged 2 s.power.inputMv { s with power := { s.power with inputW := w } })
    rw [← telem0] at telem
    generalize dieWatts dies (averaged 2 s.power.inputMv { s with power := { s.power with inputW := w } }) = t at *
    have calls : (decide (3400 < w) || (List.range 8).any (fun (d : Nat) => !(t.die d).lost && decide (290 < (t.die d).powerW))) = true ↔
        high := by
      simp only [Bool.or_eq_true, decide_eq_true_eq, List.any_eq_true, List.mem_range, Bool.and_eq_true, Bool.not_eq_true']
      refine or_congr Iff.rfl (exists_congr fun d => and_congr_right fun known => ?_)
      rw [die, if_pos known]
      exact Iff.rfl
    have power : t.power = { s.power with inputW := w } := power0
    have held (u : State) (eq : u = if decide (3400 < w) ||
        (List.range 8).any (fun (d : Nat) => !(t.die d).lost && decide (290 < (t.die d).powerW)) then callHold 2 t else t) :
        u.power.inputW = w ∧ (s.power.holdDue = 0 ∧ high → u.power.holdDue = 2) ∧
          (¬ (s.power.holdDue = 0 ∧ high) → u.power.holdDue = s.power.holdDue) ∧ u = { t with power := u.power } := by
      have due : t.power.holdDue = s.power.holdDue := by rw [power]
      have input : t.power.inputW = w := by rw [power]
      by_cases tops : high
      · rw [if_pos (calls.mpr tops)] at eq
        subst eq
        unfold callHold
        by_cases none : s.power.holdDue = 0
        · rw [due, none]
          exact ⟨input, fun _ => rfl, fun not => absurd ⟨rfl, tops⟩ not, rfl⟩
        · split <;> simp [due, none, input]
      · rw [if_neg (mt calls.mp tops)] at eq
        subst eq
        exact ⟨input, fun both => absurd both.2 tops, fun _ => due, rfl⟩
    obtain ⟨input, calls2, keeps, same⟩ := held _ rfl
    dsimp only at runs
    generalize (if (decide (3400 < w) ||
      (List.range 8).any (fun (d : Nat) => !(t.die d).lost && decide (290 < (t.die d).powerW))) = true then callHold 2 t else t) = u
      at runs input calls2 keeps same
    refine ⟨_, runs, input, fun d known => ?_, calls2, keeps, ?_, ?_, ?_, ?_⟩
    · change u.die d = _
      rw [same]
      exact (die d).trans (if_pos known)
    · change tblGet u.telem.acc 2 = _
      rw [same]
      exact telem
    · exact (congrArg State.parcels same).trans parcels0
    · exact (congrArg State.cores same).trans cores0
    · exact (congrArg State.hbm same).trans hbm0
  · change execPowerOverdraw w s = _
    rw [execPowerOverdraw, good, decide_eq_true above]
    rfl
  · change execPowerOn mv s = _
    unfold execPowerOn setMv
    dsimp only
    rw [off, latch, pin, decide_eq_false (Nat.not_le.mpr above)]
    rfl
  · intro all
    unfold powerUp raiseRails railStages
    simp [raiseStage, down, bootStep, all, List.range, List.range.loop]
  · intro off
    change execUndervoltage mv us s = _
    unfold execUndervoltage setMv
    have trips : (s.power.good && decide (1000 ≤ us)) = true := by rw [good, decide_eq_true long]; rfl
    dsimp only
    rw [if_neg (Nat.not_le.mpr below), if_pos trips]
  · change execUndervoltage mv us s = _
    unfold execUndervoltage setMv
    dsimp only
    rw [if_neg (Nat.not_le.mpr below)]
    rcases short with short | off
    · rw [decide_eq_false (Nat.not_le.mpr short), Bool.and_false]
      rfl
    · rw [off]
      rfl
  · have trips : (decide (65000 < mv) || (decide (62000 < mv) && decide (1000 ≤ us))) = true := by simpa using above
    change execOvervoltage mv us s = _
    unfold execOvervoltage setMv
    dsimp only
    rw [good, trips]
    rfl
end

section
/-! SUPPORT. Two refutations: the failures of the present cycle, as `State.fails` notes them, say that an item has ended which the
parcel still holds; a further failure of it then changes its entries alone (R283, R536). -/

namespace Sys2Proof.Machine

/-- An item whose segment runs. -/
def strayItem : Item := { seq := 0, tenancy := 0, segRunning := true }

/-- The failures of a cycle, `strayItem` of parcel 0 among those that ended in it. -/
def strayFails (u : Nat) : Fails :=
  { at_ := (0, u), items := [{ parcel := 0, item := strayItem, fail := { status := .security }, pending := false }] }

/-- Parcel 0 sealed, with one tenancy, bound to block 1, whose one item is `strayItem`. -/
def strayParcel : Parcel := { state := .isSealed, tenancies := [(0, { mailbox := 1 })], items := [strayItem] }

/-- VF 1 in RUN, and its tenancy's item noted as ended in cycle 0. -/
def strayRun : State :=
  { parcels := [(0, strayParcel)], fails := strayFails 0, pcie := { numVfs := 1, vfEnable := true, tdisp := [(1, .run)] } }

/-- The end of a frame, and a running item noted as ended in its last cycle. -/
def strayTick : State :=
  { power := { good := true }, parcels := [(0, strayParcel)], fails := strayFails 3300031 }

/-- Whether an item of parcel 0 runs a segment after a command. -/
def runsAfter (o : Host.Outcome State Fault Refusal) : Bool :=
  match o with
  | .next t => (t.parcel 0).items.any (·.segRunning)
  | _ => false

theorem runsAfter_strayTick : runsAfter (exec .frameTick strayTick) = true := by decide +kernel

theorem tenItems_strayRun : (tenItems (leaveRun 1 .unlocked strayRun) 0 0).any (fun i => i.kind == .plan) = true := by decide +kernel

end Sys2Proof.Machine

open Sys2Proof.Machine

/-- Refutes O50: the plan item of the tenancy, noted as ended in this cycle, stays. -/
theorem not_leavingRunClosesTheTenancy : ¬ Obligations.LeavingRunClosesTheTenancy := by
  unfold Obligations.LeavingRunClosesTheTenancy
  intro closes
  obtain ⟨-, -, hard⟩ := closes 1 0 0 .unlocked strayRun (by decide +kernel) (by decide +kernel) (by decide +kernel)
  obtain ⟨-, -, updates⟩ := hard (by decide +kernel)
  obtain ⟨i, listed, plan⟩ := List.any_eq_true.mp tenItems_strayRun
  have update := updates i listed
  rw [update] at plan
  exact absurd plan (by decide)

/-- Refutes O32: the item, noted as ended in the last cycle of the frame, runs on after the tick. -/
theorem not_frameTicksComplete : ¬ Obligations.FrameTicksComplete := by
  unfold Obligations.FrameTicksComplete
  intro ticks
  obtain ⟨t, ticked, -, -, -, -, -, -, stopped⟩ := ticks.1 strayTick rfl (.inl rfl)
  have runs := runsAfter_strayTick
  rw [ticked] at runs
  obtain ⟨i, listed, running⟩ := List.any_eq_true.mp runs
  have still := stopped 0 (by decide +kernel) i listed
  rw [still] at running
  exact absurd running Bool.false_ne_true
end

section
/-! SUPPORT. Boots, and the removal of power (R508, R561, R572 to R575). -/

namespace Sys2Proof.Machine

/-- R552: a LINK event of a port: the logs, and the PF's message. -/
theorem linkEvent_records (k kind lane : Nat) (s : State) : RecordsOnly s (linkEvent k kind lane s) :=
  (recordM_logs _ _ _ _).records.trans (msix_signals _ _ _).records

theorem portTo_port_same (k : Nat) (st : PortSt) (s : State) : (portTo k st s).port k = { s.port k with st := st } := by
  rw [portTo, (linkEvent_records _ _ _ _).port, State.setPort_port_same]

theorem portTo_port_other {k j : Nat} (st : PortSt) (s : State) (other : j ≠ k) : (portTo k st s).port j = s.port j := by
  rw [portTo, (linkEvent_records _ _ _ _).port, State.setPort_port_other _ _ _ _ other]

/-- R508, R572: the ports at READY. -/
theorem bootReady_port (b : BootEnv) (s : State) {k : Nat} (known : k < 8) : ((bootReady b s).port k).st = .training := by
  have each := foldl_range_each (get := State.port) (f := fun s k => portTo k .training s) (g := fun _ x => { x with st := .training })
    (fun s k => portTo_port_same k _ s) (fun s k j other => portTo_port_other _ s other) 8 k (bootCadastre b (bootStep 7 s))
  rw [if_pos known] at each
  exact congrArg Port.st each

theorem bootReady_ready (b : BootEnv) (s : State) : (bootReady b s).power.ready = true ∧ (bootReady b s).power.readyOnce = true ∧
    (bootReady b s).power.bootStage = 0 ∧ ∀ k, k < 8 → ((bootReady b s).port k).st = .training :=
  ⟨rfl, rfl, rfl, fun _ known => bootReady_port b s known⟩

end Sys2Proof.Machine

open Sys2Proof Sys2Proof.Machine

/-- Settles O31: the rows of a boot under their conditions; the steps after the tests end in `bootReady`. -/
theorem bootsComplete : Obligations.BootsComplete := by
  refine ⟨fun b s good runs => ⟨fun cold first => ⟨fun x choice => ?_, fun none => ?_⟩, fun waits stage => ?_, fun waits stage => ?_,
    fun warm refreshed x choice => ?_, fun warm refreshed none => ?_⟩, fun b s => ⟨fun ends => ?_, fun cold hot => ?_,
    fun cold cool bad => ?_, fun hot => ?_⟩⟩
  · change execColdBoot b s = _
    unfold execColdBoot
    dsimp only
    rw [good, cold, first, runs, choice]
    rfl
  · have row : exec (.coldBoot b) s = .next (refresh (bootStop 2 (bootStep 2 s))) := by
      change execColdBoot b s = _
      unfold execColdBoot
      dsimp only
      rw [good, cold, first, runs, none]
      rfl
    refine ⟨_, row, ?_⟩
    rw [(refresh_records _).power]
    exact ⟨rfl, rfl, rfl⟩
  · change execBootHbmStep b s = _
    unfold execBootHbmStep
    dsimp only
    rw [good, waits, stage, runs]
    rfl
  · change execBootCoreSelfTest b s = _
    unfold execBootCoreSelfTest
    dsimp only
    rw [good, waits, stage, runs]
    rfl
  · change execWarmReset b s = _
    unfold execWarmReset
    rw [good, warm, refreshed, choice]
    rfl
  · have row : exec (.warmReset b) s = .next (refresh (bootStop 2 (bootStep 2 (warmClear (!b.hubMemoryBad)
        { s with power := { s.power with selfRefresh := false } })))) := by
      change execWarmReset b s = _
      unfold execWarmReset
      rw [good, warm, refreshed, none]
      rfl
    refine ⟨_, row, ?_⟩
    rw [(refresh_records _).power]
    exact ⟨rfl, rfl⟩
  · have shown : ∃ t, bootFrom4 b s = bootReady b t := by
      unfold bootFrom4
      cases warm : s.power.bootWarm with
      | true => exact ⟨_, rfl⟩
      | false =>
        obtain ⟨cool, whole⟩ := ends.resolve_left (by simp [warm])
        rw [cool, whole]
        exact ⟨_, rfl⟩
    obtain ⟨t, ready⟩ := shown
    rw [ready]
    exact bootReady_ready b t
  · rw [bootFrom4, cold, hot]
    rfl
  · rw [bootFrom4, cold, cool, bad]
    exact ⟨rfl, rfl⟩
  · rw [bootFrom3, hot]
    rfl
end

section
/-! SUPPORT. Changes that wait for a frame head, and promotions (R36, R43, R545, R546). -/

namespace Sys2Proof.Machine

open Sys2Proof.Claims

/-! The turn of a change (R43). -/

theorem turnOf_first {s : State} {kind : Change → Bool} {pm : Nat} {c : Change} {rest : List (Nat × Change)}
    (first : s.changes = (pm, c) :: rest) (own : kind c = true) (head : s.time.cycle < 1024) (due : pm < s.time.postmark)
    (folds : foldWaits s = false) (fresh : s.passed.1 ≠ s.time.postmark ∨ s.passed.2 = 0)
    (auto : c.promotes = true → promotionWaits s = false) : turnOf s kind = some 0 := by
  have late : (s.passed.1 == s.time.postmark && decide (0 < s.passed.2)) = false := by
    rcases fresh with other | none
    · simp [other]
    · simp [none]
  have wait : (c.promotes && promotionWaits s) = false := by
    cases promotes : c.promotes with
    | false => rfl
    | true => rw [auto promotes]; rfl
  have place : s.changes.findIdx? (fun c => kind c.2) = some 0 := by
    rw [first, List.findIdx?_cons]
    simp only [own, if_true]
  unfold turnOf
  rw [place]
  dsimp only
  rw [first, folds, late]
  simp only [List.take_zero, List.any_nil, List.getElem?_cons_zero, Option.any_some, wait, decide_eq_true due, inHead,
    decide_eq_true head, Bool.not_false, Bool.and_self, if_true]

theorem takeChange_first {s : State} {x : Nat × Change} {rest : List (Nat × Change)} (first : s.changes = x :: rest) :
    takeChange 0 s = { s with changes := rest, passed := (s.time.postmark, 0) } := by
  rw [takeChange, first]
  rfl

/-- R43: the first change is one that has no row of its own. -/
theorem frameBoundaryChangeApply_first {s : State} {x : Nat × Change} {rest : List (Nat × Change)} (first : s.changes = x :: rest)
    (turn : turnOf s Change.plain = some 0) : exec .frameBoundaryChangeApply s =
      .next (refresh (applyChange x.2 { s with changes := rest, passed := (s.time.postmark, 0) })) := by
  change execFrameBoundaryChangeApply s = _
  unfold execFrameBoundaryChangeApply
  rw [turn]
  dsimp only
  rw [takeChange_first first, first]
  rfl

theorem turnOf_spec {s : State} {kind : Change → Bool} {k : Nat} (turn : turnOf s kind = some k) : s.time.cycle < 1024 ∧
    foldWaits s = false ∧ ∃ c, s.changes[k]? = some c ∧ kind c.2 = true ∧ c.1 < s.time.postmark ∧
      ∀ j d, j < k → s.changes[j]? = some d → d.1 < s.time.postmark → changeReady s d.2 = false ∧ kind d.2 = false := by
  unfold turnOf at turn
  split at turn
  · cases turn
  next i place =>
    obtain ⟨short, own, before⟩ := List.findIdx?_eq_some_iff_getElem.mp place
    dsimp only at turn
    split at turn
    next all =>
      obtain rfl : i = k := Option.some.inj turn
      simp only [Bool.and_eq_true, Bool.not_eq_true', inHead, decide_eq_true_eq] at all
      obtain ⟨⟨⟨⟨⟨head, folds⟩, -⟩, due⟩, none⟩, -⟩ := all
      rw [List.getElem?_eq_getElem short, Option.any_some, decide_eq_true_eq] at due
      refine ⟨head, folds, s.changes[i], List.getElem?_eq_getElem short, own, due, fun j d less at_ early => ⟨?_, ?_⟩⟩
      · have listed : d ∈ s.changes.take i := List.mem_of_getElem? (i := j) (by rw [List.getElem?_take_of_lt less, at_])
        have not := List.any_eq_false.mp none d listed
        simpa [early] using not
      · obtain ⟨here, rfl⟩ := List.getElem?_eq_some_iff.mp at_
        simpa using before j less
    · cases turn

/-! Promotions (R36, R545). -/

theorem cad_records (s : State) : RecordsOnly { s with copyA := (cad s).copyA, copyB := (cad s).copyB } (cad s) :=
  cadastreWrite_records _ s

theorem cad_parcels (s : State) : (cad s).parcels = s.parcels := by
  have fix (good : Bool) (k : Nat) (x : State) :
      (if good then x else recordM evCadastre 2 (pay [(0, 1), (k, 1)]) x).parcels = x.parcels := by
    split
    · rfl
    · exact recordM_parcels _ _ _ _
  unfold cad cadastreWrite
  dsimp only
  rw [fix, fix]

theorem cad_eqs (s : State) : (cad s).cores = s.cores ∧ (cad s).metas = s.metas ∧ (cad s).store = s.store := by
  have h := cad_records s
  exact ⟨h.cores, h.metas, h.store⟩

/-- R36, R545: the cores that a promotion changes. -/
def promoteCores (fenced reserve : Nat) (s : State) : State :=
  let s := s.setCmeta fenced { s.cmeta fenced with promoteDue := false }
  let s := s.setCmeta reserve { s.cmeta reserve with state := .promoted, replaces := some fenced }
  s.setCore reserve { spCorrected := (s.core reserve).spCorrected }

/-- What a state shows of the cores and of the parcels' core maps. -/
structure SameCores (s t : State) : Prop where
  metas : t.metas = s.metas
  store : t.store = s.store
  cores : t.cores = s.cores
  coreMap : ∀ p, (t.parcel p).coreMap = (s.parcel p).coreMap

theorem LogsOnly.sameCores {s t : State} (h : LogsOnly s t) : SameCores s t :=
  ⟨h.records.metas, h.records.store, h.records.cores, fun p => by have := Parcel.untenanted_eqs (h.rest p); tauto⟩

theorem SameCores.cad {s t : State} (h : SameCores s t) : SameCores s (Machine.cad t) := by
  obtain ⟨cores, metas, store⟩ := cad_eqs t
  exact ⟨metas.trans h.metas, store.trans h.store, cores.trans h.cores,
    fun p => by rw [State.parcel, cad_parcels, ← State.parcel, h.coreMap]⟩

/-- R36, R545: a promotion changes the two cores, and the map of the fenced core's parcel. -/
theorem promote_sameCores (f r : Nat) (s : State) : ∃ u, SameCores u (promote f r s) ∧ u.metas = (promoteCores f r s).metas ∧
    u.store = s.store ∧ u.cores = (promoteCores f r s).cores ∧
    ∀ p, (u.parcel p).coreMap = if parcelOfCore s f = some p
      then (s.parcel p).coreMap.map (fun k => if k = f then r else k) else (s.parcel p).coreMap := by
  unfold promote
  cases owner : parcelOfCore s f with
  | some p =>
    refine ⟨_, (recordP_logs _ _ _ _ _ _ _ _).sameCores.cad, rfl, rfl, rfl, fun q => ?_⟩
    unfold State.modParcel
    by_cases own : q = p
    · rw [own, State.setParcel_parcel_same, if_pos rfl]
      simp only [beq_iff_eq]
      rfl
    · rw [State.setParcel_parcel_other _ _ _ _ own, if_neg (fun h => own (Option.some.inj h).symm)]
      rfl
  | none =>
    refine ⟨_, (recordP_logs _ _ _ _ _ _ _ _).sameCores, rfl, rfl, rfl, fun q => ?_⟩
    rw [if_neg nofun]
    rfl

theorem State.cmeta_congr {s t : State} (metas : t.metas = s.metas) (store : t.store = s.store) (k : Nat) :
    t.cmeta k = s.cmeta k := by
  unfold State.cmeta fuseState
  rw [metas, store]

theorem promote_cmeta (f r : Nat) (s : State) (k : Nat) : (promote f r s).cmeta k = (promoteCores f r s).cmeta k := by
  obtain ⟨u, same, metas, store, -, -⟩ := promote_sameCores f r s
  exact State.cmeta_congr (same.metas.trans metas) (same.store.trans store) k

theorem promote_core (f r : Nat) (s : State) (k : Nat) : (promote f r s).core k = (promoteCores f r s).core k := by
  obtain ⟨u, same, -, -, cores, -⟩ := promote_sameCores f r s
  rw [State.core, same.cores, cores, ← State.core]

end Sys2Proof.Machine

open Sys2Proof Sys2Proof.Machine

/-- Settles O33: the turn of a change as `turnOf` finds it, the rows under their conditions, and what `promote` changes. -/
theorem frameHeadChangesComplete : Obligations.FrameHeadChangesComplete := by
  refine ⟨fun pm c rest s first head due folds fresh => ?_, fun kind k s turn => turnOf_spec turn,
    fun k r rest s head fenced waits earlier free => ?_, fun f r s other => ?_⟩
  · intro s1
    have plain (own : c.plain = true) (auto : c.promotes = true → promotionWaits s = false) :
        exec .frameBoundaryChangeApply s = .next (refresh (applyChange c s1)) :=
      frameBoundaryChangeApply_first first (turnOf_first first own head due folds fresh auto)
    refine ⟨fun n tk is => ?_, fun tk is quiet => ?_, fun tk is => ?_, fun tk is => ?_, fun f r tk is member fenced small here auto => ?_⟩
    · subst is
      exact plain rfl nofun
    · subst is
      have turn : turnOf s Change.drains = some 0 := turnOf_first first rfl head due folds fresh nofun
      have ready : changeReady s (.drainBegin tk) = true := by
        have none : (liveParcels s).any (outstanding s) = false := List.any_eq_false.mpr fun p listed => by simp [quiet p listed]
        rw [changeReady, none]
        rfl
      change execMaintDrainEffect s = _
      unfold execMaintDrainEffect
      rw [turn]
      dsimp only
      rw [first]
      dsimp only [List.getElem?_cons_zero]
      rw [ready, takeChange_first first]
      rfl
    · subst is
      exact plain rfl nofun
    · subst is
      exact plain rfl nofun
    · subst is
      have owned : (parcelOfCore s1 f).isNone = false := by
        rw [Option.isNone_eq_false_iff]
        exact member
      have state : (s1.cmeta f).state = .fenced := fenced
      have listed : (reserves s1 (f / 28)).contains r = true := List.contains_iff_mem.mpr here
      rw [plain rfl fun _ => auto, applyChange, promoteNow, owned, state]
      dsimp only
      rw [beq_eq_false_iff_ne.mpr (show r ≠ 0xFFFF by omega), listed]
      rfl
  · change execReservePromotion k s = _
    unfold execReservePromotion inHead
    dsimp only
    rw [decide_eq_true head, fenced, waits, decide_eq_true earlier, free]
    rfl
  · intro t
    have metas (k : Nat) : t.cmeta k = (promoteCores f r s).cmeta k := promote_cmeta f r s k
    have cores (k : Nat) : t.core k = (promoteCores f r s).core k := promote_core f r s k
    obtain ⟨u, same, -, -, -, map⟩ := promote_sameCores f r s
    refine ⟨?_, ?_, fun k notR notF => ?_, ?_, fun k notR => ?_, fun p => (same.coreMap p).trans (map p)⟩
    · rw [metas]
      unfold promoteCores
      dsimp only
      rw [State.setCore_cmeta, State.setCmeta_cmeta_same, State.setCmeta_cmeta_other _ _ _ _ other]
    · rw [metas]
      unfold promoteCores
      dsimp only
      rw [State.setCore_cmeta, State.setCmeta_cmeta_other _ _ _ _ other.symm, State.setCmeta_cmeta_same]
    · rw [metas]
      unfold promoteCores
      dsimp only
      rw [State.setCore_cmeta, State.setCmeta_cmeta_other _ _ _ _ notR, State.setCmeta_cmeta_other _ _ _ _ notF]
    · rw [cores]
      unfold promoteCores
      dsimp only
      rw [State.setCore_core_same]
      rfl
    · rw [cores]
      unfold promoteCores
      dsimp only
      rw [State.setCore_core_other _ _ _ _ notR]
      rfl
end

section
/-! SUPPORT. Slices, held commands and switches (R231, R412 to R421). -/

namespace Sys2Proof.Machine

open Sys2Proof.Claims

/-! Held commands (R418, R419). -/

/-- R419: a TENSOR_WRITE of which all the rest is written. -/
theorem writePart_rest {tk : Ticket} {p t : Nat} {b d : List Byte} {u : Susp} {s : State}
    (source : hostRead s tk.block (le b 0 8 + u.done) (le b 8 8 - u.done) = some d) {w : MRes × Nat × Nat × State}
    (written : pvWrite p t (le b 16 8 + u.done) d false (p, 0xFFFFFFFF) { ten := t } s = w) (ok : w.1 = .ok) :
    writePart tk p t b u none s = .ends (reply tk .ok (leBytes (u.done + w.2.2.1) 8) (tenCount p t 4 w.2.2.2)) := by
  unfold writePart stretchEnd zWriter zCtx
  dsimp only
  rw [source]
  dsimp only
  rw [written, ok, bne_self_eq_false]
  rfl

/-- R419: a TENSOR_WRITE that stops before its end. -/
theorem writePart_stops {tk : Ticket} {p t n c : Nat} {b d : List Byte} {u : Susp} {s : State}
    (stop : stopAt 256 (le b 16 8) u.done n (le b 8 8) = c) (early : c ≠ le b 8 8)
    (source : hostRead s tk.block (le b 0 8 + u.done) (c - u.done) = some d) {w : MRes × Nat × Nat × State}
    (written : pvWrite p t (le b 16 8 + u.done) d false (p, 0xFFFFFFFF) { ten := t } s = w) (ok : w.1 = .ok) :
    writePart tk p t b u (some n) s = .stops { u with done := c } w.2.2.2 := by
  have more : (c != le b 8 8) = true := by simpa using early
  unfold writePart stretchEnd zWriter zCtx
  dsimp only
  rw [stop, source]
  dsimp only
  rw [written, ok, more]
  rfl

/-- R419: a stretch stops at a boundary of its unit. -/
theorem stopAt_boundary {a k n len : Nat} (some : n ≠ 0) (early : stopAt 256 a k n len ≠ len) :
    (a + stopAt 256 a k n len) % 256 = 0 := by
  unfold stopAt at early ⊢
  rw [if_neg some] at early ⊢
  have less : (a + k) / 256 * 256 + 256 * n - a < len := by omega
  rw [min_eq_right less.le]
  omega

/-! The clearing work of a switch (R168, R231, R280, R416). -/

/-- R168, R231: the clearing work on one core. -/
def clearedCore (k : Nat) (s : State) : State := zeroScratch k (clearHalves k s)

theorem clearedCore_other {k j : Nat} (s : State) (other : j ≠ k) : (clearedCore k s).core j = s.core j := by
  unfold clearedCore zeroScratch clearHalves
  dsimp only
  rw [State.setCore_core_other _ _ _ _ other, State.setCore_core_other _ _ _ _ other]

theorem clearedCore_clear (k : Nat) (s : State) : ((clearedCore k s).core k).sp = {} ∧
    ((clearedCore k s).core k).seq.h0 = {} ∧ ((clearedCore k s).core k).seq.h1 = {} := by
  unfold clearedCore zeroScratch clearHalves
  dsimp only
  rw [State.setCore_core_same, State.setCore_core_same]
  exact ⟨rfl, rfl, rfl⟩

theorem foldl_clearedCore (l : List Nat) (s : State) : let t := l.foldl (fun s k => clearedCore k s) s
    t.parcels = s.parcels ∧ (∀ k ∈ l, (t.core k).sp = {} ∧ (t.core k).seq.h0 = {} ∧ (t.core k).seq.h1 = {}) ∧
      ∀ k, k ∉ l → t.core k = s.core k := by
  induction l using List.reverseRecOn with
  | nil => exact ⟨rfl, nofun, fun _ _ => rfl⟩
  | append_singleton r a ih =>
    obtain ⟨parcels, clear, same⟩ := ih
    dsimp only
    rw [List.foldl_append, List.foldl_cons, List.foldl_nil]
    refine ⟨parcels, fun k listed => ?_, fun k absent => ?_⟩
    · by_cases own : k = a
      · rw [own]
        exact clearedCore_clear _ _
      · rw [clearedCore_other _ own]
        exact clear k ((List.mem_append.mp listed).resolve_right (by simpa using own))
    · rw [List.mem_append, List.mem_singleton, not_or] at absent
      rw [clearedCore_other _ absent.2, same k absent.1]

/-- R416: what the clearing work leaves of a parcel, and of its cores. -/
theorem clearParcel_eqs (p : Nat) (s : State) : let t := clearParcel p s
    (∀ q, q ≠ p → bare (t.parcel q) = bare (s.parcel q)) ∧ bare (t.parcel p) = { bare (s.parcel p) with cursors := [] } ∧
      (∀ k ∈ (s.parcel p).coreMap, (t.core k).sp = {} ∧ (t.core k).seq.h0 = {} ∧ (t.core k).seq.h1 = {}) ∧
      ∀ k, k ∉ (s.parcel p).coreMap → t.core k = s.core k := by
  obtain ⟨parcels, clear, same⟩ := foldl_clearedCore (s.parcel p).coreMap s
  have whole : clearParcel p s = (flushParcel p ((s.parcel p).coreMap.foldl (fun s k => clearedCore k s) s)).modParcel p
      (fun x => { x with cursors := [] }) := rfl
  rw [whole]
  generalize (s.parcel p).coreMap.foldl (fun s k => clearedCore k s) s = u at parcels clear same
  have flushed : Accesses u (flushParcel p u) := .flushParcel (.refl u)
  have parcel (q : Nat) : u.parcel q = s.parcel q := by rw [State.parcel, parcels, ← State.parcel]
  have core (k : Nat) : ((flushParcel p u).modParcel p (fun x => { x with cursors := [] })).core k = u.core k := flushed.core k
  unfold State.modParcel at core ⊢
  refine ⟨fun q other => ?_, ?_, fun k listed => ?_, fun k absent => ?_⟩
  · rw [State.setParcel_parcel_other _ _ _ _ other, flushed.bare, parcel]
  · rw [State.setParcel_parcel_same, ← parcel, ← flushed.bare]
    rfl
  · rw [core]
    exact clear k listed
  · rw [core, same k absent]

end Sys2Proof.Machine

open Sys2Proof Sys2Proof.Machine Sys2Proof.Claims

/-- Settles O34: the rows of a slice and of a held command under their conditions; a stretch of a TENSOR_WRITE; the clearing work of
a switch. -/
theorem slicesComplete : Obligations.SlicesComplete := by
  refine ⟨fun p s => ⟨fun head service fresh over_ => ?_, fun head service ends => ⟨fun stays => ⟨fun n next other => ?_, fun next => ?_⟩,
    fun off y n turn next => ?_⟩, fun t => ?_, fun none => ?_, fun n since work head earlier state used => ?_,
    fun h rest held service open_ => ?_⟩, fun tk p t n b d u s op => ?_, fun p n s => ?_⟩
  · have due : sliceDue s (s.parcel p) = true := by
      rw [sliceDue, expiryAt, fresh]
      exact decide_eq_true over_
    have at_ : expiryAt (s.parcel p) = (s.parcel p).slice.first + (s.parcel p).slice.len := by
      rw [expiryAt, fresh]
      rfl
    change execSliceExpiry p s = _
    unfold execSliceExpiry inHead State.modParcel
    dsimp only
    rw [decide_eq_true head, service, fresh, due, at_]
    rfl
  · change execSliceEnd p s = _
    have moved : (n == (s.parcel p).running) = false := by simpa using other
    unfold execSliceEnd inHead
    dsimp only
    rw [decide_eq_true head, service, ends, stays, next]
    dsimp only
    rw [moved]
    rfl
  · change execSliceEnd p s = _
    unfold execSliceEnd inHead
    dsimp only
    rw [decide_eq_true head, service, ends, stays]
    rcases next with none | same
    · rw [none]
      rfl
    · rw [same]
      dsimp only
      rw [beq_self_eq_true]
      rfl
  · change execSliceEnd p s = _
    unfold execSliceEnd inHead
    dsimp only
    rw [decide_eq_true head, service, ends, off, turn]
    rcases next with some | ⟨none, used⟩
    · rw [some]
      rfl
    · rw [none, used]
      rfl
  · unfold beginSlice State.modParcel
    dsimp only
    rw [State.setParcel_parcel_same]
    exact ⟨rfl, rfl, rfl, rfl, rfl⟩
  · unfold suspendHeld
    dsimp only
    rw [none]
  · change execTenancyRestore p s = _
    have stands : ((s.parcel p).state == .active || (s.parcel p).state == .isSealed) = true := by
      rcases state with h | h <;> rw [h] <;> rfl
    have named : (s.parcel p).inUse.contains n = true := List.contains_iff_mem.mpr used
    unfold execTenancyRestore inHead
    dsimp only
    rw [work]
    dsimp only
    rw [decide_eq_true head, decide_eq_true earlier, stands, named]
    rfl
  · have may : mayPerform s p (s.parcel p).running = true := by rw [mayPerform, service, beq_self_eq_true]; rfl
    have running : (inHead s && sliceDue s (s.parcel p)) = false := by
      by_cases head : s.time.cycle < 1024
      · rw [open_ head, Bool.and_false]
      · rw [inHead, decide_eq_false head, Bool.false_and]
    intro y
    refine ⟨fun fresh alive => ?_, fun u d op form begun => ?_⟩
    · change execHeldCommandPerform p s = _
      unfold execHeldCommandPerform
      dsimp only
      rw [held]
      dsimp only
      rw [may, running, fresh]
      dsimp only
      have alive' : staleTicket y h.tk = false := alive
      rw [alive']
      rfl
    · intro b source w ok
      have part : onePart h.tk h.form p (s.parcel p).running h.payload u none y =
          .ends (reply h.tk .ok (leBytes (u.done + w.2.2.1) 8) (tenCount p (s.parcel p).running 4 w.2.2.2)) := by
        unfold onePart
        rw [op]
        exact writePart_rest source rfl ok
      change execHeldCommandPerform p s = _
      unfold execHeldCommandPerform
      dsimp only
      rw [held]
      dsimp only
      rw [may, running, begun]
      dsimp only
      rw [part]
      rfl
  · intro a c early source w
    refine ⟨fun ok => ?_, fun some => stopAt_boundary some early⟩
    unfold onePart
    rw [op]
    exact writePart_stops rfl early source rfl ok
  · intro t
    have cleared := clearParcel_eqs p (s.modParcel p (fun x => { x with
      running := 0xFF, slice := {}, work := .switching n s.time.postmark }))
    have parcel (q : Nat) : t.parcel q = (clearParcel p (s.modParcel p (fun x => { x with
        running := 0xFF, slice := {}, work := .switching n s.time.postmark }))).parcel q := by
      rw [State.parcel, show t.parcels = _ from cad_parcels _, ← State.parcel]
    have core (k : Nat) : t.core k = (clearParcel p (s.modParcel p (fun x => { x with
        running := 0xFF, slice := {}, work := .switching n s.time.postmark }))).core k := by
      rw [State.core, show t.cores = _ from (cad_eqs _).1, ← State.core]
    dsimp only at cleared
    simp only [← parcel, ← core] at cleared
    obtain ⟨others, own, clear, same⟩ := cleared
    have begun : (s.modParcel p (fun x => { x with running := 0xFF, slice := {}, work := .switching n s.time.postmark })).parcel p =
        { s.parcel p with running := 0xFF, slice := {}, work := .switching n s.time.postmark } := State.setParcel_parcel_same _ _ _
    rw [begun] at own clear same
    simp only [bare, Parcel.mk.injEq] at own
    refine ⟨by tauto, by tauto, by tauto, clear, same, fun q other => ?_⟩
    rw [others q other, State.modParcel, State.setParcel_parcel_other _ _ _ _ other]
end

section
/-! SUPPORT. Host memory as an access reads it, page by page (R473, R495). -/

namespace Sys2Proof.Machine

theorem Option.mapM_eq_some {α β : Type} {f : α → Option β} {l : List α} {r : List β} :
    l.mapM f = some r ↔ l.map f = r.map some := by
  induction l generalizing r with
  | nil => cases r <;> simp
  | cons a l ih =>
    cases head : f a with
    | none => cases r <;> simp [List.mapM_cons, head]
    | some b =>
      cases tail : l.mapM f with
      | none => cases r with
        | nil => simp [List.mapM_cons, head, tail]
        | cons c r =>
          have := ih (r := r)
          simp only [tail] at this
          simp [List.mapM_cons, head, tail]
          tauto
      | some x => cases r with
        | nil => simp [List.mapM_cons, head, tail]
        | cons c r =>
          have := ih (r := r)
          simp only [tail, Option.some.injEq] at this
          simp [List.mapM_cons, head, tail, ← this]

theorem memReadN_eq_map (m : Mem) (a n : Nat) : memReadN m a n = (List.range' a n).map (memRead m) := by
  induction n generalizing a with
  | zero => rfl
  | succ n ih => rw [memReadN, ih, List.range'_succ, List.map_cons]

/-! The pages of an access. -/

/-- The first address of an access to bytes from a in its page k, and the end of one of n bytes there. -/
def pageFrom (a k : Nat) : Nat := max a ((a / 4096 + k) * 4096)
def pageTo (a n k : Nat) : Nat := min (a + n) ((a / 4096 + k + 1) * 4096)

/-- How many pages an access touches. -/
def pageCount (a n : Nat) : Nat := (a % 4096 + n + 4095) / 4096

/-- The stretch of host memory of page k. -/
def pageSpan (s : State) (fn a n k : Nat) : Option (Nat × Nat) :=
  (atsPage s fn (a / 4096 + k)).map (fun page => (page * 4096 + pageFrom a k % 4096, pageTo a n k - pageFrom a k))

theorem hostSpans_ats {s : State} {fn : Nat} (on : s.pcie.atsOn.contains fn = true) (a n : Nat) :
    hostSpans s fn a n = (List.range (pageCount a n)).mapM (pageSpan s fn a n) := by
  unfold hostSpans
  rw [if_pos on]
  change (List.range (pageCount a n)).foldr _ (some []) = _
  generalize List.range (pageCount a n) = l
  induction l with
  | nil => rfl
  | cons k r ih =>
    rw [List.foldr_cons, ih, List.mapM_cons]
    unfold pageSpan pageTo pageFrom
    cases atsPage s fn (a / 4096 + k) <;> rfl

/-- The pages of an access lie end to end. -/
theorem pages_flatMap (a n : Nat) : (List.range (pageCount a n)).flatMap (fun k =>
    List.range' (pageFrom a k) (pageTo a n k - pageFrom a k)) = List.range' a n := by
  have upTo (m : Nat) (le : m + 1 ≤ pageCount a n) : (List.range (m + 1)).flatMap (fun k =>
      List.range' (pageFrom a k) (pageTo a n k - pageFrom a k)) = List.range' a (pageTo a n m - a) := by
    induction m with
    | zero =>
      have start : pageFrom a 0 = a := by unfold pageFrom; omega
      simp [start]
    | succ m ih =>
      rw [List.range_succ, List.flatMap_append, ih (by omega), List.flatMap_singleton]
      have meets : pageFrom a (m + 1) = a + (pageTo a n m - a) := by
        unfold pageFrom pageTo
        unfold pageCount at le
        omega
      have sum : pageTo a n (m + 1) - a = (pageTo a n m - a) + (pageTo a n (m + 1) - pageFrom a (m + 1)) := by
        unfold pageFrom pageTo
        unfold pageCount at le
        omega
      rw [sum, meets, List.range'_append_1, ← meets]
  by_cases none : pageCount a n = 0
  · have zero : n = 0 := by unfold pageCount at none; omega
    rw [none, zero]
    rfl
  · obtain ⟨m, last⟩ := Nat.exists_eq_succ_of_ne_zero none
    have whole : pageTo a n m - a = n := by
      unfold pageTo
      unfold pageCount at last
      omega
    rw [last, Nat.succ_eq_add_one, upTo m last.ge, whole]

/-- The byte that a function with translation reads at an address. -/
def atsByte (s : State) (fn x : Nat) : Byte := memRead s.host.mem ((atsPage s fn (x / 4096)).getD 0 * 4096 + x % 4096)

theorem memReadN_page (s : State) {fn a n k page : Nat} (translates : atsPage s fn (a / 4096 + k) = some page) :
    memReadN s.host.mem (page * 4096 + pageFrom a k % 4096) (pageTo a n k - pageFrom a k) =
      (List.range' (pageFrom a k) (pageTo a n k - pageFrom a k)).map (atsByte s fn) := by
  refine List.ext_getElem? fun j => ?_
  by_cases inside : j < pageTo a n k - pageFrom a k
  · have samePage : (pageFrom a k + j) / 4096 = a / 4096 + k := by
      unfold pageFrom pageTo at *
      omega
    have place : page * 4096 + pageFrom a k % 4096 + j = page * 4096 + (pageFrom a k + j) % 4096 := by
      unfold pageFrom pageTo at *
      omega
    rw [memReadN_get _ _ _ _ inside, List.getElem?_map, List.getElem?_range' (by simpa using inside), Option.map_some]
    simp only [one_mul, atsByte, samePage, translates, Option.getD_some, place]
  · rw [List.getElem?_eq_none (by simpa using inside), List.getElem?_eq_none (by simpa using inside)]

/-- R495: the pages of an access that are all translated. -/
theorem hostSpans_ats_some {s : State} {fn a n : Nat} (on : s.pcie.atsOn.contains fn = true) {l : List (Nat × Nat)} :
    hostSpans s fn a n = some l ↔ (∀ k < pageCount a n, (atsPage s fn (a / 4096 + k)).isSome = true) ∧
      l = (List.range (pageCount a n)).map (fun k => ((atsPage s fn (a / 4096 + k)).getD 0 * 4096 + pageFrom a k % 4096,
        pageTo a n k - pageFrom a k)) := by
  rw [hostSpans_ats on, Option.mapM_eq_some]
  constructor
  · intro same
    have all : ∀ k < pageCount a n, (atsPage s fn (a / 4096 + k)).isSome = true := by
      intro k less
      have listed : pageSpan s fn a n k ∈ l.map some := same ▸ List.mem_map_of_mem (List.mem_range.mpr less)
      obtain ⟨x, -, is⟩ := List.mem_map.mp listed
      rw [pageSpan] at is
      cases page : atsPage s fn (a / 4096 + k) with
      | none => rw [page] at is; cases is
      | some _ => rfl
    refine ⟨all, (List.map_injective_iff.mpr (Option.some_injective _)) ?_⟩
    rw [← same, List.map_map]
    refine List.map_congr_left fun k listed => ?_
    obtain ⟨page, is⟩ := Option.isSome_iff_exists.mp (all k (List.mem_range.mp listed))
    simp [pageSpan, is]
  · rintro ⟨all, rfl⟩
    rw [List.map_map]
    refine List.map_congr_left fun k listed => ?_
    obtain ⟨page, is⟩ := Option.isSome_iff_exists.mp (all k (List.mem_range.mp listed))
    simp [pageSpan, is]

/-- R473: what an access reads, where every stretch of it is reached. -/
theorem hostRead_eq_some {s : State} {block a n : Nat} {bs : List Byte} (reads : hostRead s block a n = some bs) :
    ∃ B : Nat → Byte, bs = (List.range' a n).map B ∧ ∀ k ≤ n, hostRead s block a k = some ((List.range' a k).map B) := by
  obtain ⟨l, reach, read⟩ := Option.map_eq_some_iff.mp reads
  obtain ⟨spans, sound⟩ := Option.filter_eq_some_iff.mp reach
  simp only [Bool.and_eq_true, decide_eq_true_eq, List.all_eq_true] at sound
  obtain ⟨inside, ok⟩ := sound
  have shorter {x y m : Nat} (le : m ≤ y) (whole : spanOk s (x, y) = true) : spanOk s (x, m) = true := by
    unfold spanOk at whole ⊢
    simp only [Bool.or_eq_true, beq_iff_eq, Bool.and_eq_true, decide_eq_true_eq, Bool.not_eq_true', List.any_eq_false,
      not_and] at whole ⊢
    rcases whole with zero | ⟨fits, free⟩
    · exact .inl (by omega)
    · exact .inr ⟨by omega, fun r listed below above => free r listed below (by omega)⟩
  cases on : s.pcie.atsOn.contains (blockFn s block) with
  | false =>
    have plain (k : Nat) : hostSpans s (blockFn s block) a k = some [(a, k)] := by unfold hostSpans; rw [on]; rfl
    rw [plain, Option.some.injEq] at spans
    subst spans
    refine ⟨memRead s.host.mem, ?_, fun k le => ?_⟩
    · rw [← read]
      simp [memReadN_eq_map]
    · have whole := shorter le (ok _ List.mem_cons_self)
      unfold hostRead hostReach
      rw [plain, Option.filter_some]
      have within : decide (a + k ≤ 2 ^ 64) = true := decide_eq_true (by omega)
      rw [within]
      simp [memReadN_eq_map, whole]
  | true =>
    obtain ⟨all, rfl⟩ := (hostSpans_ats_some on).mp spans
    have bytes (k : Nat) (le : k ≤ n) : hostRead s block a k = some ((List.range' a k).map (atsByte s (blockFn s block))) := by
      have count : pageCount a k ≤ pageCount a n := by unfold pageCount; omega
      have pages := (hostSpans_ats_some (s := s) (fn := blockFn s block) (a := a) (n := k) on).mpr
        ⟨fun j less => all j (less.trans_le count), rfl⟩
      unfold hostRead hostReach
      rw [pages, Option.filter_some, if_pos, Option.map_some]
      · rw [List.flatMap_map, ← pages_flatMap, List.map_flatMap, Option.some.injEq]
        refine List.flatMap_congr fun j listed => ?_
        obtain ⟨page, is⟩ := Option.isSome_iff_exists.mp (all j ((List.mem_range.mp listed).trans_le count))
        rw [is]
        exact memReadN_page s is
      · simp only [Bool.and_eq_true, decide_eq_true_eq, List.all_eq_true]
        refine ⟨by omega, fun x listed => ?_⟩
        obtain ⟨j, member, rfl⟩ := List.mem_map.mp listed
        refine shorter ?_ (ok _ (List.mem_map_of_mem (List.mem_range.mpr ((List.mem_range.mp member).trans_le count))))
        unfold pageTo
        omega
    refine ⟨atsByte s (blockFn s block), ?_, bytes⟩
    exact Option.some.inj (reads.symm.trans (bytes n le_rfl))

theorem hostRead_length {s : State} {block a n : Nat} {bs : List Byte} (reads : hostRead s block a n = some bs) : bs.length = n := by
  obtain ⟨B, rfl, -⟩ := hostRead_eq_some reads
  simp

/-- R473: an access that reaches its bytes reaches and reads the first of them. -/
theorem hostRead_take {s : State} {block a n k : Nat} {bs : List Byte} (reads : hostRead s block a n = some bs) (le : k ≤ n) :
    hostRead s block a k = some (bs.take k) := by
  obtain ⟨B, rfl, each⟩ := hostRead_eq_some reads
  rw [each k le, ← List.map_take, List.take_range'_of_length_ge le]

end Sys2Proof.Machine
end

section
/-! SUPPORT. Plans, weights, tensors and deeds (R177, R190, R303, R443 to R446, R454 to R458, R483). -/

namespace Sys2Proof.Machine

open Sys2Proof.Claims

/-- R480: a request that passes is performed. -/
theorem zRow_passes {op : Nat} {form : Option Nat} {f : ZDo} {r : ZReq} {p t : Nat} {b : List Byte} {s : State}
    (h : passes op form r p t b s = true) :
    zRow op form f r s = .next (refresh (f (ticketOf r s) p t b (taken r s))) := by
  unfold passes at h
  rw [Bool.and_eq_true] at h
  obtain ⟨comes, checked⟩ := h
  split at checked
  next z fm p1 t1 b1 ok =>
    simp only [Bool.and_eq_true, beq_iff_eq, Bool.or_eq_true, Bool.not_eq_true', List.isEmpty_iff] at checked
    obtain ⟨⟨⟨rfl, rfl⟩, rfl⟩, now⟩ := checked
    have fits : rowFits op form r s := by
      simp only [rowFits, arrives, Bool.and_eq_true, Bool.or_eq_true] at comes ⊢
      tauto
    exact zRow_performs fits ok fun held => now.resolve_left (by simp [held])
  next => cases checked

/-! The verifier's checks (R177). -/

theorem imageChecks_segments {tk : Ticket} {p t k n : Nat} {im : List Byte} {sums z : Tbl Int} {s : State}
    (all : (List.range' k n).foldlM (fun y k => segmentFail s p t im k y) sums = .ok z) :
    imageChecks tk p t im n (6 + k) sums s = .ok z := by
  induction n generalizing k sums with
  | zero =>
    have same : sums = z := Except.ok.inj all
    rw [same]
    rfl
  | succ n ih =>
    rw [List.range'_succ, List.foldlM_cons] at all
    cases first : segmentFail s p t im k sums with
    | error e => rw [first] at all; cases all
    | ok y =>
      rw [first] at all
      have check : imageCheck tk p t im (6 + k) sums s = .ok y := by
        unfold imageCheck
        have zero : ((6 + k) == 0) = false := by simp
        have one : ((6 + k) == 1) = false := by simp; omega
        have segment : 6 + k - 6 = k := by omega
        simp only [zero, one, show ¬ 6 + k < 6 by omega, segment, first, Bool.false_eq_true, if_false]
      rw [imageChecks, check]
      exact ih (k := k + 1) all

theorem imageChecks_ok {tk : Ticket} {p t : Nat} {im : List Byte} {z : Tbl Int} {s : State} (layout : layoutFail im = none)
    (signed : signatureOk im ((s.parcel p).ten t).signer = true) (parts : ∀ k, k < 4 → partFail (s.parcel p) t im k = none)
    (all : (List.range (imgSegments im)).foldlM (fun y k => segmentFail s p t im k y) ([] : Tbl Int) = .ok z) :
    imageChecks tk p t im (checkCount im) 0 [] s = .ok z := by
  have segments := imageChecks_segments (tk := tk) (k := 0) (by rwa [← List.range_eq_range'])
  have part (k : Nat) (less : k < 4) : imageCheck tk p t im (k + 2) [] s = .ok [] := by
    have one : ((k + 2) == 1) = false := by simp
    unfold imageCheck
    simp only [one, show ¬ (k + 2 == 0) = true by simp, show k + 2 < 6 by omega, Nat.add_sub_cancel, parts k less, Bool.false_eq_true,
      if_false, if_true]
  rw [checkCount, Nat.add_comm]
  have zero : imageCheck tk p t im 0 [] s = .ok [] := by simp [imageCheck, layout]
  have one : imageCheck tk p t im 1 [] s = .ok [] := by simp [imageCheck, signed]
  simp only [imageChecks, zero, one, part 0 (by decide), part 1 (by decide), part 2 (by decide), part 3 (by decide)]
  exact segments

/-- R308, R323: a command that moves data, outside a hold and a drain. -/
theorem moveBarred_none {s : State} (hold : s.power.holdOn = false) (drain : s.power.drainOn = false) : moveBarred s = none := by
  rw [moveBarred, hold, drain]
  rfl

/-- R177, R330: what PLAN_LOAD asks before the verifier. -/
theorem planRead_ok {tk : Ticket} {p t : Nat} {b im : List Byte} {s : State}
    (held : ∀ k ∈ slotsIn (le b 16 2 * 2 ^ 30 + le b 20 4) (max (le b 8 8) 1),
      (tblGet (s.parcel p).lots k).any (fun e => !e.classA && e.owner == t) = true ∧ k ∉ dataSlots (s.parcel p))
    (apart : ∀ v ∈ (s.parcel p).plans, le b 16 2 * 2 ^ 30 + le b 20 4 + le b 8 8 ≤ v.slot * 2 ^ 30 + v.offset ∨
      v.slot * 2 ^ 30 + v.offset + v.image.length ≤ le b 16 2 * 2 ^ 30 + le b 20 4) (short : le b 8 8 ≤ 2 ^ 28)
    (source : hostRead s tk.block (le b 0 8) (le b 8 8) = some im) (long : 20 ≤ le b 8 8)
    (room : ((s.parcel p).variants t (imgItem im)).length < 8) (hold : s.power.holdOn = false) (drain : s.power.drainOn = false) :
    planRead tk p t b s = .ok im := by
  have header : hostRead s tk.block (le b 0 8) (min (le b 8 8) 20) = some (im.take 20) := by
    rw [min_eq_right long]
    exact hostRead_take source long
  have item : le (im.take 20) 16 4 = imgItem im := by
    have whole : im = im.take 20 ++ im.drop 20 := (List.take_append_drop 20 im).symm
    have size : (im.take 20).length = 20 := by rw [List.length_take, hostRead_length source, min_eq_left long]
    rw [imgItem]
    conv_rhs => rw [whole]
    exact (le_left (show 16 + 4 ≤ (im.take 20).length from size.ge) _).symm
  have lots : (slotsIn (le b 16 2 * 2 ^ 30 + le b 20 4) (max (le b 8 8) 1)).all (fun k =>
      (tblGet (s.parcel p).lots k).any (fun e => !e.classA && e.owner == t)) = true :=
    List.all_eq_true.mpr fun k listed => (held k listed).1
  have data : (slotsIn (le b 16 2 * 2 ^ 30 + le b 20 4) (max (le b 8 8) 1)).any (fun k => (dataSlots (s.parcel p)).contains k) = false :=
    List.any_eq_false.mpr fun k listed => by simpa using (held k listed).2
  have plans : (s.parcel p).plans.any (fun v =>
      decide (le b 16 2 * 2 ^ 30 + le b 20 4 < v.slot * 2 ^ 30 + v.offset + v.image.length) &&
        decide (v.slot * 2 ^ 30 + v.offset < le b 16 2 * 2 ^ 30 + le b 20 4 + le b 8 8)) = false :=
    List.any_eq_false.mpr fun v listed => by
      simp only [Bool.and_eq_true, decide_eq_true_eq, not_and, Nat.not_lt]
      have := apart v listed
      omega
  unfold planRead
  dsimp only
  rw [lots, plans, data, header]
  dsimp only
  rw [item, if_neg (Nat.not_le.mpr room), hold, drain, if_neg (Nat.not_lt.mpr short), source]
  rfl

theorem weightsBarred_none {p t : Nat} {b : List Byte} {s : State} (len : le b 8 8 % 256 = 0) (dest : le b 16 8 % 256 = 0)
    (held : rangeHeld (s.parcel p) t (le b 16 8) (le b 8 8) = true) (free : rangePlan (s.parcel p) (le b 16 8) (le b 8 8) = false)
    (room : ((s.parcel p).ten t).ledger.length < 4096) (hold : s.power.holdOn = false) (drain : s.power.drainOn = false) :
    weightsBarred p t b s = none := by
  unfold weightsBarred
  dsimp only
  rw [len, dest, held, free, if_neg (Nat.not_le.mpr room), moveBarred_none hold drain]
  rfl

theorem wrapChecked_ok {tk : Ticket} {p t : Nat} {b h : List Byte} {key : KeySlot} {s : State} (sound : s.sec.error = false)
    (dest : le b 16 8 % 256 = 0) (header : hostRead s tk.block (le b 0 8) (min (le b 8 8) 64) = some h)
    (form : wrapOk h (le b 8 8) = true) (held : rangeHeld (s.parcel p) t (le b 16 8) (le h 16 8) = true)
    (free : rangePlan (s.parcel p) (le b 16 8) (le h 16 8) = false)
    (slot : tblGet ((s.parcel p).ten t).keys (le h 6 1) = some key) (room : ((s.parcel p).ten t).ledger.length < 4096)
    (hold : s.power.holdOn = false) (drain : s.power.drainOn = false) : wrapChecked tk p t b s = .ok (h, key) := by
  unfold wrapChecked
  dsimp only
  rw [sound, dest, header]
  dsimp only
  rw [form, held, free, slot]
  dsimp only
  rw [if_neg (Nat.not_le.mpr room), moveBarred_none hold drain]
  rfl

end Sys2Proof.Machine

open Sys2Proof Sys2Proof.Machine Sys2Proof.Claims

/-- Settles O44: each command by its checks, which its conditions meet. -/
theorem dataCommandsComplete : Obligations.DataCommandsComplete := by
  intro r p t b s
  refine ⟨fun im pass held apart short source long room hold drain layout signed parts all stored => ?_, fun pass => ?_,
    fun text pass => ?_, fun src h key text w y pass => ?_, fun d pass held free hold drain source => ?_,
    fun pass held hold drain => ?_, fun pass sound => ?_, fun pass sound => ?_⟩
  · obtain ⟨z, all⟩ := all
    refine (zRow_passes (f := cmdPlanLoad) pass).trans ?_
    generalize taken r s = x at *
    have read := planRead_ok (tk := ticketOf r s) held apart short source long room hold drain
    have checks := imageChecks_ok (tk := ticketOf r s) layout signed parts all
    unfold cmdPlanLoad
    rw [read]
    dsimp only
    rw [checks]
    dsimp only
    unfold imageStored zWriter zCtx
    dsimp only
    rw [stored, bne_self_eq_false]
    simp only [Bool.false_eq_true, if_false]
  · intro isIt here unused
    refine (zRow_passes (f := cmdPlanUnload) pass).trans ?_
    generalize taken r s = x at *
    have idle : (x.parcel p).items.any (fun i =>
        i.tenancy == t && i.itemId == le b 0 4 && i.classMax == le b 4 4 && i.kind != .update && i.kind != .coll) = false :=
      List.any_eq_false.mpr fun i listed => by simp [unused i listed]
    unfold cmdPlanUnload
    dsimp only
    rw [here, idle]
    rfl
  · intro n dest len aligned held free room hold drain source w
    have row := zRow_passes (f := cmdWeightsLoad) pass
    have open_ := weightsBarred_none len aligned held free room hold drain
    have made : cmdWeightsLoad (ticketOf r s) p t b (taken r s) = loadReply (ticketOf r s) p t 0 dest 0xFF text w := by
      unfold cmdWeightsLoad
      dsimp only
      rw [open_]
      dsimp only
      rw [show (ticketOf r s).block = r.block from rfl, source]
      rfl
    rw [made] at row
    clear_value w
    refine ⟨fun ok => row.trans ?_, fun fails => row.trans ?_⟩
    · rw [loadReply, ok]
      rfl
    · rw [loadReply, if_neg (by simpa using fails)]
  · intro n dest sound aligned header form held free slot room hold drain source chunks ok
    refine (zRow_passes (f := cmdWeightsLoadWrapped) pass).trans ?_
    generalize taken r s = x at *
    have checked := wrapChecked_ok (tk := ticketOf r s) sound aligned header form held free slot room hold drain
    unfold cmdWeightsLoadWrapped
    dsimp only
    rw [checked]
    dsimp only
    rw [show (ticketOf r s).block = r.block from rfl, source]
    dsimp only
    rw [chunks]
    dsimp only
    rw [loadReply, ok]
    rfl
  · intro w
    refine (zRow_passes (f := cmdTensorWrite) pass).trans ?_
    have open_ : writeBarred p t b (taken r s) = none := by
      unfold writeBarred
      dsimp only
      rw [held, free, moveBarred_none hold drain]
      rfl
    unfold cmdTensorWrite
    rw [open_]
    dsimp only
    rw [show (ticketOf r s).block = r.block from rfl, source]
    dsimp only
    simp only [beq_iff_eq]
    rfl
  · intro d y written
    refine (zRow_passes (f := cmdTensorRead) pass).trans ?_
    have open_ : readBarred p t b (taken r s) = none := by
      unfold readBarred
      rw [held, moveBarred_none hold drain]
      rfl
    unfold cmdTensorRead
    rw [open_]
    dsimp only
    rw [show (ticketOf r s).block = r.block from rfl]
    have written' : hostWrite (pvRead p t (le b 16 8) (le b 8 8) false (zCtx t) (taken r s)).2.2.2 r.block (le b 0 8)
      (pvRead p t (le b 16 8) (le b 8 8) false (zCtx t) (taken r s)).2.2.1 = some y := written
    rw [written']
    dsimp only
    simp only [beq_iff_eq]
    rfl
  · refine (zRow_passes (f := cmdDeedGetParcel) pass).trans ?_
    unfold cmdDeedGetParcel
    rw [sound]
    rfl
  · refine (zRow_passes (f := cmdDeedGetPackage) pass).trans ?_
    unfold cmdDeedGetPackage
    rw [sound]
    rfl
end

section
/-! SUPPORT. The bits of a map, the maintenance commands, and what a repaired lane leaves (13 R483, 08 R322 to R326). -/

namespace Sys2Proof.Machine

/-- Setting a bit that is not set leaves every other one. -/
theorem bit_add_pow {a j : Nat} (unset : bit a j = false) (k : Nat) : bit (a + 2 ^ j) k = (bit a k || decide (k = j)) := by
  have low : a % 2 ^ (j + 1) < 2 ^ j := by
    rw [Nat.mod_pow_succ]
    have zero : a / 2 ^ j % 2 = 0 := by
      have := Nat.mod_two_eq_zero_or_one (a / 2 ^ j)
      simp only [bit, beq_eq_false_iff_ne] at unset
      omega
    rw [zero, Nat.mul_zero, Nat.add_zero]
    exact Nat.mod_lt _ (Nat.two_pow_pos j)
  have parts : a = 2 ^ (j + 1) * (a / 2 ^ (j + 1)) + a % 2 ^ (j + 1) := (Nat.div_add_mod a _).symm
  have room : 2 ^ j * 1 + a % 2 ^ (j + 1) < 2 ^ (j + 1) :=
    lt_of_lt_of_eq (Nat.add_lt_add_left low _) (by rw [Nat.pow_succ, Nat.mul_one, Nat.mul_two])
  have fits : a % 2 ^ (j + 1) < 2 ^ (j + 1) := Nat.mod_lt _ (Nat.two_pow_pos _)
  have both : a + 2 ^ j = 2 ^ (j + 1) * (a / 2 ^ (j + 1)) + (2 ^ j * 1 + a % 2 ^ (j + 1)) := by omega
  rw [bit_eq_testBit, bit_eq_testBit, both, Nat.testBit_two_pow_mul_add _ room, Nat.testBit_two_pow_mul_add _ low]
  conv => rhs; rw [parts, Nat.testBit_two_pow_mul_add _ fits]
  rcases Nat.lt_trichotomy k j with below | rfl | above
  · simp [below, Nat.lt_succ_of_lt below, Nat.ne_of_lt below]
  · simp
  · simp [Nat.not_lt.mpr above, Nat.ne_of_gt above]

theorem bit_foldl_set (l : List Nat) (a k : Nat) :
    bit (l.foldl (fun a k => if bit a k then a else a + 2 ^ k) a) k = (bit a k || decide (k ∈ l)) := by
  induction l generalizing a with
  | nil => simp
  | cons j r ih =>
    rw [List.foldl_cons, ih]
    by_cases set : bit a j = true
    · rw [if_pos set]
      by_cases same : k = j
      · subst same
        simp [set]
      · simp [same]
    · rw [if_neg set, bit_add_pow (by simpa using set), Bool.or_assoc]
      simp

/-- R16: a map has exactly its bits set. -/
theorem bit_mapOf (l : List Nat) (k : Nat) : bit (mapOf l) k = decide (k ∈ l) := by
  unfold mapOf
  rw [bit_foldl_set]
  simp [bit]

/-- R16: a field of so many bytes has the bits of its value. -/
theorem bit_leBytes {x n k : Nat} (within : k < 8 * n) (b : List Byte) : bit (le (leBytes x n ++ b) 0 n) k = bit x k := by
  rw [le_leBytes, show (256 : Nat) = 2 ^ 8 from rfl, ← Nat.pow_mul, bit_eq_testBit, Nat.testBit_mod_two_pow, bit_eq_testBit]
  simp [within]

theorem bit_leBytes_self {x n k : Nat} (within : k < 8 * n) : bit (le (leBytes x n) 0 n) k = bit x k := by
  simpa using bit_leBytes (x := x) within []

/-- R324: the bits of a pass map are those of the steps asked for. -/
theorem mem_passMap {vs ts key v q : Nat} (within : q < 32) (narrow : ts ≤ 32) :
    32 * v + q ∈ (List.range vs).flatMap (fun v => (List.range ts).filterMap (fun t =>
      if Config.marginPass key v t then some (32 * v + t) else none)) ↔ v < vs ∧ q < ts ∧ Config.marginPass key v q = true := by
  simp only [List.mem_flatMap, List.mem_filterMap, List.mem_range, Option.ite_none_right_eq_some, Option.some.injEq]
  constructor
  · rintro ⟨v', below, t, inside, passed, same⟩
    obtain ⟨rfl, rfl⟩ : v' = v ∧ t = q := by omega
    exact ⟨below, inside, passed⟩
  · rintro ⟨below, inside, passed⟩
    exact ⟨v, below, q, inside, passed, rfl⟩

theorem foldl_grows {α β : Type} {f : β → α → β} {g : β → Nat} (grows : ∀ b a, g b ≤ g (f b a)) (l : List α) (b : β) :
    g b ≤ g (l.foldl f b) := by
  induction l generalizing b with
  | nil => exact Nat.le_refl _
  | cons a r ih => exact Nat.le_trans (grows b a) (ih _)

/-! R556: records of events only add to the PF log. -/

theorem recordNow_tail (kind p t seq len : Nat) (a b : List Byte) (s : State) :
    (recordNow kind p t seq len a b s).pfLog.tail = s.pfLog.tail + 1 := by
  rw [recordNow_pfLog]
  rfl

theorem satLogs_tail (ps : List Nat) (n : Nat) (old s : State) : s.pfLog.tail ≤ (satLogs ps n old s).pfLog.tail := by
  induction n generalizing old s with
  | zero => exact Nat.le_refl _
  | succ n ih =>
    unfold satLogs
    extract_lets hit
    split
    · exact Nat.le_refl _
    · exact Nat.le_trans (foldl_grows (g := fun s : State => s.pfLog.tail)
        (fun s x => (Nat.le_succ _).trans_eq (recordNow_tail ..).symm) hit s) (ih s _)

/-- R553: an event of the package joins the PF log. -/
theorem recordM_tail (kind len : Nat) (body : List Byte) (s : State) : s.pfLog.tail < (recordM kind len body s).pfLog.tail := by
  unfold recordM recordP
  refine Nat.lt_of_lt_of_le ?_ (satLogs_tail _ _ _ _)
  rw [recordNow_tail]
  exact Nat.lt_succ_self _

theorem mem_dropRepair {kind k ch ps row : Nat} {s : State} {q : Repair} :
    q ∈ (dropRepair kind k ch ps row s).store.repairs ↔ q ∈ s.store.repairs ∧
      ¬ (q.kind = kind ∧ q.stack = k ∧ q.channel = ch ∧ (kind = 2 ∨ q.pseudo = ps) ∧ q.row = row) := by
  simp only [dropRepair, List.mem_filter]
  refine and_congr_right fun _ => ?_
  simp only [Bool.not_eq_true', Bool.and_eq_false_iff, Bool.or_eq_false_iff, beq_eq_false_iff_ne]
  tauto

theorem retrainNow_store (k ch : Nat) (s : State) : (retrainNow k ch s).store = s.store := by
  unfold retrainNow
  dsimp only
  split <;> rfl

theorem retrainNow_pfLog (k ch : Nat) (s : State) : (retrainNow k ch s).pfLog = s.pfLog := by
  unfold retrainNow
  dsimp only
  split <;> rfl

theorem retrainNow_fails (k ch : Nat) (s : State) :
    ((retrainNow k ch s).stack k).fails = if (s.stack k).nextCh = ch then 0 else (s.stack k).fails := by
  unfold retrainNow
  simp only [beq_iff_eq]
  split
  · rw [State.setStack_stack_same]
  · rfl

end Sys2Proof.Machine
end

section
/-! SUPPORT. What the maintenance commands answer (13 R483, 08 R322 to R326). -/

namespace Sys2Proof.Machine

/-- R323, R326: what a repaired lane leaves. -/
theorem laneRepair_eqs (k ch ps lane : Nat) (y : State) : let u := laneRepair k ch ps lane y
    tblGet u.store.lanesUsed k = some ((tblGet y.store.lanesUsed k).getD 0 + 1) ∧
      (u.stack k).fails = (if (y.stack k).nextCh = ch then 0 else (y.stack k).fails) ∧
      y.pfLog.tail < u.pfLog.tail ∧ ∀ q ∈ u.store.repairs, q ∈ y.store.repairs ∧
        ¬ (q.kind = 2 ∧ q.stack = k ∧ q.channel = ch ∧ q.row = lane) := by
  unfold laneRepair repairedEvent chanErr
  extract_lets n st noted temp u
  have records : RecordsOnly (retrainNow k ch noted) u := recordM_records ..
  have tail : noted.pfLog.tail < u.pfLog.tail := by
    rw [← retrainNow_pfLog k ch]
    exact recordM_tail ..
  have store : u.store = noted.store := records.store.trans (retrainNow_store ..)
  have fails : (u.stack k).fails = _ := (congrArg Stack.fails (records.stack k)).trans (retrainNow_fails ..)
  clear_value u
  refine ⟨?_, fails, tail, fun q here => ?_⟩
  · rw [store]
    exact tblGet_put_same ..
  · rw [store, mem_dropRepair] at here
    exact ⟨here.1, fun ⟨kind, stack, channel, row⟩ => here.2 ⟨kind, stack, channel, .inl rfl, row⟩⟩

/-- A field of the first bytes of a list is one of the list. -/
theorem slice_slice {n m : Nat} (within : n ≤ m) (q : List Byte) : slice (slice q 0 m) 0 n = slice q 0 n := by
  have more : n - min m q.length = n - q.length := by omega
  simp only [slice, List.drop_zero, List.take_append, List.take_take, List.length_take, List.take_replicate, List.length_append,
    List.length_replicate, List.append_assoc, Nat.min_eq_left within, more]
  rw [List.replicate_append_replicate]
  congr 2
  omega

/-- R483: the first 40 bytes of a telemetry reply. -/
def telemetryHead (s : State) : List Byte :=
  slice (pay [(s.telem.inputW, 4)] ++ s.telem.dieT.map (BitVec.ofNat 8) ++ [BitVec.ofNat 8 s.telem.hubT]
    ++ s.telem.hsT.map (BitVec.ofNat 8)) 0 32 ++ leBytes s.telem.readAt 8

theorem length_telemetryHead (s : State) : (telemetryHead s).length = 40 := by
  rw [telemetryHead, List.length_append, length_slice, length_leBytes]

theorem telemetryHead_power (s : State) : le (telemetryHead s) 0 4 = s.telem.inputW % 2 ^ 32 := by
  rw [telemetryHead, le_left (by rw [length_slice]; omega), le, slice_slice (by omega), ← le, pay_cons, pay_nil, List.append_assoc,
    List.append_assoc, List.append_assoc, le_leBytes]
  norm_num

theorem telemetryHead_read (s : State) : le (telemetryHead s) 32 8 = s.telem.readAt % 2 ^ 64 := by
  rw [telemetryHead, le_skip (by rw [length_slice]), length_slice, le_leBytes_self]
  norm_num

theorem cmdTelemetryGet_all {tk : Ticket} {p t : Nat} {b : List Byte} {s : State} (all : le b 0 2 = 0xFFFF) :
    cmdTelemetryGet tk p t b s = reply tk .ok (telemetryHead s) s := by
  unfold cmdTelemetryGet
  dsimp only
  rw [all]
  rfl

theorem cmdTelemetryGet_one {tk : Ticket} {p t : Nat} {b : List Byte} {s : State} (one : le b 0 2 < 48)
    (live : (s.parcel (le b 0 2)).state ≠ .free) : cmdTelemetryGet tk p t b s = reply tk .ok (telemetryHead s ++
      (if sealedOrPending s (le b 0 2) then (s.parcel (le b 0 2)).coarse else parcelTotals (s.parcel (le b 0 2)))) s := by
  have other : (le b 0 2 == 0xFFFF) = false := by
    rw [beq_eq_false_iff_ne]
    omega
  have open_ : (decide (48 ≤ le b 0 2) || (s.parcel (le b 0 2)).state == .free) = false := by
    rw [Bool.or_eq_false_iff, decide_eq_false_iff_not, beq_eq_false_iff_ne]
    exact ⟨by omega, live⟩
  unfold cmdTelemetryGet
  dsimp only
  rw [other, open_]
  rfl

/-- R483: the reply of FENCE_QUERY for the module. -/
def fenceBody (s : State) : List Byte :=
  leBytes (mapOf (activeCores s)) 28 ++ leBytes (mapOf ((List.range 224).filter (fun k => (s.cmeta k).state == .fenced))) 28
    ++ leBytes (mapOf (reserveCores s)) 28 ++ foldTable s
    ++ (List.range 8).flatMap (fun (d : Nat) => leBytes (s.die d).dsCorrected 6)
    ++ (List.range 12).flatMap (fun h =>
      pay [((s.stack h).corrected, 6), ((s.stack h).uncorrected, 6), ((s.stack h).detect, 6), ((s.stack h).replay, 6)])

theorem length_fenceBody (s : State) : (fenceBody s).length = 468 := by
  have entries : (foldTable s).length = 4 * 12 := length_flatMap_of_length (fun _ => length_leBytes ..) _
  have stores : ((List.range 8).flatMap (fun (d : Nat) => leBytes (s.die d).dsCorrected 6)).length = 6 * 8 :=
    length_flatMap_of_length (fun _ => length_leBytes ..) _
  have counts : ((List.range 12).flatMap (fun h => pay [((s.stack h).corrected, 6), ((s.stack h).uncorrected, 6),
      ((s.stack h).detect, 6), ((s.stack h).replay, 6)])).length = 24 * 12 :=
    length_flatMap_of_length (fun _ => by simp [length_leBytes]) _
  simp only [fenceBody, List.length_append, length_leBytes, entries, stores, counts]

theorem fenceBody_maps (s : State) {k : Nat} (core : k < 224) : bit (le (fenceBody s) 0 28) k = coreUp s k ∧
    bit (le (fenceBody s) 28 28) k = decide ((s.cmeta k).state = .fenced) ∧
    bit (le (fenceBody s) 56 28) k = decide ((s.cmeta k).state = .reserve) := by
  simp only [fenceBody, List.append_assoc]
  refine ⟨?_, ?_, ?_⟩
  · rw [bit_leBytes (by omega), bit_mapOf]
    simp [activeCores, core]
  · rw [le_leBytes_skip (by omega), bit_leBytes (by omega), bit_mapOf]
    simp [core]
  · rw [le_leBytes_skip (by omega), le_leBytes_skip (by omega), bit_leBytes (by omega), bit_mapOf]
    simp [reserveCores, core]

theorem cmdFenceQuery_all {tk : Ticket} {p t : Nat} {b : List Byte} {s : State} (all : le b 0 2 = 0xFFFF) :
    cmdFenceQuery tk p t b s = reply tk .ok (fenceBody s) s := by
  unfold cmdFenceQuery
  dsimp only
  rw [all]
  rfl

/-- R483: the reply of FENCE_QUERY for one core. -/
def coreBody (k : Nat) (s : State) : List Byte :=
  pay [(k, 2), ((s.cmeta k).state.code, 1), (0, 1), ((parcelOfCore s k).getD 0xFFFF, 2),
    ((((parcelOfCore s k).bind (fun p => (s.parcel p).logical k)).getD 0xFFFF), 2), ((s.core k).spCorrected, 6), (0, 2)]
    ++ slice ((tblGet s.store.arrayFuse k).getD []) 0 24 ++ leBytes (s.cmeta k).fencedAt 8

theorem length_coreBody (k : Nat) (s : State) : (coreBody k s).length = 48 := by
  simp [coreBody, length_leBytes, length_slice]

theorem coreBody_fields (k : Nat) (s : State) : le (coreBody k s) 0 2 = k % 65536 ∧
    le (coreBody k s) 2 1 = (s.cmeta k).state.code % 256 ∧ le (coreBody k s) 40 8 = (s.cmeta k).fencedAt % 2 ^ 64 := by
  simp only [coreBody, pay_cons, pay_nil, List.append_assoc]
  refine ⟨le_leBytes .., ?_, ?_⟩
  · rw [le_leBytes_skip (by omega), le_leBytes, pow_one]
  · rw [le_leBytes_skip (by omega), le_leBytes_skip (by omega), le_leBytes_skip (by omega), le_leBytes_skip (by omega),
      le_leBytes_skip (by omega), le_leBytes_skip (by omega), le_leBytes_skip (by omega), List.nil_append,
      le_skip (by rw [length_slice]), length_slice, le_leBytes_self]
    norm_num

theorem cmdFenceQuery_one {tk : Ticket} {p t : Nat} {b : List Byte} {s : State} (one : le b 0 2 ≠ 0xFFFF) :
    cmdFenceQuery tk p t b s = reply tk .ok (coreBody (le b 0 2) s) s := by
  unfold cmdFenceQuery
  dsimp only
  rw [if_neg (by simpa using one)]
  rfl

theorem CState.code_lt (c : CState) : c.code < 256 := by cases c <;> decide

end Sys2Proof.Machine
end

section
/-! SUPPORT. The maintenance commands that wait for a frame head, repair a row or a lane, or take firmware (13 R483). -/

namespace Sys2Proof.Machine

/-- R16: what n bytes hold. -/
theorem le_lt (b : List Byte) (o n : Nat) : le b o n < 256 ^ n := by
  have value (l : List Byte) : leNat l < 256 ^ l.length := by
    induction l with
    | nil => simp [leNat]
    | cons x r ih =>
      have := x.isLt
      simp only [leNat, List.length_cons, Nat.pow_succ]
      omega
  simpa [le, length_slice] using value (slice b o n)

theorem cmdMaintDrainBegin_waits {tk : Ticket} {p t : Nat} {b : List Byte} {s : State} (off : s.power.drainOn = false)
    (none_ : ∀ c ∈ s.changes, c.2.drains = false) : cmdMaintDrainBegin tk p t b s = pushChange (.drainBegin tk) s := by
  have alone : s.changes.any (fun c => c.2.drains) = false := List.any_eq_false.mpr fun c listed => by simp [none_ c listed]
  unfold cmdMaintDrainBegin
  rw [off, alone]
  rfl

theorem cmdMaintDrainEnd_waits {tk : Ticket} {p t : Nat} {b : List Byte} {s : State} (on : s.power.drainOn = true)
    (none_ : ∀ c ∈ s.changes, ∀ tk, c.2 ≠ .drainEnd tk) : cmdMaintDrainEnd tk p t b s = pushChange (.drainEnd tk) s := by
  unfold cmdMaintDrainEnd
  extract_lets asked
  have alone : asked = false := List.any_eq_false.mpr fun c listed => by
    split
    next _ tk isIt => exact absurd isIt (none_ c listed tk)
    · simp
  rw [on, alone]
  rfl

/-- R322: the bytes of a candidate for repair. -/
def repairEntry (r : Repair) : List Byte :=
  pay [(r.kind, 1), (r.stack, 1), (r.channel, 1), (r.pseudo, 1), (r.row, 4), (r.postmark, 8)]

/-- R472, R483: a list of candidates. -/
def repairBody (got all : List Repair) : List Byte := pay [(got.length, 2), (all.length, 2), (0, 4)] ++ got.flatMap repairEntry

theorem repairBody_count (got all : List Repair) : le (repairBody got all) 2 2 = all.length % 65536 := by
  simp only [repairBody, pay_cons, List.append_assoc]
  rw [le_leBytes_skip (by omega), le_leBytes]
  norm_num

theorem length_repairBody (got all : List Repair) : (repairBody got all).length = 8 + 16 * got.length := by
  have entries : (got.flatMap repairEntry).length = 16 * got.length :=
    length_flatMap_of_length (fun _ => by simp [repairEntry, length_leBytes]) _
  rw [repairBody, List.length_append, entries]
  simp [length_leBytes]

theorem cmdHbmRepairList_cool {tk : Ticket} {p t : Nat} {b : List Byte} {s : State} (cool : s.power.holdOn = false) :
    cmdHbmRepairList tk p t b s =
      reply tk .ok (repairBody ((s.store.repairs.drop (le b 4 4)).take ((tk.space - 8) / 16)) s.store.repairs) s := by
  unfold cmdHbmRepairList
  dsimp only
  rw [cool]
  rfl

theorem cmdHbmRepairRow_done {tk : Ticket} {p t g : Nat} {b : List Byte} {s : State} (drained : s.power.drainOn = true)
    (cool : s.power.holdOn = false) (small : g < 2 ^ 22)
    (row : (Config.rowOf (64 * le b 1 1 + 2 * le b 2 1 + le b 3 1) g).toNat = le b 4 4) (spare : rowLeft s (le b 1 1) = true) :
    cmdHbmRepairRow tk p t b s = reply tk .ok [] (rowRepair (le b 1 1) (le b 2 1) (le b 3 1) (le b 4 4) s) := by
  have isRow : (List.range (2 ^ 22)).any
      (fun g => (Config.rowOf (64 * le b 1 1 + 2 * le b 2 1 + le b 3 1) g).toNat == le b 4 4) = true :=
    List.any_eq_true.mpr ⟨g, List.mem_range.mpr small, beq_iff_eq.mpr row⟩
  unfold cmdHbmRepairRow
  dsimp only
  rw [drained, isRow, spare, cool]
  rfl

theorem cmdHbmRepairLane_done {tk : Ticket} {p t : Nat} {b : List Byte} {s : State} (drained : s.power.drainOn = true)
    (cool : s.power.holdOn = false) (spare : laneLeft s (le b 1 1) = true) : cmdHbmRepairLane tk p t b s =
      reply tk (if Config.isDataLane (le b 4 4) then .ok else .badLength) []
        (if Config.isDataLane (le b 4 4) then laneRepair (le b 1 1) (le b 2 1) (le b 3 1) (le b 4 4) s else s) := by
  unfold cmdHbmRepairLane
  dsimp only
  rw [drained, spare, cool]
  cases Config.isDataLane (le b 4 4) <;> rfl

/-- R324: the steps that passed. -/
def passSteps (b : List Byte) : List Nat :=
  (List.range (le b 5 1)).flatMap (fun v => (List.range (le b 4 1)).filterMap (fun t =>
    if Config.marginPass (32 * le b 1 1 + le b 2 1) v t then some (32 * v + t) else none))

theorem cmdHbmMargin_done {tk : Ticket} {p t : Nat} {b : List Byte} {s : State} (drained : s.power.drainOn = true)
    (cool : s.power.holdOn = false) (alive : bit ((tblGet s.store.folds (le b 1 1)).getD 0) 31 = false)
    (due : (s.stack (le b 1 1)).foldDue = none) : cmdHbmMargin tk p t b s =
      reply tk .ok (leBytes (mapOf (passSteps b)) 128) (retrainNow (le b 1 1) (le b 2 1) s) := by
  unfold cmdHbmMargin
  dsimp only
  rw [drained, alive, due, cool]
  rfl

theorem passSteps_bits {b : List Byte} {v q : Nat} (narrow : le b 4 1 ≤ 32) (low : v < 32) (within : q < 32) :
    bit (le (leBytes (mapOf (passSteps b)) 128) 0 128) (32 * v + q) = (decide (v < le b 5 1) && decide (q < le b 4 1) &&
      Config.marginPass (32 * le b 1 1 + le b 2 1) v q) := by
  rw [bit_leBytes_self (by omega), bit_mapOf]
  unfold passSteps
  simp only [mem_passMap within narrow, Bool.decide_and, Bool.decide_eq_true, Bool.and_assoc]

theorem cmdReservePromote_waits {tk : Ticket} {p t : Nat} {b : List Byte} {s : State} (core : le b 0 2 < 224)
    (fenced : (s.cmeta (le b 0 2)).state = .fenced) (owned : (parcelOfCore s (le b 0 2)).isSome = true)
    (given : le b 2 2 ∈ reserves s (le b 0 2 / 28) ∨ (le b 2 2 = 0xFFFF ∧ reserves s (le b 0 2 / 28) ≠ [])) :
    cmdReservePromote tk p t b s = pushChange (.promote (le b 0 2) (le b 2 2) tk) s := by
  obtain ⟨q, owner⟩ := Option.isSome_iff_exists.mp owned
  have known : (le b 2 2 != 0xFFFF && !(reserves s (le b 0 2 / 28)).contains (le b 2 2)) = false := by
    rcases given with listed | ⟨any, -⟩
    · simp [listed]
    · simp [any]
  have some_ : (le b 2 2 == 0xFFFF && (reserves s (le b 0 2 / 28)).isEmpty) = false := by
    rcases given with listed | ⟨-, any⟩
    · simp [List.ne_nil_of_mem listed]
    · simp [any]
  unfold cmdReservePromote
  dsimp only
  rw [known, some_, fenced, owner, decide_eq_false (Nat.not_le.mpr core)]
  rfl

theorem cmdFwStage_read {tk : Ticket} {p t : Nat} {b im : List Byte} {s : State}
    (source : hostRead s tk.block (le b 0 8) (le b 8 8) = some im) : cmdFwStage tk p t b s =
      match (Config.fwImage im).filter (fun v => !bit s.store.revoked v.2.2.1 && decide (s.store.svn ≤ v.2.1)) with
      | some (digests, svn, _, raises) => reply tk .ok [] { s with store := { s.store with
          sets := s.store.sets.set (1 - s.store.activeSet) { digests := digests, svn := svn, raises := raises }
          staged := some (1 - s.store.activeSet) } }
      | none => reply tk .signatureFailed [] s := by
  unfold cmdFwStage
  rw [source]
  dsimp only
  cases Config.fwImage im with
  | none => rfl
  | some v =>
    obtain ⟨digests, svn, key, raises⟩ := v
    rw [Option.filter_some]
    dsimp only
    by_cases older : svn < s.store.svn
    · simp [older, Nat.not_le.mpr older, refuse]
    · cases bit s.store.revoked key <;> simp [older, Nat.not_lt.mp older, refuse]

end Sys2Proof.Machine
end

section
/-! SUPPORT. A request that passes has a payload of its command's layout (13 R480 check 6). -/

namespace Sys2Proof.Machine
open Sys2Proof.Claims

/-- What is accepted has a payload with a property. -/
def Checked.With (f : List Byte → Prop) : Checked → Prop
  | .refused _ => True
  | .ok _ _ _ _ b => f b

theorem Checked.With.refused {f : List Byte → Prop} (st : RStatus) : (Checked.refused st).With f := trivial

theorem Checked.With.ite {f : List Byte → Prop} {c : Prop} [Decidable c] {x y : Checked} (one : c → x.With f) (other : ¬ c → y.With f) :
    (if c then x else y).With f := by
  split
  · exact one ‹_›
  · exact other ‹_›

/-- R480 checks 7 to 9 take the payload as it is. -/
theorem checkTarget_payload (z : ZSpec) (tk : Ticket) (form : Nat) (b : List Byte) (s : State) :
    (checkTarget z tk form b s).With (· = b) := by
  unfold checkTarget
  extract_lets op bound names parcelNamed restore t x
  clear_value bound names t x
  refine .ite (fun _ => .refused _) fun _ => .ite (fun _ => .refused _) fun _ => .ite (fun _ => .refused _) fun _ =>
    .ite (fun _ => .refused _) fun _ => ?_
  cases bound
  case some => exact .ite (fun _ => rfl) fun _ => .refused _
  case none =>
    exact .ite (fun _ => rfl) fun _ => .ite (fun _ => .refused _) fun _ => .ite
      (fun _ => .ite (fun _ => .refused _) fun _ => .ite (fun _ => .refused _) fun _ => rfl)
      fun _ => .ite (fun _ => .refused _) fun _ => .ite (fun _ => .refused _) fun _ => .ite (fun _ => .refused _) fun _ =>
        .ite (fun _ => .refused _) fun _ => .ite (fun _ => .refused _) fun _ => rfl

theorem checkPayload_layout (z : ZSpec) (tk : Ticket) (r : ZReq) (s : State) :
    (checkPayload z tk r s).With fun b => ∃ form, layoutOk tk.op form b = true := by
  unfold checkPayload
  extract_lets n d got dOk minor
  clear_value got
  refine .ite (fun _ => .refused _) fun _ => ?_
  cases got
  case none => exact .refused _
  case some b =>
    dsimp only
    refine .ite (fun _ => .refused _) fun _ => .ite (fun _ => .refused _) fun _ => .ite (fun _ => .refused _) fun sound =>
      .ite (fun _ => .refused _) fun _ => ?_
    have payload := checkTarget_payload z tk ((z.form.map (fun o => le b o 1)).getD 0) b s
    simp only [Bool.or_eq_true, Bool.not_eq_true', not_or, Bool.not_eq_false] at sound
    generalize checkTarget z tk _ b s = c at payload ⊢
    cases c with
    | refused st => exact .refused st
    | ok z fm p t b' =>
      obtain rfl : b' = b := payload
      exact ⟨_, sound.1.2⟩

theorem zCheck_layout (r : ZReq) (s : State) : (zCheck r s).With fun b => ∃ form, layoutOk (le r.env 4 2) form b = true := by
  rw [zCheck_eq]
  refine .ite (fun _ => .refused _) fun _ => .ite (fun _ => .refused _) fun _ => .ite (fun _ => .refused _) fun _ => ?_
  split
  · exact .refused _
  · exact .ite (fun _ => .refused _) fun _ => .ite (fun _ => .refused _) fun _ => checkPayload_layout ..

theorem passes_layout {op : Nat} {form : Option Nat} {r : ZReq} {p t : Nat} {b : List Byte} {s : State}
    (h : passes op form r p t b s = true) : ∃ fm, layoutOk op fm b = true := by
  unfold passes at h
  rw [Bool.and_eq_true] at h
  obtain ⟨comes, checked⟩ := h
  simp only [arrives, Bool.and_eq_true, beq_iff_eq] at comes
  obtain ⟨⟨isOp, -⟩, -⟩ := comes
  have layout := zCheck_layout r s
  rw [isOp] at layout
  generalize zCheck r s = c at checked layout
  cases c with
  | refused st => cases checked
  | ok z fm p1 t1 b1 =>
    simp only [Bool.and_eq_true, beq_iff_eq] at checked
    obtain ⟨⟨⟨-, -⟩, rfl⟩, -⟩ := checked
    exact layout

end Sys2Proof.Machine

open Sys2Proof Sys2Proof.Machine Sys2Proof.Claims

/-- Settles O46: each command by its checks, which its conditions meet. -/
theorem maintenanceCommandsComplete : Obligations.MaintenanceCommandsComplete := by
  intro r p t b s x tk
  have answered {op : Nat} {form : Option Nat} {f : ZDo} {st : RStatus} {body : List Byte} {y : State}
      (pass : passes op form r p t b s = true) (does : f tk p t b x = reply tk st body y) :
      zRow op form f r s = .next (refresh (reply tk st body y)) := does ▸ zRow_passes (f := f) pass
  have waits {op : Nat} {form : Option Nat} {f : ZDo} {c : Change}
      (pass : passes op form r p t b s = true) (does : f tk p t b x = pushChange c x) :
      zRow op form f r s = .next (refresh (pushChange c x)) := does ▸ zRow_passes (f := f) pass
  refine ⟨fun pass all => ⟨_, answered pass (cmdTelemetryGet_all all), telemetryHead_power x, telemetryHead_read x⟩,
    fun pass one live => ⟨_, answered pass (cmdTelemetryGet_one one live), List.drop_left' (length_telemetryHead x)⟩,
    fun pass aligned low high alone free => waits pass ?_,
    fun pass off none_ => waits pass (cmdMaintDrainBegin_waits off none_),
    fun pass on none_ => waits pass (cmdMaintDrainEnd_waits on none_),
    fun pass cool => ⟨_, answered pass (cmdHbmRepairList_cool cool), repairBody_count .., length_repairBody ..⟩,
    fun g pass drained cool small row spare => answered pass (cmdHbmRepairRow_done drained cool small row spare),
    fun pass drained cool spare => answered pass (cmdHbmRepairLane_done drained cool spare),
    fun pass drained cool alive due => ⟨_, answered pass (cmdHbmMargin_done drained cool alive due), length_leBytes ..,
      fun v q low within => passSteps_bits ?_ low within⟩,
    laneRepair_eqs, fun pass => ?_,
    fun pass core fenced owned given => waits pass (cmdReservePromote_waits core fenced owned given),
    fun im pass source => ?_, fun k pass staged => answered pass ?_⟩
  · have ok : periodOk (le b 0 4) = true := by simp [periodOk, aligned, low, high]
    unfold cmdPeriodSet
    dsimp only
    rw [ok, alone, free]
    rfl
  · obtain ⟨fm, layout⟩ := passes_layout pass
    simp only [layoutOk, Bool.and_eq_true, decide_eq_true_eq] at layout
    exact layout.1.1.2
  · by_cases all : le b 0 2 = 0xFFFF
    · exact ⟨_, answered pass (cmdFenceQuery_all all), fun _ => ⟨length_fenceBody x, fun k core => fenceBody_maps x core⟩,
        fun other => absurd all other⟩
    · obtain ⟨core, state, at_⟩ := coreBody_fields (le b 0 2) x
      refine ⟨_, answered pass (cmdFenceQuery_one all), fun same => absurd same all, fun _ => ⟨length_coreBody .., ?_, ?_, at_⟩⟩
      · exact core.trans (Nat.mod_eq_of_lt (le_lt b 0 2))
      · rw [state, Nat.mod_eq_of_lt (CState.code_lt _)]
  · have row := zRow_passes (f := cmdFwStage) pass
    rw [cmdFwStage_read (tk := ticketOf r s) source] at row
    clear_value x
    generalize (Config.fwImage im).filter _ = found at row ⊢
    cases found <;> exact row
  · unfold cmdFwActivate
    rw [staged]
end

section
/-! SUPPORT. What has been shown outside stays shown, and what replies and the port commands leave as it is (13 R471, R491, R503,
15 R553, 14 R508). -/

namespace Sys2Proof.Machine

/-- Outputs are only added to. -/
def Shown (s t : State) : Prop := s.outputs <+: t.outputs

namespace Shown

variable {s t u : State}

theorem refl (s : State) : Shown s s := List.prefix_refl _

theorem trans (a : Shown s t) (b : Shown t u) : Shown s u := List.IsPrefix.trans a b

theorem of_same (same : t.outputs = s.outputs) : Shown s t := by rw [Shown, same]

theorem mem (h : Shown s t) {o : Output} (shown : o ∈ s.outputs) : o ∈ t.outputs := h.subset shown

theorem foldl {α : Type} {f : State → α → State} (each : ∀ s a, Shown s (f s a)) (l : List α) (s : State) : Shown s (l.foldl f s) := by
  induction l generalizing s with
  | nil => exact .refl s
  | cons a r ih => exact (each s a).trans (ih _)

end Shown

theorem msix_shown (fn v : Nat) (s : State) : Shown s (msix fn v s) := by
  unfold msix
  dsimp only
  split
  · exact .refl s
  · exact List.prefix_append ..

theorem blockMsix_shown (n k : Nat) (s : State) : Shown s (blockMsix n k s) := by
  unfold blockMsix
  dsimp only
  split <;> exact msix_shown ..

theorem setIrqNow_shown (n m : Nat) (s : State) : Shown s (setIrqNow n m s) := by
  unfold setIrqNow
  extract_lets b new s'
  exact (Shown.of_same rfl : Shown s s').trans (.foldl (fun s k => blockMsix_shown n k s) _ _)

theorem setIrq_shown (n m : Nat) (s : State) : Shown s (setIrq n m s) := by
  unfold setIrq
  split
  · split
    · exact .refl s
    · exact setIrqNow_shown ..
  · exact setIrqNow_shown ..

theorem logPf_shown (e : Event) (s : State) : Shown s (logPf e s) := by
  unfold logPf
  extract_lets fire s'
  refine Shown.trans (t := s') (.of_same rfl) (Shown.trans ?_ (setIrq_shown ..))
  split
  · exact msix_shown ..
  · exact .refl s'

theorem logTen_shown (p t : Nat) (e : Event) (s : State) : Shown s (logTen p t e s) := by
  unfold logTen
  dsimp only
  split
  · exact .refl s
  · exact setIrq_shown _ _ (s.modTen p t _)

theorem recordNow_shown (kind p t seq len : Nat) (a b : List Byte) (s : State) : Shown s (recordNow kind p t seq len a b s) := by
  unfold recordNow
  extract_lets e s1 s2 ts
  have pf : Shown s s1 := logPf_shown ..
  have bmc : Shown s s2 := pf.trans (by
    unfold s2
    split <;> exact .refl s1)
  split
  · exact bmc
  · exact bmc.trans (.foldl (fun s k => logTen_shown ..) _ _)

theorem satLogs_shown (ps : List Nat) (n : Nat) (old s : State) : Shown s (satLogs ps n old s) := by
  induction n generalizing old s with
  | zero => exact .refl s
  | succ n ih =>
    unfold satLogs
    dsimp only
    split
    · exact .refl s
    · exact (Shown.foldl (fun s x => recordNow_shown ..) _ _).trans (ih _ _)

theorem recordP_shown (kind p t seq len : Nat) (a b : List Byte) (s : State) : Shown s (recordP kind p t seq len a b s) :=
  (recordNow_shown ..).trans (satLogs_shown ..)

theorem refreshBlock_shown (s : State) (n : Nat) : Shown s (refreshBlock s n) := by
  unfold refreshBlock
  dsimp only
  split
  · exact .refl s
  · exact (Shown.of_same rfl : Shown s (s.setBlock n _)).trans (setIrq_shown ..)

theorem refresh_shown (s : State) : Shown s (refresh s) := by
  unfold refresh
  extract_lets ns s' g
  have blocks : Shown s s' := .foldl (fun s n => refreshBlock_shown s n) _ _
  split
  · exact blocks
  · exact blocks.trans (msix_shown 0 8 { s' with pcie := { s'.pcie with statusShown := g } })

namespace RepliesOnly

variable {s t : State}

theorem eqs (h : RepliesOnly s t) : t.fed = s.fed ∧ t.ports = s.ports ∧ t.parcels = s.parcels ∧ t.time = s.time ∧ t.sec = s.sec ∧
    t.cores = s.cores ∧ t.metas = s.metas ∧ t.power = s.power ∧ t.pcie.tdisp = s.pcie.tdisp ∧ t.pcie.spdm = s.pcie.spdm := by
  have r := h.rest
  clear h
  generalize t.blocks = b, t.outputs = o, t.delayed = d, t.host = m, t.bmcOpen = n, t.pcie.msixPending = v, t.pcie.statusShown = g
    at r
  subst r
  tauto

theorem fed (h : RepliesOnly s t) : t.fed = s.fed := h.eqs.1
theorem ports (h : RepliesOnly s t) : t.ports = s.ports := h.eqs.2.1
theorem parcels (h : RepliesOnly s t) : t.parcels = s.parcels := h.eqs.2.2.1
theorem time (h : RepliesOnly s t) : t.time = s.time := h.eqs.2.2.2.1
theorem port (h : RepliesOnly s t) (k : Nat) : t.port k = s.port k := by rw [State.port, h.ports, State.port]
theorem parcel (h : RepliesOnly s t) (p : Nat) : t.parcel p = s.parcel p := by rw [State.parcel, h.parcels, State.parcel]

theorem foldl {α : Type} {f : State → α → State} (each : ∀ s a, RepliesOnly s (f s a)) (l : List α) (s : State) :
    RepliesOnly s (l.foldl f s) := by
  induction l generalizing s with
  | nil => exact .refl s
  | cons a r ih => exact (each s a).trans (ih _)

end RepliesOnly

/-- R532: the replies of a port leave it without tickets. -/
theorem portReply_port (k : Nat) (s : State) : (portReply k s).port k = { s.port k with pendingCfg := [] } := by
  unfold portReply
  dsimp only
  rw [(RepliesOnly.foldl (fun s tk => reply_replies tk .ok [] s) _ _).port, State.setPort_port_same]

theorem refresh_port (k : Nat) (s : State) : (refresh s).port k = s.port k := (refresh_records s).port k

end Sys2Proof.Machine
end

section
/-! SUPPORT. The commands of ports, federation, channels and collective items (14 R532). -/

namespace Sys2Proof.Machine

/-- R532: a port's line in the reply of LINK_QUERY. -/
def portLine (x : Port) : List Byte :=
  pay [(x.st.code, 1), (b2n x.mode8023, 1), (x.active, 1), (x.failed, 1), (x.peerMember, 2), (x.peerPort, 1), (0, 1), (x.replays, 6), (0, 2)]

theorem length_portLine (x : Port) : (portLine x).length = 16 := by simp [portLine, length_leBytes]

theorem portLine_fields (x : Port) (rest : List Byte) :
    le (portLine x ++ rest) 0 1 = x.st.code ∧ le (portLine x ++ rest) 1 1 = b2n x.mode8023 := by
  simp only [portLine, pay_cons, List.append_assoc]
  constructor
  · rw [le_leBytes]
    cases x.st <;> rfl
  · rw [le_leBytes_skip (by omega), le_leBytes]
    cases x.mode8023 <;> rfl

/-- A part of a list of equal parts. -/
theorem le_flatMap {α : Type} {f : α → List Byte} {w o n : Nat} (same : ∀ a, (f a).length = w) (l : List α) (k : Nat) :
    le (l.flatMap f) (w * k + o) n = le ((l.drop k).flatMap f) o n := by
  induction k generalizing l with
  | zero => simp
  | succ k ih =>
    cases l with
    | nil => simp [le, slice]
    | cons a r =>
      have past : (f a).length ≤ w * (k + 1) + o := by rw [same, Nat.mul_succ]; omega
      have rest : w * (k + 1) + o - (f a).length = w * k + o := by rw [same, Nat.mul_succ]; omega
      rw [List.flatMap_cons, le_skip past, rest, List.drop_succ_cons, ih]

theorem linkLines (s : State) : let body := (List.range 8).flatMap (fun k => portLine (s.port k))
    body.length = 128 ∧ ∀ k, k < 8 → le body (16 * k) 1 = (s.port k).st.code ∧ le body (16 * k + 1) 1 = b2n (s.port k).mode8023 := by
  refine ⟨length_flatMap_of_length (fun k => length_portLine _) _, fun k small => ?_⟩
  have head : (List.range 8).drop k = k :: (List.range 8).drop (k + 1) := by
    rw [List.drop_eq_getElem_cons (by simpa using small), List.getElem_range]
  have part (o : Nat) : le ((List.range 8).flatMap (fun k => portLine (s.port k))) (16 * k + o) 1 =
      le (portLine (s.port k) ++ ((List.range 8).drop (k + 1)).flatMap (fun k => portLine (s.port k))) o 1 := by
    rw [le_flatMap (fun k => length_portLine _), head, List.flatMap_cons]
  exact ⟨(part 0).trans (portLine_fields _ _).1, (part 1).trans (portLine_fields _ _).2⟩

theorem linkConfig_open {f : Nat → Ticket → State → State} {tk : Ticket} {p t : Nat} {b : List Byte} {s : State} (port : le b 0 1 < 8)
    (other : s.fed.federated = true → s.fed.upstream ≠ le b 0 1) : linkConfig f tk p t b s = f (le b 0 1) tk s := by
  have free : (s.fed.federated && s.fed.upstream == le b 0 1) = false := by
    rw [Bool.and_eq_false_iff, beq_eq_false_iff_ne]
    cases federated : s.fed.federated
    · exact .inl rfl
    · exact .inr (other federated)
  unfold linkConfig
  dsimp only
  rw [if_neg (Nat.not_le.mpr port), free]
  rfl

/-- R508, R532: a port is disabled. -/
def portStops (k : Nat) (tk : Ticket) (s : State) : State :=
  let x := s.port k
  let s := s.setPort k { x with kept := [], pendingCfg := x.pendingCfg ++ [tk] }
  portReply k (if x.st == .disabled then s else portTo k .disabled s)

theorem portStops_port (k : Nat) (tk : Ticket) (s : State) : (portStops k tk s).port k =
    { s.port k with st := .disabled, kept := [], pendingCfg := [] } := by
  unfold portStops
  extract_lets x y
  rw [portReply_port]
  by_cases already : x.st = .disabled
  · have same : (if (x.st == .disabled) = true then y else portTo k .disabled y) = y := if_pos (beq_iff_eq.mpr already)
    rw [same, State.setPort_port_same]
    dsimp only
    rw [already]
  · have moved : (if (x.st == .disabled) = true then y else portTo k .disabled y) = portTo k .disabled y :=
      if_neg fun h => already (beq_iff_eq.mp h)
    rw [moved, portTo_port_same, State.setPort_port_same]

theorem cmdFedForm_joins {tk : Ticket} {p t : Nat} {b : List Byte} {s : State} (alone : s.fed.federated = false)
    (idle : s.fed.forming = none) (number : le b 0 2 ≤ 8191) (member : le b 2 2 ≤ 16383) (datum : le b 4 2 ≤ 16383)
    (other : le b 2 2 ≠ le b 4 2) (port : le b 6 1 ≤ 7) : cmdFedForm tk p t b s = { s with
      fed := { number := le b 0 2, member := le b 2 2, datum := le b 4 2, upstream := le b 6 1, forming := some (tk, le b 16 8, le b 8 4) }
      changes := s.changes ++ [(s.time.postmark, .fedJoin)] } := by
  have notDatum : (le b 2 2 == le b 4 2) = false := beq_eq_false_iff_ne.mpr other
  have real : (le b 6 1 == 0xFF) = false := beq_eq_false_iff_ne.mpr (by omega)
  unfold cmdFedForm
  extract_lets fed m d up per start isDatum
  have isDatum' : isDatum = false := notDatum
  have sound : (decide (8191 < fed) || decide (16383 < m) || decide (16383 < d) || (up == 0xFF) != isDatum || up != 0xFF && decide (7 < up))
      = false := by
    simp [fed, m, d, up, isDatum', real, Nat.not_lt.mpr number, Nat.not_lt.mpr member, Nat.not_lt.mpr datum, Nat.not_lt.mpr port]
  rw [alone, idle, sound, isDatum']
  rfl

theorem cmdFedForm_datum {tk : Ticket} {p t : Nat} {b : List Byte} {s : State} (alone : s.fed.federated = false)
    (idle : s.fed.forming = none) (number : le b 0 2 ≤ 8191) (member : le b 2 2 ≤ 16383) (same : le b 2 2 = le b 4 2)
    (port : le b 6 1 = 0xFF) (period : periodOk (le b 8 4) = true) (later : s.time.postmark ≤ le b 16 8)
    (fits : periodBusy s (le b 8 4) = false) : cmdFedForm tk p t b s = { s with
      fed := { number := le b 0 2, member := le b 2 2, datum := le b 4 2, upstream := le b 6 1, forming := some (tk, le b 16 8, le b 8 4) } } := by
  unfold cmdFedForm
  extract_lets fed m d up per start isDatum
  have isDatum' : isDatum = true := beq_iff_eq.mpr same
  have sound : (decide (8191 < fed) || decide (16383 < m) || decide (16383 < d) || (up == 0xFF) != isDatum || up != 0xFF && decide (7 < up))
      = false := by
    simp [fed, m, d, up, isDatum', port, Nat.not_lt.mpr number, Nat.not_lt.mpr member, ← same]
  have periodOk' : periodOk per = true := period
  have start' : ¬ start < s.time.postmark := Nat.not_lt.mpr later
  have fits' : periodBusy s per = false := fits
  rw [alone, idle, sound, isDatum', periodOk', decide_eq_false start', fits']
  rfl

/-- R512: the routes that one command sets. -/
def routesSet (first n : Nat) (b : List Byte) (routes : Tbl Nat) : Tbl Nat :=
  (List.range n).foldl (fun r k => tblPut r (first + k) (le b (8 + k) 1)) routes

theorem routesSet_get (first n : Nat) (b : List Byte) (routes : Tbl Nat) (m : Nat) : tblGet (routesSet first n b routes) m =
    if first ≤ m ∧ m < first + n then some (le b (8 + (m - first)) 1) else tblGet routes m := by
  unfold routesSet
  induction n with
  | zero =>
    rw [if_neg (by omega)]
    rfl
  | succ n ih =>
    rw [List.range_succ, List.foldl_append, List.foldl_cons, List.foldl_nil]
    by_cases last : m = first + n
    · rw [last, tblGet_put_same, if_pos (by omega), Nat.add_sub_cancel_left]
    · rw [tblGet_put_other _ _ _ _ last, ih]
      exact if_congr (by omega) rfl rfl

/-- R522: the reply of CHANNEL_QUERY for an entry that is set. -/
def channelBody (c : Channel) : List Byte :=
  pay [(c.kind, 1), (c.keySlot, 1), (c.tenancy, 1), (c.peerParcel, 1), (c.peerMember, 2), (c.peerChannel, 1), (0, 1),
      (c.timeout, 2), (c.members.length, 2), (c.rank, 2)] ++ zeros 50 ++ pay [(c.sent, 6), (c.received, 6), (c.authFailed, 6)]

theorem channelBody_fields (c : Channel) : le (channelBody c) 0 1 = c.kind % 256 ∧ le (channelBody c) 64 6 = c.sent % 2 ^ 48 := by
  constructor
  · rw [channelBody, pay_cons, List.append_assoc, List.append_assoc, le_leBytes, pow_one]
  · have head : (pay [(c.kind, 1), (c.keySlot, 1), (c.tenancy, 1), (c.peerParcel, 1), (c.peerMember, 2), (c.peerChannel, 1), (0, 1),
        (c.timeout, 2), (c.members.length, 2), (c.rank, 2)] ++ zeros 50).length = 64 := by
      simp [length_leBytes, zeros]
    rw [channelBody, le_skip (Nat.le_of_eq head), head, pay_cons, le_leBytes]
    norm_num

theorem length_collOps (b : List Byte) : (collOps b).length = le b 0 1 := by simp [collOps]

theorem cmdRouteSet_done {tk : Ticket} {p t : Nat} {b : List Byte} {s : State} (on : s.fed.federated = true)
    (room : le b 0 2 + le b 2 2 ≤ 16384) : cmdRouteSet tk p t b s =
      reply tk .ok [] { s with fed := { s.fed with routes := routesSet (le b 0 2) (le b 2 2) b s.fed.routes } } := by
  unfold cmdRouteSet
  dsimp only
  rw [on, if_neg (Nat.not_lt.mpr room)]
  rfl

/-- R532: an entry of another tenancy is not set. -/
theorem ownEntry {c : Channel} {t : Nat} (own : c.kind = 0 ∨ c.tenancy = t) : (c.kind != 0 && c.tenancy != t) = false := by
  rcases own with free | mine
  · simp [free]
  · simp [mine]

theorem cmdChannelSet_done {tk : Ticket} {p t : Nat} {b : List Byte} {s : State} (on : s.fed.federated = true)
    (sound : channelOk s p t (channelOf b) = true)
    (own : ((s.parcel p).chan (le b 0 1)).kind = 0 ∨ ((s.parcel p).chan (le b 0 1)).tenancy = t)
    (key : (channelOf b).keySlot = 0xFF ∨ (tblGet ((s.parcel p).ten t).keys (channelOf b).keySlot).isSome = true)
    (free : channelUsed (s.parcel p) (le b 0 1) = false) : cmdChannelSet tk p t b s =
      reply tk .ok [] (s.modParcel p (fun y => { y with
        channels := tblPut y.channels (le b 0 1) (channelOf b), inbox := y.inbox.filter (fun e => e.channel != le b 0 1) })) := by
  have held : ((channelOf b).keySlot != 0xFF && (tblGet ((s.parcel p).ten t).keys (channelOf b).keySlot).isNone) = false := by
    rcases key with none_ | some_
    · simp [none_]
    · simp [Option.isNone_eq_false_iff.mpr some_]
  unfold cmdChannelSet
  dsimp only
  rw [on, sound, ownEntry own, held, free]
  rfl

theorem cmdChannelFree_done {tk : Ticket} {p t : Nat} {b : List Byte} {s : State} (on : s.fed.federated = true)
    (own : ((s.parcel p).chan (le b 0 1)).kind = 0 ∨ ((s.parcel p).chan (le b 0 1)).tenancy = t)
    (free : channelUsed (s.parcel p) (le b 0 1) = false) : cmdChannelFree tk p t b s =
      reply tk .ok [] (s.modParcel p (fun y => { y with
        channels := tblDel y.channels (le b 0 1), inbox := y.inbox.filter (fun e => e.channel != le b 0 1) })) := by
  unfold cmdChannelFree
  dsimp only
  rw [on, ownEntry own, free]
  rfl

/-- R485: a number that is taken leaves what holds a tenancy's items. -/
theorem takeSeq_divHold (p t : Nat) (s : State) :
    (((takeSeq p t s).2.parcel p).ten t).divHold = ((s.parcel p).ten t).divHold := by
  unfold takeSeq State.modTen State.modParcel
  dsimp only
  rw [State.setParcel_parcel_same, Parcel.setTen_ten_same]

theorem cmdCollectiveSubmit_admits {tk : Ticket} {p t : Nat} {b : List Byte} {s : State}
    (sound : ∀ o ∈ collOps b, collOk (s.parcel p) t o = true)
    (plain : ∀ k, k < le b 0 1 → allZero b (19 + 32 * k) 1 = true ∧ allZero b (44 + 32 * k) 4 = true)
    (first : ∀ i ∈ tenItems s p t, i.kind ≠ .coll) (trusted : isSealed s p = true → s.sec.error = false)
    (room : roomFor s p t = true) (hold : ((s.parcel p).ten t).divHold = false) (aligned : s.fed.aligned = true) :
    let q := takeSeq p t s
    cmdCollectiveSubmit tk p t b s = reply tk .ok (leBytes q.1 4) (q.2.modParcel p (fun y => { y with
      items := y.items ++ [{ seq := q.1, tenancy := t, kind := .coll, gate := le b 4 4, ops := collOps b }]
      slice := { y.slice with idleFrames := 0 } })) := by
  have zero : (List.range (collOps b).length).all (fun k => allZero b (19 + 32 * k) 1 && allZero b (44 + 32 * k) 4) = true := by
    rw [length_collOps, List.all_eq_true]
    intro k listed
    obtain ⟨a, c⟩ := plain k (List.mem_range.mp listed)
    rw [a, c]
    rfl
  have ok : (collOps b).all (collOk (s.parcel p) t) = true := List.all_eq_true.mpr sound
  have alone : (tenItems s p t).any (fun i => i.kind == .coll) = false := List.any_eq_false.mpr fun i listed => by
    simpa using first i listed
  have safe : (isSealed s p && s.sec.error) = false := by
    cases sealed_ : isSealed s p
    · rfl
    · exact trusted sealed_
  intro q
  unfold cmdCollectiveSubmit
  dsimp only
  rw [zero, ok, alone, safe, room]
  simp only [Bool.not_true, Bool.or_self, Bool.false_eq_true, if_false]
  have replies := reply_replies tk .ok (leBytes q.1 4) (q.2.modParcel p (fun y => { y with
    items := y.items ++ [{ seq := q.1, tenancy := t, kind := .coll, gate := le b 4 4, ops := collOps b }]
    slice := { y.slice with idleFrames := 0 } }))
  have open_ : (((reply tk .ok (leBytes q.1 4) (q.2.modParcel p (fun y => { y with
      items := y.items ++ [{ seq := q.1, tenancy := t, kind := .coll, gate := le b 4 4, ops := collOps b }]
      slice := { y.slice with idleFrames := 0 } }))).parcel p).ten t).divHold = false := by
    rw [replies.parcel, State.modParcel, State.setParcel_parcel_same]
    exact (takeSeq_divHold p t s).trans hold
  rw [open_, if_neg Bool.false_ne_true, replies.fed]
  have same : (q.2.modParcel p (fun y => { y with
      items := y.items ++ [{ seq := q.1, tenancy := t, kind := .coll, gate := le b 4 4, ops := collOps b }]
      slice := { y.slice with idleFrames := 0 } })).fed.aligned = true := aligned
  rw [same]
  rfl

end Sys2Proof.Machine

open Sys2Proof Sys2Proof.Machine Sys2Proof.Claims

/-- Settles O47: each command by its checks, which its conditions meet. -/
theorem federationCommandsComplete : Obligations.FederationCommandsComplete := by
  intro r p t b s x tk
  have does {op : Nat} {form : Option Nat} {f : ZDo} {y : State} (pass : passes op form r p t b s = true) (does : f tk p t b x = y) :
      zRow op form f r s = .next (refresh y) := does ▸ zRow_passes (f := f) pass
  refine ⟨fun pass => ⟨_, does (f := cmdLinkQuery) pass rfl, linkLines x⟩, ?_,
    fun pass alone idle number member datum other port =>
      does pass (cmdFedForm_joins alone idle number member datum other port),
    fun pass alone idle number member same port period later fits => ?_, fun pass on idle => does pass ?_,
    fun pass on room => ⟨{ x with fed := { x.fed with routes := routesSet (le b 0 2) (le b 2 2) b x.fed.routes } },
      does pass (cmdRouteSet_done on room), rfl, routesSet_get _ _ b _⟩, fun pass lost => does pass ?_,
    fun pass on sound own key free => does pass (cmdChannelSet_done on sound own key free),
    fun pass on own free => does pass (cmdChannelFree_done on own free), fun pass => ?_,
    fun pass sound plain first trusted room hold aligned =>
      does pass (cmdCollectiveSubmit_admits sound plain first trusted room hold aligned)⟩
  · intro k port other trains
    refine ⟨fun pass => does pass (linkConfig_open port other), fun pass => does pass (linkConfig_open port other),
      fun pass => ⟨_, does pass (f := cmdLinkConfigDisable) (linkConfig_open port other), ?_⟩⟩
    have stopped : (refresh (portStops k tk x)).port k = { x.port k with st := .disabled, kept := [], pendingCfg := [] } :=
      (refresh_port k _).trans (portStops_port k tk x)
    change ((refresh (portStops k tk x)).port k).st = _ ∧ ((refresh (portStops k tk x)).port k).kept = _ ∧
      ((refresh (portStops k tk x)).port k).pendingCfg = _
    rw [stopped]
    exact ⟨rfl, rfl, rfl⟩
  · have made := does pass (cmdFedForm_datum (tk := tk) (p := p) (t := t) alone idle number member same port period later fits)
    rw [← same, port] at made
    exact made
  · unfold cmdFedLeave
    rw [on, idle]
    rfl
  · have listed : x.fed.lostMembers.contains (le b 0 2) = true := List.contains_iff_mem.mpr lost
    unfold cmdMemberRestore
    dsimp only
    rw [listed]
    rfl
  · by_cases none_ : ((x.parcel p).chan (le b 0 1)).kind = 0
    · refine ⟨_, does (f := cmdChannelQuery) pass rfl, fun _ => ?_, fun some_ => absurd none_ some_⟩
      rw [none_]
      rfl
    · have given : (if ((x.parcel p).chan (le b 0 1)).kind == 0 then zeros 82 else channelBody ((x.parcel p).chan (le b 0 1))) = _ :=
        if_neg (by simpa using none_)
      refine ⟨_, does (f := cmdChannelQuery) pass rfl, fun isZero => absurd isZero none_, fun _ => ?_⟩
      change le (if ((x.parcel p).chan (le b 0 1)).kind == 0 then zeros 82 else channelBody ((x.parcel p).chan (le b 0 1))) 0 1 = _ ∧
        le (if ((x.parcel p).chan (le b 0 1)).kind == 0 then zeros 82 else channelBody ((x.parcel p).chan (le b 0 1))) 64 6 = _
      rw [given]
      exact channelBody_fields _
end

section
/-! SUPPORT. Events of the Courier ports (14 R504 to R510). -/

namespace Sys2Proof.Machine

theorem routePorts_up {s : State} {dest k : Nat} (listed : k ∈ routePorts s dest) : (s.port k).st = .up := by
  simp only [routePorts, List.mem_filter, Bool.and_eq_true, beq_iff_eq] at listed
  exact listed.2.2

theorem sendOn_port_other {k j : Nat} (fr : List Byte) (s : State) (other : j ≠ k) : (sendOn k fr s).port j = s.port j := by
  unfold sendOn
  dsimp only
  split
  · split <;> rfl
  · exact State.setPort_port_other _ _ _ _ other

/-- R512: a frame goes out on a port that is UP. -/
theorem routeFrame_port_closed {k : Nat} (fr : List Byte) {s : State} (closed : (s.port k).st ≠ .up) :
    (routeFrame fr s).port k = s.port k := by
  unfold routeFrame
  dsimp only
  split
  next j taken =>
    have up := routePorts_up (List.mem_of_getElem? taken)
    exact sendOn_port_other _ _ fun same => closed (same ▸ up)
  · rfl

theorem routeFrames_port_closed {k : Nat} (l : List (Nat × List Byte)) {s : State} (closed : (s.port k).st ≠ .up) :
    (l.foldl (fun s e => routeFrame e.2 s) s).port k = s.port k := by
  induction l generalizing s with
  | nil => rfl
  | cons e r ih =>
    have step := routeFrame_port_closed e.2 closed
    rw [List.foldl_cons, ih (by rw [step]; exact closed), step]

/-- R508, R509: what a port that goes DOWN does before its replies. -/
def portDrops (k : Nat) (s : State) : State :=
  ((s.port k).kept.filter (fun e => le e.2 0 1 != ftTick)).foldl (fun s e => routeFrame e.2 s)
    (portTo k .down (s.setPort k { s.port k with kept := [] }))

theorem portGoesDown_eq (k : Nat) (s : State) : portGoesDown k s = portReply k (portDrops k s) := rfl

theorem portDrops_port (k : Nat) (s : State) : (portDrops k s).port k = { s.port k with st := .down, kept := [] } := by
  have down : (portTo k .down (s.setPort k { s.port k with kept := [] })).port k = { s.port k with st := .down, kept := [] } := by
    rw [portTo_port_same, State.setPort_port_same]
  rw [portDrops, routeFrames_port_closed _ (by rw [down]; nofun), down]

theorem portGoesDown_port (k : Nat) (s : State) :
    (portGoesDown k s).port k = { s.port k with st := .down, kept := [], pendingCfg := [] } := by
  rw [portGoesDown_eq, portReply_port, portDrops_port]

/-- R508: what a port that has trained is before its replies. -/
def portTrained (k member peerPort : Nat) (s : State) : State :=
  let x := s.port k
  let lost := (List.range 5).filter (fun k => bit x.failed k)
  let failed := if lost.length ≤ 1 then x.failed else 0
  let act := mapOf (((List.range 5).filter (fun k => !bit failed k)).take 4)
  portTo k .up (s.setPort k { x with
    active := act, failed := failed, peerMember := member % 65536, peerPort := peerPort % 256, rxNext := 0, txNext := 0, kept := [], rxBuf := [],
    rxReplay := false, replayTo := none })

theorem portUp_trains {k : Nat} (m pp : Nat) {s : State} (known : k < 8) (training : (s.port k).st = .training) :
    exec (.portUp k m pp) s = .next (refresh (portReply k (portTrained k m pp s))) := by
  have shut : (decide (8 ≤ k) || (s.port k).st != .training) = false := by simp [training, Nat.not_le.mpr known]
  change execPortUp k m pp s = _
  unfold execPortUp
  dsimp only
  rw [shut]
  rfl

theorem portTrained_port (k m pp : Nat) (s : State) : ∃ act failed, (portTrained k m pp s).port k = { s.port k with
    st := .up, active := act, failed := failed, peerMember := m % 65536, peerPort := pp % 256, rxNext := 0, txNext := 0, kept := [], rxBuf := [],
    rxReplay := false, replayTo := none } := by
  unfold portTrained
  extract_lets x lost failed act
  exact ⟨act, failed, by rw [portTo_port_same, State.setPort_port_same]⟩

theorem lanes_two : ∀ lane, lane < 5 → ∀ j, j < 5 → j ≠ lane → ((List.range 5).filter (fun k => k != lane && k != j)).length < 4 := by
  decide

/-- R507: with two lanes failed no four are left. -/
theorem lanes_short {failed lane j : Nat} (unset : bit failed lane = false) (one : lane < 5) (two : j < 5) (set : bit failed j = true) :
    ((List.range 5).filter (fun k => !bit (failed + 2 ^ lane) k)).length < 4 := by
  have apart : j ≠ lane := fun same => by rw [same, unset] at set; cases set
  refine Nat.lt_of_le_of_lt (List.monotone_filter_right _ fun k good => ?_).length_le (lanes_two lane one j two apart)
  rw [bit_add_pow unset, Bool.not_or, Bool.and_eq_true] at good
  obtain ⟨bit_, other⟩ := good
  have notJ : k ≠ j := fun same => by rw [same, set] at bit_; cases bit_
  simpa [notJ] using other

theorem lanes_left : ∀ lane, lane < 5 → ¬ ((List.range 5).filter (fun k => !bit (0 + 2 ^ lane) k)).length < 4 := by
  decide

/-- R507: a lane that fails on a port that is UP. -/
theorem execLaneFail_up {k lane : Nat} {s : State} (known : k < 8) (isLane : lane < 5) (up : (s.port k).st = .up)
    (unset : bit (s.port k).failed lane = false) : let x := s.port k
    let y := s.setPort k { x with
      failed := x.failed + 2 ^ lane, active := mapOf (((List.range 5).filter (fun j => !bit (x.failed + 2 ^ lane) j)).take 4) }
    exec (.laneFail k lane) s =
      if !bit x.active lane then .next (msix 0 10 y)
      else if ((List.range 5).filter (fun k => !bit (x.failed + 2 ^ lane) k)).length < 4 then fin (portGoesDown k y)
      else .next (linkEvent k 1 lane (
        let z := y.setPort k { y.port k with replayTo := if x.mode8023 then none else some (x.replayTo.getD x.rxNext) }
        if x.mode8023 then z else ((x.kept.head?).map (·.1)).elim z (fun n => resend k n z))) := by
  have open_ : (decide (8 ≤ k) || decide (5 ≤ lane) || (s.port k).st != .up || bit (s.port k).failed lane) = false := by
    simp [up, unset, Nat.not_le.mpr known, Nat.not_le.mpr isLane]
  change execLaneFail k lane s = _
  unfold execLaneFail
  dsimp only
  rw [open_]
  rfl

/-- R504: what a flit that fails its CRC leaves. -/
def flitBad (k seq : Nat) (s : State) : State :=
  let x := s.port k
  let s := askReplay k seq seq (s.setPort k { x with replays := add48 x.replays 1 })
  if reaches48 x.replays 1 then satEvent 0xFF 0xFF 0xFFFFFFFF 16 k s else s

theorem askReplay_port (k seq seen : Nat) (s : State) : (askReplay k seq seen s).port k = { s.port k with
    replayTo := some (match (s.port k).replayTo with
      | none => seen
      | some r => if (r + 4096 - seen) % 4096 < 2048 then r else seen) } := by
  unfold askReplay
  dsimp only
  exact State.setPort_port_same ..

theorem askReplay_shown (k seq seen : Nat) (s : State) : .flitReplay k seq ∈ (askReplay k seq seen s).outputs := by
  unfold askReplay
  dsimp only
  exact List.mem_append_right _ (List.mem_singleton.mpr rfl)

theorem flitBad_leaves (k seq : Nat) (s : State) : let x := s.port k; let t := flitBad k seq s
    t.port k = { x with replays := add48 x.replays 1, replayTo := (t.port k).replayTo } ∧
      (x.replayTo = none → (t.port k).replayTo = some seq) ∧ .flitReplay k seq ∈ t.outputs := by
  intro x
  have port := askReplay_port k seq seq (s.setPort k { x with replays := add48 x.replays 1 })
  have shown := askReplay_shown k seq seq (s.setPort k { x with replays := add48 x.replays 1 })
  have asked : (∀ u : State, RecordsOnly (askReplay k seq seq (s.setPort k { x with replays := add48 x.replays 1 })) u →
      Shown (askReplay k seq seq (s.setPort k { x with replays := add48 x.replays 1 })) u →
      u.port k = { x with replays := add48 x.replays 1, replayTo := (u.port k).replayTo } ∧
      (x.replayTo = none → (u.port k).replayTo = some seq) ∧ .flitReplay k seq ∈ u.outputs) := by
    intro u records more
    rw [records.port, port, State.setPort_port_same]
    exact ⟨rfl, fun none_ => by simp only [none_], more.mem shown⟩
  unfold flitBad
  dsimp only
  split
  · exact asked _ (recordP_logs ..).records (recordP_shown ..)
  · exact asked _ (.refl _) (.refl _)

end Sys2Proof.Machine
end

section
/-! SUPPORT. A flit that comes (14 R504 to R506). -/

namespace Sys2Proof.Machine

theorem execFlit_up {k : Nat} {f : List Byte} {s : State} (known : k < 8) (up : (s.port k).st = .up)
    (courier : (s.port k).mode8023 = false) (len : f.length = 256) : exec (.flit k f) s =
      let x := s.port k
      let seq := le f 2 2 % 4096
      if crc64 (f.take 248) != le f 248 8 then .next (flitBad k seq s)
      else
        let x := { x with kept := afterAck (le f 4 2 % 4096) x.kept }
        if seq == x.rxNext then
          let replayed := x.replayTo.any (fun r => decide ((r + 4096 - seq) % 4096 < 2048))
          let s := s.setPort k { x with
            rxNext := (seq + 1) % 4096, replayTo := if replayed && x.replayTo != some seq then x.replayTo else none }
          let s := { s with outputs := s.outputs ++ [.flitAck k seq] }
          match le f 0 1 with
          | 1 => contentCame k (slice f 8 240) replayed s
          | 2 => .next (if le f 8 1 == 1 then resend k (le f 9 2 % 4096) s else s)
          | _ => .next s
        else if (seq + 4096 - x.rxNext) % 4096 < 2048 then .next (askReplay k x.rxNext seq (s.setPort k x))
        else .next { s.setPort k x with outputs := s.outputs ++ [.flitAck k x.ack] } := by
  have open_ : (decide (8 ≤ k) || (s.port k).st != .up || (s.port k).mode8023 || f.length != 256) = false := by
    simp [up, courier, len, Nat.not_le.mpr known]
  change execFlit k f s = _
  unfold execFlit
  dsimp only
  rw [open_]
  rfl

/-- R504: the state after a flit that came in order and is no replay. -/
def flitTaken (k : Nat) (f : List Byte) (s : State) : State :=
  let x := s.port k
  let seq := le f 2 2 % 4096
  let u := s.setPort k { x with kept := afterAck (le f 4 2 % 4096) x.kept, rxNext := (seq + 1) % 4096, replayTo := none }
  { u with outputs := u.outputs ++ [.flitAck k seq] }

theorem execFlit_inOrder {k : Nat} {f : List Byte} {s : State} (known : k < 8) (up : (s.port k).st = .up)
    (courier : (s.port k).mode8023 = false) (len : f.length = 256) (sound : crc64 (f.take 248) = le f 248 8)
    (next : le f 2 2 % 4096 = (s.port k).rxNext) (first : (s.port k).replayTo = none) : exec (.flit k f) s =
      match le f 0 1 with
      | 1 => contentCame k (slice f 8 240) false (flitTaken k f s)
      | 2 => .next (if le f 8 1 == 1 then resend k (le f 9 2 % 4096) (flitTaken k f s) else flitTaken k f s)
      | _ => .next (flitTaken k f s) := by
  have good : (crc64 (f.take 248) != le f 248 8) = false := bne_eq_false_iff_eq.mpr sound
  have inOrder : (le f 2 2 % 4096 == (s.port k).rxNext) = true := beq_iff_eq.mpr next
  rw [execFlit_up known up courier len]
  unfold flitTaken
  dsimp only
  rw [good, inOrder, first]
  simp only [Bool.false_eq_true, if_false, if_true, Option.any_none, Bool.false_and]

/-- R506: what goes out again when the spare takes a lane. -/
theorem resendKept (k : Nat) (z : State) (l : List (Nat × List Byte)) (m : Bool) :
    (if m = true then z else ((l.head?).map (·.1)).elim z (fun n => resend k n z)) =
      match l with
      | e :: _ => if m = true then z else resend k e.1 z
      | [] => z := by
  cases l <;> cases m <;> rfl

end Sys2Proof.Machine

open Sys2Proof Sys2Proof.Machine Sys2Proof.Claims

/-- Settles O56: each event by what it does to its port. -/
theorem portEventsComplete : Obligations.PortEventsComplete := by
  intro k s known x
  refine ⟨fun m pp training => ?_, fun open_ => ?_, fun y => rfl, fun down => ?_, fun lane isLane up unset => ?_,
    fun f up courier len => ?_⟩
  · obtain ⟨act, failed, port⟩ := portTrained_port k m pp s
    have after : (refresh (portReply k (portTrained k m pp s))).port k = _ := (refresh_port k _).trans (portReply_port k _)
    have waiting : ((portTrained k m pp s).port k).pendingCfg = x.pendingCfg := by rw [port]
    rw [port] at after
    refine ⟨_, portUp_trains m pp known training, ?_⟩
    rw [after]
    exact ⟨rfl, rfl, rfl, rfl, rfl, rfl, rfl, rfl, _, waiting, rfl⟩
  · have shut : (decide (8 ≤ k) || ((s.port k).st != .up && (s.port k).st != .training)) = false := by
      have : (s.port k).st = .up ∨ (s.port k).st = .training := open_
      rcases this with h | h <;> simp [h, Nat.not_le.mpr known]
    have runs : exec (.portDown k) s = .next (refresh (portGoesDown k s)) := by
      change execPortDown k s = _
      unfold execPortDown
      dsimp only
      rw [shut]
      rfl
    have waiting : ((portDrops k s).port k).pendingCfg = x.pendingCfg := by rw [portDrops_port]
    refine ⟨_, runs, ?_⟩
    rw [refresh_port, portGoesDown_port]
    exact ⟨rfl, rfl, rfl, _, waiting, rfl⟩
  · have shut : (decide (8 ≤ k) || (s.port k).st != .down) = false := by
      have : (s.port k).st = .down := down
      simp [this, Nat.not_le.mpr known]
    change execPortRetrain k s = _
    unfold execPortRetrain
    rw [shut]
    rfl
  · intro y
    have runs := execLaneFail_up known isLane up unset
    dsimp only at runs
    refine ⟨fun idle => runs.trans ?_, fun used whole => ?_, fun used short => runs.trans ?_⟩
    · have idle' : bit (s.port k).active lane = false := idle
      rw [idle']
      rfl
    · intro z
      have used' : bit (s.port k).active lane = true := used
      have four : ¬ ((List.range 5).filter (fun j => !bit ((s.port k).failed + 2 ^ lane) j)).length < 4 := by
        have whole' : (s.port k).failed = 0 := whole
        rw [whole']
        exact lanes_left lane isLane
      rw [used', if_neg four] at runs
      exact runs.trans (congrArg (fun u => Host.Outcome.next (linkEvent k 1 lane u)) (resendKept k z x.kept x.mode8023))
    · obtain ⟨j, isJ, failed⟩ := short
      have used' : bit (s.port k).active lane = true := used
      have short : ((List.range 5).filter (fun j => !bit ((s.port k).failed + 2 ^ lane) j)).length < 4 :=
        lanes_short unset isLane isJ failed
      rw [used', if_pos short]
      rfl
  · intro seq acked sent
    refine ⟨fun sound => ⟨fun next first => ?_, fun other near => ?_, fun other far => ?_⟩, fun bad => ?_⟩
    · intro y
      have taken_ : y = flitTaken k f s := by
        have none_ : acked.replayTo = none := first
        change sent (.flitAck k seq) (s.setPort k { acked with rxNext := (seq + 1) % 4096, replayTo := acked.replayTo }) = _
        rw [none_]
        rfl
      have runs := execFlit_inOrder known up courier len sound next first
      rw [← taken_] at runs
      clear_value y
      refine ⟨fun isType => ?_, fun isType => ?_, fun isType ask => ?_⟩
      · rw [runs, isType]
        rfl
      · rw [runs, isType]
        rfl
      · rw [runs, isType, ask]
        rfl
    · have good : (crc64 (f.take 248) != le f 248 8) = false := bne_eq_false_iff_eq.mpr sound
      have ahead : (le f 2 2 % 4096 == (s.port k).rxNext) = false := beq_eq_false_iff_ne.mpr other
      rw [execFlit_up known up courier len]
      dsimp only
      rw [good, ahead, if_pos near]
      rfl
    · have good : (crc64 (f.take 248) != le f 248 8) = false := bne_eq_false_iff_eq.mpr sound
      have behind : (le f 2 2 % 4096 == (s.port k).rxNext) = false := beq_eq_false_iff_ne.mpr other
      rw [execFlit_up known up courier len]
      dsimp only
      rw [good, behind, if_neg (Nat.not_lt.mpr far)]
      rfl
    · refine ⟨flitBad k seq s, ?_, flitBad_leaves k seq s⟩
      rw [execFlit_up known up courier len]
      dsimp only
      rw [if_pos (bne_iff_ne.mpr bad)]
end

section
/-! SUPPORT. What the end of work leaves as it is: time and power, the states of cores, dies, stacks and parcels, an idle core and a
parcel without items. One lemma for each function of the model that ends work, proved from those of the functions that it calls. -/

namespace Sys2Proof.Machine

/-- The sessions of the mailbox blocks stay. -/
structure SessionsKept (s t : State) : Prop where
  kept : ∀ n, (t.block n).session = (s.block n).session

namespace SessionsKept

variable {s t u : State}

theorem trans (a : SessionsKept s t) (b : SessionsKept t u) : SessionsKept s u := ⟨fun n => (b.kept n).trans (a.kept n)⟩

theorem of_signals (h : SignalsOnly s t) : SessionsKept s t := ⟨fun n => by rw [h.block n]⟩

theorem foldl {α : Type} {f : State → α → State} (each : ∀ s a, SessionsKept s (f s a)) (l : List α) (s : State) :
    SessionsKept s (l.foldl f s) := by
  induction l generalizing s with
  | nil => exact ⟨fun _ => rfl⟩
  | cons a r ih => exact (each s a).trans (ih _)

end SessionsKept

theorem logPf_sessions (e : Event) (s : State) : SessionsKept s (logPf e s) := by
  unfold logPf
  extract_lets fire s'
  refine SessionsKept.trans (t := s') ⟨fun _ => rfl⟩ (SessionsKept.trans ?_ (.of_signals (setIrq_signals ..)))
  split
  · exact .of_signals (msix_signals ..)
  · exact ⟨fun _ => rfl⟩

theorem logTen_sessions (p t : Nat) (e : Event) (s : State) : SessionsKept s (logTen p t e s) := by
  unfold logTen
  dsimp only
  split
  · exact ⟨fun _ => rfl⟩
  · exact SessionsKept.trans (t := s.modTen p t _) ⟨fun _ => rfl⟩ (.of_signals (setIrq_signals ..))

theorem recordNow_sessions (kind p t seq len : Nat) (a b : List Byte) (s : State) :
    SessionsKept s (recordNow kind p t seq len a b s) := by
  unfold recordNow
  extract_lets e s1 s2 ts
  have pf : SessionsKept s s1 := logPf_sessions ..
  have bmc : SessionsKept s s2 := pf.trans (by
    unfold s2
    split <;> exact ⟨fun _ => rfl⟩)
  split
  · exact bmc
  · exact bmc.trans (.foldl (fun s k => logTen_sessions ..) _ _)

theorem satLogs_sessions (ps : List Nat) (n : Nat) (old s : State) : SessionsKept s (satLogs ps n old s) := by
  induction n generalizing old s with
  | zero => exact ⟨fun _ => rfl⟩
  | succ n ih =>
    unfold satLogs
    dsimp only
    split
    · exact ⟨fun _ => rfl⟩
    · exact (SessionsKept.foldl (fun s x => recordNow_sessions ..) _ _).trans (ih _ _)

/-- R553: records leave the sessions as they are. -/
theorem recordP_sessions (kind p t seq len : Nat) (a b : List Byte) (s : State) : SessionsKept s (recordP kind p t seq len a b s) :=
  (recordNow_sessions ..).trans (satLogs_sessions ..)

theorem recordShared_sessions (kind len : Nat) (ps : List Nat) (a : List Byte) (b : Nat → List Byte) (s : State) :
    SessionsKept s (recordShared kind len ps a b s) :=
  ((recordNow_sessions ..).trans (.foldl (fun u p => SessionsKept.foldl (fun u t => logTen_sessions ..) _ u) _ _)).trans
    (satLogs_sessions ..)

/-- A core that has no item. -/
def Core.Idle (c : Core) : Prop := c.seq.st = .idle ∧ c.seq.item = none ∧ c.slots = []

/-- A parcel that stays in its state, and without items where it has none. -/
def Parcel.Drains (x y : Parcel) : Prop := y.state = x.state ∧ (x.items = [] → y.items = [])

/-- From s to t work has ended and none begun. -/
structure Ends (s t : State) : Prop where
  time : t.time = s.time
  power : t.power = s.power
  metas : t.metas = s.metas
  fuse : t.store.coreFuse = s.store.coreFuse
  fed : t.fed = { s.fed with waits := t.fed.waits }
  bmc : t.bmcSession = s.bmcSession
  sec : t.sec = s.sec
  session : SessionsKept s t
  lost : ∀ d, (t.die d).lost = (s.die d).lost
  reach : ∀ k, (t.stack k).unreachable = (s.stack k).unreachable
  idle : ∀ k, (s.core k).Idle → (t.core k).Idle
  parcel : ∀ p, (s.parcel p).Drains (t.parcel p)

theorem Parcel.Drains.refl (x : Parcel) : x.Drains x := ⟨rfl, id⟩

theorem Parcel.Drains.trans {x y z : Parcel} (a : x.Drains y) (b : y.Drains z) : x.Drains z :=
  ⟨b.1.trans a.1, fun none_ => b.2 (a.2 none_)⟩

namespace Ends

variable {s t u : State}

theorem refl (s : State) : Ends s s := ⟨rfl, rfl, rfl, rfl, rfl, rfl, rfl, ⟨fun _ => rfl⟩, fun _ => rfl, fun _ => rfl, fun _ => id, fun _ => .refl _⟩

theorem trans (a : Ends s t) (b : Ends t u) : Ends s u :=
  ⟨b.time.trans a.time, b.power.trans a.power, b.metas.trans a.metas, b.fuse.trans a.fuse, by rw [b.fed, a.fed], b.bmc.trans a.bmc, b.sec.trans a.sec, a.session.trans b.session,
    fun d => (b.lost d).trans (a.lost d),
    fun k => (b.reach k).trans (a.reach k), fun k still => b.idle k (a.idle k still), fun p => (a.parcel p).trans (b.parcel p)⟩

theorem ite {c : Prop} {_ : Decidable c} (a : Ends s t) (b : Ends s u) : Ends s (if c then t else u) := by
  split <;> assumption

/-- A step that is taken or not. -/
theorem when {c : Prop} {_ : Decidable c} (a : Ends s t) (b : Ends s t → Ends s u) : Ends s (if c then u else t) :=
  .ite (b a) a

/-- A step that is left out or not. -/
theorem whenNot {c : Prop} {_ : Decidable c} (a : Ends s t) (b : Ends s t → Ends s u) : Ends s (if c then t else u) :=
  .ite a (b a)

/-- One of two ways to go on. -/
theorem branch {c : Prop} {_ : Decidable c} {v : State} (b : Ends s t → Ends s u) (b' : Ends s t → Ends s v)
    (a : Ends s t) : Ends s (if c then u else v) := .ite (b a) (b' a)

theorem foldl {α : Type} {f : State → α → State} {l : List α} (k : Ends s t)
    (h : ∀ u a, Ends s u → Ends s (f u a)) : Ends s (l.foldl f t) := by
  induction l generalizing t with
  | nil => exact k
  | cons a r ih => exact ih (h t a k)

/-- What an operation that can fail leaves. -/
theorem orElse {o : Option State} (h : ∀ u, o = some u → Ends s u) (k : Ends s t) : Ends s (o.getD t) := by
  cases o with
  | none => exact k
  | some u => exact h u rfl

section
variable {α β γ δ : Type} {c : Prop} {_ : Decidable c}

theorem mk2 {a : α} (h : Ends s t) : Ends s (a, t).2 := h
theorem mk22 {a : α} {b : β} (h : Ends s t) : Ends s (a, b, t).2.2 := h
theorem mk222 {a : α} {b : β} {c : γ} (h : Ends s t) : Ends s (a, b, c, t).2.2.2 := h
theorem mk2222 {a : α} {b : β} {c : γ} {d : δ} (h : Ends s t) : Ends s (a, b, c, d, t).2.2.2.2 := h

theorem ite2 {a b : α × State} (x : Ends s a.2) (y : Ends s b.2) : Ends s (if c then a else b).2 := by
  split <;> assumption

theorem ite22 {a b : α × β × State} (x : Ends s a.2.2) (y : Ends s b.2.2) : Ends s (if c then a else b).2.2 := by
  split <;> assumption

theorem ite222 {a b : α × β × γ × State} (x : Ends s a.2.2.2) (y : Ends s b.2.2.2) :
    Ends s (if c then a else b).2.2.2 := by
  split <;> assumption

theorem ite2222 {a b : α × β × γ × δ × State} (x : Ends s a.2.2.2.2) (y : Ends s b.2.2.2.2) :
    Ends s (if c then a else b).2.2.2.2 := by
  split <;> assumption
end

/-- An update of the fields that say nothing of work. -/
theorem other {a1 a2 a3 a4 a5 a6 a7 a8 a9 a10 a11 a12 a13 a14 a15 a16 a17 a18 a19} (k : Ends s t) :
    Ends s ⟨a1, a2, t.time, t.power, t.store, t.cores, t.metas, t.dies, t.hs, a3, t.parcels, a4, a5, a6, a7, a8, a9, t.blocks,
      t.bmcSession, a10, a11, a12, t.sec, a13, t.fed, a14, a15, a16, a17, a18, a19⟩ :=
  ⟨k.time, k.power, k.metas, k.fuse, k.fed, k.bmc, k.sec, ⟨k.session.kept⟩, k.lost, k.reach, k.idle, k.parcel⟩

/-- An update of the boot storage beside the fuses of cores. -/
theorem stored {x : Store} (k : Ends s t) (same : x.coreFuse = t.store.coreFuse := by rfl) : Ends s { t with store := x } :=
  ⟨k.time, k.power, k.metas, same.trans k.fuse, k.fed, k.bmc, k.sec, ⟨k.session.kept⟩, k.lost, k.reach, k.idle, k.parcel⟩

/-- R520: waits begin and end. -/
theorem waits {w : List Wait} (k : Ends s t) : Ends s { t with fed := { t.fed with waits := w } } :=
  ⟨k.time, k.power, k.metas, k.fuse, by
    change ({ t.fed with waits := w } : Fed) = { s.fed with waits := w }
    rw [k.fed], k.bmc, k.sec, ⟨k.session.kept⟩, k.lost, k.reach, k.idle, k.parcel⟩

theorem of_logs (k : Ends s t) (h : LogsOnly t u) (sessions : SessionsKept t u) : Ends s u := by
  obtain ⟨-, -, -, -, -, -, -, -, -, -, -, -, -, -, -, bmc, -, sec, -, -, -, -⟩ := h.records.eqs
  exact k.trans ⟨h.records.time, h.records.power, h.records.metas, by rw [h.records.store], by rw [h.records.fed],
    bmc, sec, sessions, fun d => by rw [h.records.die],
    fun j => by rw [h.records.stack], fun j still => by rw [h.records.core]; exact still, fun p => ⟨h.state p, fun none_ => by
      rw [h.items, none_]⟩⟩

theorem of_signals (k : Ends s t) (h : SignalsOnly t u) : Ends s u := k.of_logs (.of_signals h) (.of_signals h)

theorem of_replies (k : Ends s t) (h : RepliesOnly t u) : Ends s u := by
  have r := h.rest
  have sessions : SessionsKept t u := ⟨h.session⟩
  clear h
  generalize u.blocks = b, u.outputs = o, u.delayed = d, u.host = m, u.bmcOpen = n, u.pcie.msixPending = v, u.pcie.statusShown = g
    at r
  subst r
  exact k.trans ⟨rfl, rfl, rfl, rfl, rfl, rfl, rfl, sessions, fun _ => rfl, fun _ => rfl, fun _ => id, fun _ => .refl _⟩

theorem hostWrite {n a : Nat} {bs : List Byte} (k : Ends s t) (h : Machine.hostWrite t n a bs = some u) : Ends s u :=
  k.of_replies (hostWrite_replies h)

theorem setCore {i x} (k : Ends s t) (still : (t.core i).Idle → x.Idle := by exact id) : Ends s (t.setCore i x) := by
  refine k.trans ⟨rfl, rfl, rfl, rfl, rfl, rfl, rfl, ⟨fun _ => rfl⟩, fun _ => rfl, fun _ => rfl, fun j idle => ?_, fun _ => .refl _⟩
  by_cases own : j = i
  · subst own
    rw [State.setCore_core_same]
    exact still idle
  · rw [State.setCore_core_other _ _ _ _ own]
    exact idle

theorem setDie {i x} (k : Ends s t) (same : x.lost = (t.die i).lost := by rfl) : Ends s (t.setDie i x) := by
  refine k.trans ⟨rfl, rfl, rfl, rfl, rfl, rfl, rfl, ⟨fun _ => rfl⟩, fun d => ?_, fun _ => rfl, fun _ => id, fun _ => .refl _⟩
  by_cases own : d = i
  · rw [own, State.setDie_die_same, same]
  · rw [State.setDie_die_other _ _ _ _ own]

theorem setGran {h g} (k : Ends s t) : Ends s (t.setGran h g) := k.setDie

theorem setStack {i x} (k : Ends s t) (same : x.unreachable = (t.stack i).unreachable := by rfl) : Ends s (t.setStack i x) := by
  refine k.trans ⟨rfl, rfl, rfl, rfl, rfl, rfl, rfl, ⟨fun _ => rfl⟩, fun _ => rfl, fun j => ?_, fun _ => id, fun _ => .refl _⟩
  by_cases own : j = i
  · rw [own, State.setStack_stack_same, same]
  · rw [State.setStack_stack_other _ _ _ _ own]

theorem setParcel {i x} (k : Ends s t) (drains : (t.parcel i).Drains x := by exact ⟨rfl, id⟩) : Ends s (t.setParcel i x) := by
  refine k.trans ⟨rfl, rfl, rfl, rfl, rfl, rfl, rfl, ⟨fun _ => rfl⟩, fun _ => rfl, fun _ => rfl, fun _ => id, fun p => ?_⟩
  by_cases own : p = i
  · rw [own, State.setParcel_parcel_same]
    exact drains
  · rw [State.setParcel_parcel_other _ _ _ _ own]
    exact .refl _

theorem modParcel {i f} (k : Ends s t) (drains : ∀ x : Parcel, x.Drains (f x) := by exact fun _ => ⟨rfl, id⟩) :
    Ends s (t.modParcel i f) := k.setParcel (drains _)

theorem modTen {p i f} (k : Ends s t) : Ends s (t.modTen p i f) := k.modParcel

theorem modItem {p i f} (k : Ends s t) : Ends s (t.modItem p i f) :=
  k.modParcel fun x => ⟨rfl, fun none_ => by rw [Parcel.updItem, none_]; rfl⟩

theorem setBlock {i x} (k : Ends s t) (same : x.session = (t.block i).session := by rfl) : Ends s (t.setBlock i x) := by
  refine k.trans ⟨rfl, rfl, rfl, rfl, rfl, rfl, rfl, ⟨fun n => ?_⟩, fun _ => rfl, fun _ => rfl, fun _ => id, fun _ => .refl _⟩
  by_cases own : n = i
  · rw [own, State.setBlock_block_same, same]
  · rw [State.setBlock_block_other _ _ _ _ own]

theorem setPort {i x} (k : Ends s t) : Ends s (t.setPort i x) := k.other
theorem draw (k : Ends s t) : Ends s (Machine.draw t).2 := k.other
theorem setIrq {n v} (k : Ends s t) : Ends s (Machine.setIrq n v t) := k.of_signals (setIrq_signals _ _ _)
theorem recordP {a b c d e f g} (k : Ends s t) : Ends s (Machine.recordP a b c d e f g t) :=
  k.of_logs (recordP_logs _ _ _ _ _ _ _ _) (recordP_sessions ..)
theorem recordShared {a b c d e} (k : Ends s t) : Ends s (Machine.recordShared a b c d e t) :=
  k.of_logs (recordShared_logs _ _ _ _ _ _) (recordShared_sessions ..)
theorem recordM {a b c} (k : Ends s t) : Ends s (Machine.recordM a b c t) := k.recordP
theorem reply {a b c} (k : Ends s t) : Ends s (Machine.reply a b c t) := k.of_replies (reply_replies _ _ _ _)

end Ends

variable {s₀ s : State}

theorem Ends.eventsReadable {p t seq} (hs : Ends s₀ s) : Ends s₀ (Machine.eventsReadable p t seq s) :=
  .whenNot hs fun hs => .foldl hs fun _ _ hs => .when hs fun hs => .setIrq hs

theorem Ends.satEvent {p t seq code idx} (hs : Ends s₀ s) : Ends s₀ (Machine.satEvent p t seq code idx s) :=
  .recordP hs

theorem Ends.satShared {ps code idx idxTen} (hs : Ends s₀ s) : Ends s₀ (Machine.satShared ps code idx idxTen s) :=
  .recordShared hs

theorem Ends.internalEvent {code} (hs : Ends s₀ s) : Ends s₀ (Machine.internalEvent code s) := .recordM hs

theorem Ends.ringFail {n} (hs : Ends s₀ s) : Ends s₀ (Machine.ringFail n s) := .internalEvent (.setIrq hs)

theorem Ends.drainDlr {p t n m} (hs : Ends s₀ s) : Ends s₀ (Machine.drainDlr p t n m s) := by
  induction m generalizing s with
  | zero => exact hs
  | succ m ih =>
    unfold Machine.drainDlr
    dsimp only
    split
    · exact hs
    · refine .whenNot hs fun hs => ?_
      split
      · exact .ringFail (.setBlock hs)
      · next write => exact ih (.setIrq (.modTen (.setBlock (.hostWrite hs write) ((hostWrite_replies write).session _).symm)))

theorem Ends.drainCpl {p t n m} (hs : Ends s₀ s) : Ends s₀ (Machine.drainCpl p t n m s) := by
  induction m generalizing s with
  | zero => exact hs
  | succ m ih =>
    unfold Machine.drainCpl
    dsimp only
    split
    · exact hs
    · refine .whenNot hs fun hs => .whenNot hs fun hs => ?_
      split
      · exact .ringFail (.setBlock hs)
      · next write => exact ih (.setIrq (.modTen (.setBlock (.hostWrite hs write) ((hostWrite_replies write).session _).symm)))

theorem Ends.drainRings {p t} (hs : Ends s₀ s) : Ends s₀ (Machine.drainRings p t s) := .drainCpl (.drainDlr hs)

theorem Ends.queueEntries {p t cpl dlr} (hs : Ends s₀ s) : Ends s₀ (Machine.queueEntries p t cpl dlr s) :=
  .drainRings (.modTen hs)

theorem Ends.postEntries {p t cpl dlr} (hs : Ends s₀ s) : Ends s₀ (Machine.postEntries p t cpl dlr s) :=
  .ite (.other hs) (.queueEntries hs)

theorem Ends.memErr {kind a replays detail c} (hs : Ends s₀ s) :
    Ends s₀ (Machine.memErr kind a replays detail c s) := by
  unfold Machine.memErr
  dsimp only
  split
  · exact .recordP hs
  · exact .recordM hs

theorem Ends.lostAccess {a replays c} (hs : Ends s₀ s) : Ends s₀ (Machine.lostAccess a replays c s) := by
  unfold Machine.lostAccess
  split
  · exact .whenNot hs fun hs => .modItem (.memErr hs)
  · exact .memErr hs

theorem Ends.hbmCount {k which n} (hs : Ends s₀ s) : Ends s₀ (Machine.hbmCount k which n s) :=
  .when (.setStack hs (by simp only [apply_ite Stack.unreachable, ite_self])) fun hs => .satShared hs

theorem Ends.rowNote {a worse} (hs : Ends s₀ s) : Ends s₀ (Machine.rowNote a worse s) :=
  .ite (.stored hs) (.stored hs)

theorem Ends.granCheck {a err exhausted replays c} (hs : Ends s₀ s) :
    Ends s₀ (Machine.granCheck a err exhausted replays c s).2.2 :=
  .ite22 (.mk22 (.lostAccess (.when hs fun hs => .memErr hs)))
    (.ite22 (.ite22 (.mk22 (.memErr (.memErr (.hbmCount hs)))) (.ite22 (.mk22 (.memErr (.hbmCount hs))) (.mk22 hs)))
    (.ite22 (.mk22 (.memErr (.hbmCount hs))) (by
    split
    · exact .mk22 hs
    · exact .ite22 (.mk22 hs) (.mk22 (.whenNot (.rowNote (.hbmCount hs)) fun hs => .memErr (.setStack hs)))
    · exact .mk22 (.memErr (.rowNote (.hbmCount hs)))
    · exact .mk22 (.memErr (.rowNote (.hbmCount hs))))))

theorem Ends.rdGran {a c} (hs : Ends s₀ s) : Ends s₀ (Machine.rdGran a c s).2.2 := .granCheck hs

theorem Ends.putGran {a d} (hs : Ends s₀ s) : Ends s₀ (Machine.putGran a d s) := .other hs

theorem Ends.wrGran {a bs c} (hs : Ends s₀ s) : Ends s₀ (Machine.wrGran a bs c s).2 :=
  .ite2 (.mk2 (.lostAccess hs))
    (.ite2 (.mk2 (.putGran hs)) (.ite2 (.mk2 (.putGran (.rdGran hs))) (.mk2 (.rdGran hs))))

theorem Ends.writeBack {h key} (hs : Ends s₀ s) : Ends s₀ (Machine.writeBack h key s) := by
  unfold Machine.writeBack
  dsimp only
  split
  · exact .when hs fun hs => .setGran (.wrGran hs)
  · exact hs

theorem Ends.touch {h key} (hs : Ends s₀ s) : Ends s₀ (Machine.touch h key s) := .setGran hs

theorem Ends.fillLine {h set tag l} (hs : Ends s₀ s) : Ends s₀ (Machine.fillLine h set tag l s) :=
  .touch (.setGran (.writeBack hs))

theorem Ends.rdLine {p a n alloc c} (hs : Ends s₀ s) : Ends s₀ (Machine.rdLine p a n alloc c s).2.2 := by
  unfold Machine.rdLine
  dsimp only
  split
  · exact .mk22 (.rdGran hs)
  · exact .ite22 (.mk22 (.lostAccess hs)) (by
      split
      · exact .mk22 (.touch hs)
      · exact .ite22 (.mk22 (.fillLine (.rdGran hs))) (.mk22 (.rdGran hs)))

theorem Ends.wrLine {p a bs alloc w c} (hs : Ends s₀ s) : Ends s₀ (Machine.wrLine p a bs alloc w c s).2 := by
  unfold Machine.wrLine
  dsimp only
  split
  · exact .wrGran hs
  · exact .ite2 (.mk2 (.lostAccess hs)) (by
      split
      · exact .mk2 (.touch (.setGran hs))
      · exact .ite2 (.wrGran hs)
          (.ite2 (.mk2 (.lostAccess hs))
          (.ite2 (.mk2 (.fillLine hs)) (.ite2 (.mk2 (.fillLine (.rdGran hs))) (.mk2 (.rdGran hs))))))

theorem Ends.pvReadL {p ten alloc c l acc} (hs : Ends s₀ s) :
    Ends s₀ (Machine.pvReadL p ten alloc c l acc s).2.2.2 := by
  induction l generalizing s acc with
  | nil => exact hs
  | cons x l ih =>
    unfold Machine.pvReadL
    split
    · exact hs
    · exact .ite222 (ih (.rdLine hs)) (.mk222 (.rdLine hs))

theorem Ends.pvRead {p ten v n alloc c} (hs : Ends s₀ s) : Ends s₀ (Machine.pvRead p ten v n alloc c s).2.2.2 :=
  .pvReadL hs

theorem Ends.pvWriteL {p ten alloc w c l bs n} (hs : Ends s₀ s) :
    Ends s₀ (Machine.pvWriteL p ten alloc w c l bs n s).2.2.2 := by
  induction l generalizing s bs n with
  | nil => exact hs
  | cons x l ih =>
    unfold Machine.pvWriteL
    split
    · exact hs
    · exact .ite222 (ih (.wrLine hs)) (.mk222 (.wrLine hs))

theorem Ends.pvWrite {p ten v bs alloc w c} (hs : Ends s₀ s) :
    Ends s₀ (Machine.pvWrite p ten v bs alloc w c s).2.2.2 :=
  .pvWriteL hs

theorem Ends.flushGran {h} (hs : Ends s₀ s) : Ends s₀ (Machine.flushGran h s) :=
  .setGran (.foldl hs fun _ _ hs => .writeBack hs)

theorem Ends.zeroGran {h} (hs : Ends s₀ s) : Ends s₀ (Machine.zeroGran h s) := .setDie hs

theorem Ends.flushParcel {p} (hs : Ends s₀ s) : Ends s₀ (Machine.flushParcel p s) :=
  .foldl hs fun _ _ hs => .ite (.flushGran hs) (.zeroGran hs)

theorem Ends.flushItem {p seq} (hs : Ends s₀ s) : Ends s₀ (Machine.flushItem p seq s) :=
  .foldl hs fun _ _ hs => .foldl hs fun _ _ hs => .writeBack hs

theorem Ends.sendOn {k fr} (hs : Ends s₀ s) : Ends s₀ (Machine.sendOn k fr s) :=
  .ite (.whenNot hs fun hs => .other hs) (.other (.setPort hs))

theorem Ends.routeFrame {fr} (hs : Ends s₀ s) : Ends s₀ (Machine.routeFrame fr s) := by
  unfold Machine.routeFrame
  dsimp only
  split
  · exact .sendOn hs
  · exact hs

theorem Ends.countFrame {p ch sent} (hs : Ends s₀ s) : Ends s₀ (Machine.countFrame p ch sent s) :=
  .when (.modParcel hs) fun hs => .satEvent hs

theorem Ends.sendChan {p ch type flags dest dparcel dch tag deadline offset body} (hs : Ends s₀ s) :
    Ends s₀ (Machine.sendChan p ch type flags dest dparcel dch tag deadline offset body s) :=
  .whenNot hs fun hs => .ite (.routeFrame (.countFrame (.modParcel hs))) (.routeFrame (.countFrame (.modParcel hs)))

theorem Ends.beginWait {p ch key m} (hs : Ends s₀ s) : Ends s₀ (Machine.beginWait p ch key m s) :=
  .whenNot hs fun hs => .waits hs

theorem Ends.endWaits {p ch key} (hs : Ends s₀ s) : Ends s₀ (Machine.endWaits p ch key s) := .waits hs

theorem Ends.tenCount {p t which} (hs : Ends s₀ s) : Ends s₀ (Machine.tenCount p t which s) :=
  .when (.modTen hs) fun hs => .satEvent hs

theorem Ends.batchDone {p i st} (hs : Ends s₀ s) : Ends s₀ (Machine.batchDone p i st s) := by
  unfold Machine.batchDone
  dsimp only
  split
  · exact .modParcel hs
  · exact hs

theorem Ends.endItem {p seq f ev adm} (hs : Ends s₀ s) : Ends s₀ (Machine.endItem p seq f ev adm s) := by
  unfold Machine.endItem
  dsimp only
  split
  · exact hs
  · exact .eventsReadable
      (.postEntries (.modParcel (.batchDone (.when (.tenCount (.modParcel (.flushItem hs) fun x => ⟨rfl, fun none_ => by
        dsimp only
        rw [none_]
        rfl⟩)) fun hs => .modTen hs))))

theorem Ends.spUndef {k a n} (hs : Ends s₀ s) : Ends s₀ (Machine.spUndef k a n s) := .setCore (.draw hs)

theorem Ends.physUndef {p a n} (hs : Ends s₀ s) : Ends s₀ (Machine.physUndef p a n s) := by
  unfold Machine.physUndef
  dsimp only
  split
  · exact .setGran (.draw hs)
  · exact .other (.draw hs)

theorem Ends.pvUndef {p ten v n} (hs : Ends s₀ s) : Ends s₀ (Machine.pvUndef p ten v n s) :=
  .foldl hs fun _ _ hs => by
    split
    · exact .physUndef hs
    · exact hs

theorem Ends.dsUndef {d a n} (hs : Ends s₀ s) : Ends s₀ (Machine.dsUndef d a n s) := .setDie (.draw hs)

theorem Ends.resetStream {p ch tag} (hs : Ends s₀ s) : Ends s₀ (Machine.resetStream p ch tag s) :=
  .sendChan (.endWaits (.endWaits (.modParcel hs)))

theorem Ends.cancelDesc {p ten k lc v d} (hs : Ends s₀ s) : Ends s₀ (Machine.cancelDesc p ten k lc v d s) :=
  .ite (.foldl hs fun _ _ hs => .spUndef hs) (.ite (.foldl hs fun _ _ hs => .pvUndef hs) (.when hs fun hs => by
    split
    · exact .foldl hs fun _ _ hs => by
        split
        · exact .dsUndef hs
        · exact hs
    · exact hs))

theorem Ends.feedLate {p ten seq seg k h} (hs : Ends s₀ s) : Ends s₀ (Machine.feedLate p ten seq seg k h s) :=
  .whenNot hs fun hs => .recordP hs

theorem Ends.powerQuarters {k} (hs : Ends s₀ s) : Ends s₀ (Machine.powerQuarters k s) :=
  .setCore (.foldl hs fun _ _ hs => .spUndef hs)

theorem Core.deliver_idle (l : List (Nat × List Byte)) (c : Core) : c.Idle → (c.deliver l).Idle := by
  unfold Core.deliver
  induction l generalizing c with
  | nil => exact id
  | cons x r ih => exact fun idle => ih _ idle

theorem deliverEarly_idle (c : Core) : c.Idle → (deliverEarly c).Idle := by
  unfold deliverEarly
  generalize c.due = l
  induction l generalizing c with
  | nil => exact id
  | cons d r ih =>
    intro idle
    rw [List.foldl_cons]
    refine ih _ ?_
    split
    · exact Core.deliver_idle _ _ idle
    · exact idle

theorem tblGet_map {α β : Type} (t : Tbl α) (f : α → β) (k : Nat) : tblGet (t.map (fun c => (c.1, f c.2))) k = (tblGet t k).map f := by
  unfold tblGet
  rw [List.find?_map, Option.map_map, Option.map_map]
  rfl

/-- R166: halves become free. -/
theorem Ends.freesHalves {p seq : Nat} (hs : Ends s₀ s) :
    Ends s₀ { s with cores := s.cores.map (fun c => (c.1, { c.2 with seq := freeHalves p seq c.2.seq })) } := by
  refine hs.trans ⟨rfl, rfl, rfl, rfl, rfl, rfl, rfl, ⟨fun _ => rfl⟩, fun _ => rfl, fun _ => rfl, fun k idle => ?_, fun _ => .refl _⟩
  have same : State.core { s with cores := s.cores.map (fun c => (c.1, { c.2 with seq := freeHalves p seq c.2.seq })) } k =
      ((tblGet s.cores k).map (fun c : Core => { c with seq := freeHalves p seq c.seq })).getD {} := by
    exact congrArg (·.getD {}) (tblGet_map s.cores (fun c : Core => { c with seq := freeHalves p seq c.seq }) k)
  rw [same]
  unfold State.core at idle
  cases found : tblGet s.cores k with
  | none => exact ⟨rfl, rfl, rfl⟩
  | some c =>
    rw [found] at idle
    exact idle

theorem failItem_restoreAll_drains (j : Item) (x y : Parcel) (drains : x.Drains y) : x.Drains (failItem.restoreAll j y) := by
  unfold failItem.restoreAll
  split
  · split
    · exact drains
    · exact drains
  · exact drains

theorem Ends.haltCore {k} (hs : Ends s₀ s) : Ends s₀ (Machine.haltCore k s) := by
  unfold Machine.haltCore
  dsimp only
  split
  · exact .setCore hs fun _ => ⟨rfl, rfl, rfl⟩
  · exact .setCore (.powerQuarters (.foldl (.setCore hs (deliverEarly_idle _)) fun _ _ hs => .cancelDesc hs)) fun _ => ⟨rfl, rfl, rfl⟩

theorem Ends.stopCore {k} (hs : Ends s₀ s) : Ends s₀ (Machine.stopCore k s) := by
  unfold Machine.stopCore
  dsimp only
  split
  · exact .haltCore hs
  · exact .haltCore (.feedLate hs)

theorem Ends.noteEnded {e} (hs : Ends s₀ s) : Ends s₀ (Machine.noteEnded e s) := .other hs

theorem Ends.noteCores {ks} (hs : Ends s₀ s) : Ends s₀ (Machine.noteCores ks s) := .other hs

/-- The kernel unfolds a matcher before the function around it and would count the ring's entries one by one here, so the
definition is unfolded before it is applied. -/
theorem Ends.amendRing {n r seq e} (hs : Ends s₀ s) : Ends s₀ (Machine.amendRing n r seq e s) := by
  obtain ⟨amend, rule⟩ : ∃ amend, amend = @Machine.amendRing := ⟨_, rfl⟩
  rw [← rule]
  delta Machine.amendRing at rule
  subst rule
  beta_reduce
  extract_lets places
  generalize List.find? _ places = place
  cases place with
  | none => exact hs
  | some k => exact .orElse (fun u write => .hostWrite hs write) hs

theorem Ends.amendEntries {p t cpl dlr} (hs : Ends s₀ s) : Ends s₀ (Machine.amendEntries p t cpl dlr s) :=
  .amendRing (.amendRing (.modTen (.other hs)))

theorem Ends.failAgain {e f ev} (hs : Ends s₀ s) : Ends s₀ (Machine.failAgain e f ev s) := by
  have halted : Ends s₀ ((coresOf s e.parcel e.item.seq).foldl (fun s k => Machine.haltCore k s) s) :=
    .foldl hs fun _ _ hs => .haltCore hs
  unfold Machine.failAgain
  exact .ite (.noteEnded halted) (.branch (fun hs => .endItem (.modItem hs)) (fun hs => .amendEntries hs) (.noteEnded halted))

theorem Ends.failItem {p seq f ev} (hs : Ends s₀ s) : Ends s₀ (Machine.failItem p seq f ev s) := by
  unfold Machine.failItem
  dsimp only
  split
  · exact .failAgain hs
  · exact hs
  · exact .branch (fun hs => .modParcel hs fun x => failItem_restoreAll_drains _ _ _ ⟨rfl, fun none_ => by
        dsimp only
        rw [none_]
        rfl⟩) (fun hs => .endItem (.modItem hs))
      (.noteEnded (.modParcel (.foldl (.freesHalves (.foldl (.noteCores hs) fun _ _ hs => .stopCore hs)) fun _ _ hs =>
      .resetStream hs)))

theorem Ends.fenceEvent {p ten seq k lc scope cause fl n} (hs : Ends s₀ s) :
    Ends s₀ (Machine.fenceEvent p ten seq k lc scope cause fl n s) :=
  .recordP hs

theorem Ends.failItems {p lc its} (hs : Ends s₀ s) : Ends s₀ (Machine.failItems p lc its s) :=
  .foldl hs fun _ _ hs => .failItem hs

theorem Ends.addExcItem {p seq e} (hs : Ends s₀ s) : Ends s₀ (Machine.addExcItem p seq e s) := by
  unfold Machine.addExcItem
  dsimp only
  split
  · exact hs
  · exact .foldl (.modItem hs) fun _ _ hs => .satEvent hs

theorem Ends.failOn {k status desc slot ev} (hs : Ends s₀ s) :
    Ends s₀ (Machine.failOn k status desc slot ev s) := by
  unfold Machine.failOn
  split
  · exact .failItem hs
  · exact hs

theorem Ends.upRead {w a n} (hs : Ends s₀ s) : Ends s₀ (Machine.upRead w a n s).2.2.2 := .pvRead hs

theorem Ends.upReadL {w l acc} (hs : Ends s₀ s) : Ends s₀ (Machine.upReadL w l acc s).2.2.2 := by
  induction l generalizing s acc with
  | nil => exact hs
  | cons x l ih =>
    rw [Machine.upReadL]
    exact .ite222 (ih (.upRead hs)) (.mk222 (.upRead hs))

theorem Ends.upReadLL {w l} (hs : Ends s₀ s) : Ends s₀ (Machine.upReadLL w l s).2.2.2 := by
  induction l generalizing s with
  | nil => exact hs
  | cons x l ih =>
    rw [Machine.upReadLL]
    exact .ite222 (.mk222 (ih (.upReadL hs))) (.mk222 (.upReadL hs))

theorem Ends.upWriteL {w n l} (hs : Ends s₀ s) : Ends s₀ (Machine.upWriteL w n l s).2.2 := by
  induction l generalizing s n with
  | nil => cases n <;> exact hs
  | cons x l ih =>
    cases n with
    | zero => exact hs
    | succ n =>
      rw [Machine.upWriteL]
      exact .ite22 (ih (.pvWrite hs)) (.mk22 (.pvWrite hs))

theorem Ends.touched {w g} (hs : Ends s₀ s) : Ends s₀ (Machine.touched w g s).2.2.2 :=
  .ite222 (.mk222 hs) (.mk222 (.upReadLL hs))

theorem Ends.upLoad {w g es} (hs : Ends s₀ s) : Ends s₀ (Machine.upLoad w g es s).2.2.2 := .mk222 (.upReadLL hs)

theorem Ends.runChunk {w v k lim} (hs : Ends s₀ s) : Ends s₀ (Machine.runChunk w v k lim s).2.2.2 :=
  .ite222 (.mk222 (.upLoad hs)) (.mk222 (.upWriteL (.upLoad hs)))

theorem Ends.runChunks {w v n k acc} (hs : Ends s₀ s) : Ends s₀ (Machine.runChunks w v n k acc s).2.2.2 := by
  induction n generalizing s k acc with
  | zero => exact hs
  | succ n ih =>
    rw [Machine.runChunks]
    exact .ite222 (ih (.runChunk hs)) (.mk222 (.runChunk hs))

theorem Ends.pass2Env {w r} (hs : Ends s₀ s) : Ends s₀ (Machine.pass2Env w r s).2.2.2.2 :=
  .ite2222 (.mk2222 (.touched hs)) (.ite2222 (.mk2222 (.upRead (.touched hs))) (.mk2222 (.touched hs)))

theorem Ends.keepPass {w r q} (hs : Ends s₀ s) : Ends s₀ (Machine.keepPass w r q s) := .addExcItem (.modItem hs)

theorem Ends.pass2Torn {w r k} (hs : Ends s₀ s) : Ends s₀ (Machine.pass2Torn w r k s) :=
  .ite (.keepPass (.pass2Env hs)) (.branch (fun hs => .keepPass hs) (fun hs => .keepPass (.runChunk (.draw hs)))
    (.runChunks (.pass2Env hs)))

theorem Ends.modGroup {p g f} (hs : Ends s₀ s) : Ends s₀ (Machine.modGroup p g f s) := .modParcel hs

theorem Ends.modRun {p seq g f} (hs : Ends s₀ s) : Ends s₀ (Machine.modRun p seq g f s) := .modItem hs

theorem Ends.sendMsg {p ch type n m24 bs} (hs : Ends s₀ s) : Ends s₀ (Machine.sendMsg p ch type n m24 bs s) :=
  .whenNot hs fun hs => .foldl hs fun _ _ hs => .sendChan hs

theorem Ends.sendAll {p ch type n bs} (hs : Ends s₀ s) : Ends s₀ (Machine.sendAll p ch type n bs s) :=
  .foldl hs fun _ _ hs => .sendMsg hs

theorem Ends.sendShard {p g k type v t} (hs : Ends s₀ s) : Ends s₀ (Machine.sendShard p g k type v t s) :=
  .sendMsg hs

theorem Ends.sendShards {p g type v t} (hs : Ends s₀ s) : Ends s₀ (Machine.sendShards p g type v t s) :=
  .foldl hs fun _ _ hs => .sendShard hs

theorem Ends.putJournal {p j} (hs : Ends s₀ s) : Ends s₀ (Machine.putJournal p j s) := .modParcel hs

theorem Ends.surveyPush {p rec_} (hs : Ends s₀ s) : Ends s₀ (Machine.surveyPush p rec_ s) :=
  .ite (.setParcel hs) (.when (.setParcel hs) fun hs => .satEvent hs)

theorem Ends.sealAbort {p ten seq g t reason} (hs : Ends s₀ s) :
    Ends s₀ (Machine.sealAbort p ten seq g t reason s) :=
  .recordP hs

theorem Ends.endUpdate {p i} (hs : Ends s₀ s) : Ends s₀ (Machine.endUpdate p i s) := by
  unfold Machine.endUpdate
  dsimp only
  split <;> exact .endItem (.foldl hs fun _ _ hs => .modGroup hs)

theorem Ends.tallyEnd {p i} (hs : Ends s₀ s) : Ends s₀ (Machine.tallyEnd p i s) := by
  unfold Machine.tallyEnd
  dsimp only
  split
  · exact .endUpdate (.modTen (.recordP (.endWaits hs)))
  · exact .endUpdate (.endWaits hs)

theorem Ends.updateEnds {p i st ev} (hs : Ends s₀ s) : Ends s₀ (Machine.updateEnds p i st ev s) :=
  .endItem (.foldl (.endWaits hs) fun _ _ hs => .modGroup hs)

theorem Ends.updateSecurity {p i ev} (hs : Ends s₀ s) : Ends s₀ (Machine.updateSecurity p i ev s) := .updateEnds hs

theorem Ends.takeTallies {p seq} (hs : Ends s₀ s) : Ends s₀ (Machine.takeTallies p seq s) :=
  .foldl hs fun _ _ hs => by
    split
    · exact hs
    · exact .whenNot hs fun hs => .modParcel (.modItem hs)

theorem Ends.tryEndUpdate {p seq} (hs : Ends s₀ s) : Ends s₀ (Machine.tryEndUpdate p seq s) := by
  unfold Machine.tryEndUpdate
  dsimp only
  split
  · exact .when hs fun hs => .takeTallies hs
  · exact .whenNot (.when hs fun hs => .takeTallies hs) fun hs => .branch (fun hs => .tallyEnd hs)
      (fun hs => .branch (fun hs => .updateSecurity (.recordP hs))
      (fun hs => .branch (fun hs => .tallyEnd hs) (fun hs => .foldl hs fun _ _ hs => .beginWait hs)
      (.whenNot hs fun hs => .sendAll (.modItem hs))) hs) hs

theorem Ends.sealRefuse {p g t r quiet} (hs : Ends s₀ s) : Ends s₀ (Machine.sealRefuse p g t r quiet s) :=
  .whenNot hs fun hs => .ite (.sendShards (.putJournal hs)) (.whenNot hs fun hs => .sendShard hs)

theorem Ends.noteAbort {p ten seq g t reason} (hs : Ends s₀ s) :
    Ends s₀ (Machine.noteAbort p ten seq g t reason s) :=
  .sealAbort (.modParcel hs)

theorem Ends.finishOne {p seq g st reason quiet} (hs : Ends s₀ s) :
    Ends s₀ (Machine.finishOne p seq g st reason quiet s) := by
  unfold Machine.finishOne
  dsimp only
  split
  · exact hs
  · exact .whenNot hs fun hs => .whenNot
      (.modRun (.endWaits
      (.endWaits (.when (.when (.when hs fun hs => .sealRefuse hs) fun hs => .putJournal hs) fun hs =>
      .noteAbort hs)))) fun hs => .surveyPush hs

theorem Ends.skipCheck {p seq} (hs : Ends s₀ s) : Ends s₀ (Machine.skipCheck p seq s) := by
  unfold Machine.skipCheck
  dsimp only
  split
  · exact hs
  · exact .foldl hs fun _ _ hs => .finishOne (.modRun hs)

theorem Ends.finishGroup {p seq g st reason quiet} (hs : Ends s₀ s) :
    Ends s₀ (Machine.finishGroup p seq g st reason quiet s) := by
  unfold Machine.finishGroup
  split
  · exact hs
  · exact .whenNot hs fun hs => .tryEndUpdate (.skipCheck (.finishOne hs))

theorem Ends.updPeerLost {p m} (hs : Ends s₀ s) : Ends s₀ (Machine.updPeerLost p m s) :=
  .foldl hs fun _ _ hs => .when (.foldl hs fun _ _ hs => by
    split
    · exact hs
    · exact .whenNot hs fun hs => by
        split
        · exact .finishGroup hs
        · exact .ite (.finishGroup hs) (.when hs fun hs => .endWaits (.modRun hs))
        · exact hs) fun hs => .tryEndUpdate (.modItem hs)

theorem Ends.collUndef {p i o} (hs : Ends s₀ s) : Ends s₀ (Machine.collUndef p i o s) :=
  .foldl hs fun _ _ hs => .pvUndef hs

theorem Ends.collFail {p seq st addr ev tell} (hs : Ends s₀ s) :
    Ends s₀ (Machine.collFail p seq st addr ev tell s) := by
  unfold Machine.collFail
  dsimp only
  split
  · exact hs
  · split
    · exact .endItem (.modParcel (.endWaits (.when (.when hs fun hs => .collUndef hs) fun hs => .sendAll hs)))
    · exact .endItem hs

theorem Ends.collPeerLost {p m ev} (hs : Ends s₀ s) : Ends s₀ (Machine.collPeerLost p m ev s) :=
  .foldl hs fun _ _ hs => .when hs fun hs => .collFail hs

theorem Ends.linkPeerLost {p m ev} (hs : Ends s₀ s) : Ends s₀ (Machine.linkPeerLost p m ev s) :=
  .foldl hs fun _ _ hs => by
    dsimp only
    split
    · exact hs
    · exact .failOn hs

theorem Ends.sealAnswer {p st} (hs : Ends s₀ s) : Ends s₀ (Machine.sealAnswer p st s) :=
  .foldl (.other (.modParcel hs)) fun _ _ hs => .reply hs

theorem Ends.endSpdm {e} (hs : Ends s₀ s) : Ends s₀ (Machine.endSpdm e s) := .other hs

theorem Ends.updSecurity {p i ev} (hs : Ends s₀ s) : Ends s₀ (Machine.updSecurity p i ev s) := by
  unfold Machine.updSecurity
  dsimp only
  split
  · exact .when (.foldl (.modItem hs) fun _ _ hs => by
      split
      · exact hs
      · exact .ite (.finishGroup (.modRun (.pass2Torn (.draw hs)))) (.when hs fun hs => .finishGroup (.modRun hs)))
          fun hs => .updateSecurity hs
  · exact .foldl (.modItem hs) fun _ _ hs => by
      split
      · exact hs
      · exact .ite (.finishGroup (.modRun (.pass2Torn (.draw hs)))) (.when hs fun hs => .finishGroup (.modRun hs))

theorem Ends.itemSecurity {p ev i} (hs : Ends s₀ s) : Ends s₀ (Machine.itemSecurity p ev i s) := by
  unfold Machine.itemSecurity
  split
  · exact .failItem hs
  · exact .failItem hs
  · exact .updSecurity hs
  · exact .collFail hs

theorem Ends.setTdisp {vf x} (hs : Ends s₀ s) : Ends s₀ (Machine.setTdisp vf x s) := .other hs

theorem Ends.leaveRun {vf x} (hs : Ends s₀ s) : Ends s₀ (Machine.leaveRun vf x s) :=
  .whenNot (.setTdisp hs) fun hs => by
    dsimp only
    split
    · exact .recordM hs
    · exact .whenNot (.recordP (.modTen hs)) fun hs => .when
        (.endSpdm (.modTen (.foldl hs fun _ _ hs => .itemSecurity hs))) fun hs => .sealAnswer hs

theorem Ends.lineItem {p a ev i} (hs : Ends s₀ s) : Ends s₀ (Machine.lineItem p a ev i s) := by
  unfold Machine.lineItem
  dsimp only
  split
  · exact .when (.when hs fun hs => .lostAccess hs) fun hs => .failItem hs
  · exact .when (.when hs fun hs => .lostAccess hs) fun hs => .failItem hs
  · exact .when (.when hs fun hs => .lostAccess hs) fun hs => .collFail hs
  · exact .foldl (.when hs fun hs => .lostAccess hs) fun _ _ hs => by
      split
      · exact hs
      · exact .whenNot hs fun hs => .finishGroup (.modRun (.when hs fun hs => .pass2Torn (.draw hs)))

theorem Ends.dropItem {p i} (hs : Ends s₀ s) : Ends s₀ (Machine.dropItem p i s) := by
  unfold Machine.dropItem
  dsimp only
  split
  · exact .foldl hs fun _ _ hs => by
      split
      · exact hs
      · exact .whenNot (.when hs fun hs => .pass2Torn (.draw hs)) fun hs => .modGroup hs
  · split
    · exact .when hs fun hs => .collUndef hs
    · exact hs
  · exact hs


end Sys2Proof.Machine
end

section
/-! SUPPORT. Events of the federation (14 R517 to R521). -/

namespace Sys2Proof.Machine

/-- R520, R521: what the loss of a member does to the work of the parcels. -/
def peerFails (m : Nat) (w : Wait) (ev : Nat) (s : State) : State :=
  (liveParcels s).foldl (fun s p =>
    let e := if p == w.parcel then ev else 0
    updPeerLost p m (collPeerLost p m e (linkPeerLost p m e s))) s

theorem peerFails_ends (m : Nat) (w : Wait) (ev : Nat) (s : State) : Ends s (peerFails m w ev s) :=
  .foldl (.refl s) fun _ _ hs => .updPeerLost (.collPeerLost (.linkPeerLost hs))

/-- R521: a member joins those that are lost. -/
def memberLost (m : Nat) (s : State) : State :=
  { s with fed := { s.fed with lostMembers := if s.fed.lostMembers.contains m then s.fed.lostMembers else s.fed.lostMembers ++ [m] } }

theorem memberLost_lost (m : Nat) (s : State) : m ∈ (memberLost m s).fed.lostMembers := by
  unfold memberLost
  dsimp only
  split
  next listed => exact List.contains_iff_mem.mp listed
  · exact List.mem_append_right _ (List.mem_singleton.mpr rfl)

theorem peerLost_runs {m ch : Nat} {w : Wait} {s : State}
    (over_ : s.fed.waits.find? (fun w => w.member == m && w.channel == ch && waitOver s w) = some w) :
    ∃ u, Ends (memberLost m s) u ∧
      exec (.peerLost m ch) s = .next (refresh { u with fed := { u.fed with waits := u.fed.waits.filter (fun x => x.member != m) } }) := by
  let t := ((s.parcel w.parcel).chan ch).tenancy
  let b := pay [(m, 2), (ch, 1)]
  let y := recordP evPeerLost w.parcel t 0xFFFFFFFF 3 b b (memberLost m s)
  refine ⟨peerFails m w (tenTail y w.parcel t) y, .trans (.recordP (.refl _)) (peerFails_ends ..), ?_⟩
  change execPeerLost m ch s = _
  unfold execPeerLost
  rw [over_]
  rfl

theorem turnIn_eqs {s y : State} {kind : Change → Bool} (turn : turnIn s kind = some y) :
    y.fed = s.fed ∧ y.time = s.time ∧ y.parcels = s.parcels := by
  unfold turnIn at turn
  split at turn
  · obtain ⟨k, -, rfl⟩ := Option.map_eq_some_iff.mp turn
    exact ⟨rfl, rfl, rfl⟩
  · split at turn
    · cases turn
      exact ⟨rfl, rfl, rfl⟩
    · cases turn

end Sys2Proof.Machine

open Sys2Proof Sys2Proof.Machine

/-- Settles O58: what a lost member leaves is said by `Ends`, the rest by the events' conditions. -/
theorem federationEventsComplete : Obligations.FederationEventsComplete := by
  refine ⟨fun m ch w s over_ => ?_, fun o s on aligned other same bad => ?_, fun s on off other good => ?_,
    fun tk k n s y forming up quiet long astray turn isNext later fits => ?_⟩
  · obtain ⟨u, ends, runs⟩ := peerLost_runs over_
    refine ⟨_, runs, ?_, fun w listed => ?_⟩
    · rw [(refresh_records _).fed]
      change m ∈ u.fed.lostMembers
      rw [ends.fed]
      exact memberLost_lost m s
    · rw [(refresh_records _).fed] at listed
      simpa using (List.mem_filter.mp listed).2
  · have lost : (s.fed.federated && s.fed.aligned && s.fed.member != s.fed.datum && o == s.fed.offset &&
        (decide (100 ≤ s.fed.noTick) || decide (8 ≤ s.fed.outFrames))) = true := by
      simp only [on, aligned, bne_iff_ne.mpr other, beq_iff_eq.mpr same, Bool.true_and, Bool.or_eq_true, decide_eq_true_eq]
      exact bad
    have runs : exec (.tickLost o) s = fin (recordM evTickLost 8 (pay [((o % 2 ^ 32).toNat, 4), (s.fed.noTick, 4)])
        { s with fed := { s.fed with aligned := false, inFrames := 0 } }) := by
      change execTickLost o s = _
      unfold execTickLost
      dsimp only
      rw [lost]
      rfl
    refine ⟨_, runs, ?_⟩
    rw [(refresh_records _).fed, refresh_parcels, (refresh_records _).time, (recordM_logs _ _ _ _).records.fed,
      recordM_parcels, (recordM_logs _ _ _ _).records.time]
    exact ⟨rfl, rfl, rfl⟩
  · have back : (s.fed.federated && !s.fed.aligned && s.fed.member != s.fed.datum && decide (8 ≤ s.fed.inFrames)) = true := by
      simp only [on, off, bne_iff_ne.mpr other, decide_eq_true good, Bool.not_false, Bool.and_self]
    change execAlignedRestore s = _
    unfold execAlignedRestore
    dsimp only
    rw [back]
    rfl
  · obtain ⟨fed, time, parcels⟩ := turnIn_eqs turn
    have busy : periodBusy y s.fed.tickPeriod = false := by
      rw [← fits]
      unfold periodBusy liveParcels State.parcel
      rw [parcels]
    have open_ : (s.fed.upstream == 0xFF || !s.fed.quiet || !s.fed.lengthened || s.fed.astray ||
        n != (if s.fed.tickSeen then s.fed.tickPostmark else s.fed.tickPostmark + 1 + s.fed.noTick)) = false := by
      simp only [beq_eq_false_iff_ne.mpr up, quiet, long, astray, bne_eq_false_iff_eq.mpr isNext, Bool.not_true, Bool.or_self]
    change execFedJoin n s = _
    unfold execFedJoin
    dsimp only
    rw [forming, turn]
    dsimp only
    have jumped : (jumpTo n y).time = { s.time with postmark := n } := by rw [jumpTo, time]
    rw [open_, if_neg Bool.false_ne_true, time, busy, Bool.or_false, decide_eq_false (Nat.not_lt.mpr later), if_neg Bool.false_ne_true,
      jumped]
    rfl
end

section
/-! SUPPORT. Cores that are fenced, and what the loss of a die leaves (15 R540 to R549). -/

namespace Sys2Proof.Machine

open Sys2Proof.Claims

theorem Ends.cmeta {s t : State} (h : Ends s t) (k : Nat) : t.cmeta k = s.cmeta k := by
  unfold State.cmeta fuseState
  rw [h.metas, h.fuse]

theorem Ends.coreUp {s t : State} (h : Ends s t) (k : Nat) : coreUp t k = coreUp s k := by
  unfold Machine.coreUp
  rw [h.cmeta]

/-- Work ends, and the cores of a list alone are fenced, now and for a cause. -/
structure Fences (ks : List Nat) (cause : Nat) (s t : State) : Prop where
  time : t.time = s.time
  lost : ∀ d, (t.die d).lost = (s.die d).lost
  reach : ∀ k, (t.stack k).unreachable = (s.stack k).unreachable
  rest : ∀ k, k ∉ ks → t.cmeta k = s.cmeta k
  fenced : ∀ k ∈ ks, (t.cmeta k).state = .fenced ∧ (t.cmeta k).cause = cause ∧ (t.cmeta k).fencedAt = s.time.postmark

theorem Ends.fences {s t : State} (h : Ends s t) (cause : Nat) : Fences [] cause s t :=
  ⟨h.time, h.lost, h.reach, fun k _ => h.cmeta k, nofun⟩

theorem Fences.trans {a b : List Nat} {cause : Nat} {s t u : State} (x : Fences a cause s t) (y : Fences b cause t u) :
    Fences (a ++ b) cause s u := by
  refine ⟨y.time.trans x.time, fun d => (y.lost d).trans (x.lost d), fun k => (y.reach k).trans (x.reach k), fun k out => ?_,
    fun k listed => ?_⟩
  · rw [List.mem_append, not_or] at out
    exact (y.rest k out.2).trans (x.rest k out.1)
  · by_cases late : k ∈ b
    · rw [← x.time]
      exact y.fenced k late
    · rw [y.rest k late]
      exact x.fenced k ((List.mem_append.mp listed).resolve_right late)

theorem Fences.ends {ks : List Nat} {cause : Nat} {s t u : State} (x : Fences ks cause s t) (y : Ends t u) : Fences ks cause s u := by
  simpa using x.trans (y.fences cause)

theorem Fences.after {ks : List Nat} {cause : Nat} {s t u : State} (x : Ends s t) (y : Fences ks cause t u) : Fences ks cause s u := by
  simpa using (x.fences cause).trans y

theorem fenceCore_fences (cause k : Nat) (s : State) : Fences [k] cause s (fenceCore cause k s) := by
  have marked : Fences [k] cause s { s.setCmeta k ⟨.fenced, s.time.postmark, cause, decide (cause ≤ 4), (s.cmeta k).replaces⟩ with
      store := { s.store with fenceRec := if s.store.fenceRec.contains k then s.store.fenceRec else s.store.fenceRec ++ [k] } } := by
    refine ⟨rfl, fun _ => rfl, fun _ => rfl, fun j out => ?_, fun j listed => ?_⟩
    · exact State.setCmeta_cmeta_other _ _ _ _ (by simpa using out)
    · obtain rfl := List.mem_singleton.mp listed
      have now := State.setCmeta_cmeta_same s j ⟨.fenced, s.time.postmark, cause, decide (cause ≤ 4), (s.cmeta j).replaces⟩
      exact ⟨congrArg CoreMeta.state now, congrArg CoreMeta.cause now, congrArg CoreMeta.fencedAt now⟩
  unfold fenceCore
  dsimp only
  split
  · exact marked
  · exact marked.ends (.stopCore (.refl _))

theorem fenceCores_fences (cause : Nat) (ks : List Nat) (s : State) :
    Fences ks cause s (ks.foldl (fun s k => fenceCore cause k s) s) := by
  induction ks generalizing s with
  | nil => exact (Ends.refl s).fences cause
  | cons k r ih => exact (fenceCore_fences cause k s).trans (ih _)

theorem fenceInParcel_fences (p : Nat) (ks : List Nat) (scope : Nat) (fl : CoreFault) (s : State) :
    Fences ks fl.cause s (fenceInParcel p ks scope fl s) :=
  .after (.failItems (.fenceEvent (.refl s))) (fenceCores_fences ..)

theorem fenceParcels_fences (mine : Nat → List Nat) (scope : Nat) (fl : CoreFault) (ps : List Nat) (s : State) :
    Fences (ps.flatMap mine) fl.cause s (ps.foldl (fun s p => fenceInParcel p (mine p) scope fl s) s) := by
  induction ps generalizing s with
  | nil => exact (Ends.refl s).fences _
  | cons p r ih => exact (fenceInParcel_fences p (mine p) scope fl s).trans (ih _)

theorem Fences.congr {a b : List Nat} {cause : Nat} {s t : State} (x : Fences a cause s t) (same : ∀ k, k ∈ b ↔ k ∈ a) :
    Fences b cause s t :=
  ⟨x.time, x.lost, x.reach, fun k out => x.rest k fun listed => out ((same k).mpr listed),
    fun k listed => x.fenced k ((same k).mp listed)⟩

/-- R541, R542: the cores of a die are fenced, in their parcels and beside them. -/
theorem fenceDie_fences (ks : List Nat) (s : State) : Fences ks 6 s (fenceDie ks s) := by
  have parts (k : Nat) : k ∈ ks ↔ k ∈ ((liveParcels s).filter (fun p => !(ks.filter (fun k => (s.parcel p).coreMap.contains k)).isEmpty)).flatMap
      (fun p => ks.filter (fun k => (s.parcel p).coreMap.contains k)) ++ ks.filter (fun k => (parcelOfCore s k).isNone) := by
    constructor
    · intro listed
      cases owner : parcelOfCore s k with
      | none => exact List.mem_append_right _ (List.mem_filter.mpr ⟨listed, by rw [owner]; rfl⟩)
      | some p =>
        have live := List.mem_of_find?_eq_some owner
        have own : (s.parcel p).coreMap.contains k = true :=
          List.find?_some (p := fun p => (s.parcel p).coreMap.contains k) owner
        have here : k ∈ ks.filter (fun k => (s.parcel p).coreMap.contains k) := List.mem_filter.mpr ⟨listed, own⟩
        refine List.mem_append_left _ (List.mem_flatMap.mpr ⟨p, List.mem_filter.mpr ⟨live, ?_⟩, here⟩)
        rw [Bool.not_eq_true', List.isEmpty_eq_false_iff]
        exact List.ne_nil_of_mem here
    · intro listed
      rcases List.mem_append.mp listed with inside | loose
      · obtain ⟨p, -, here⟩ := List.mem_flatMap.mp inside
        exact (List.mem_filter.mp here).1
      · exact (List.mem_filter.mp loose).1
  unfold fenceDie
  extract_lets mine loose ps u
  have inside : Fences (ps.flatMap mine) 6 s u := fenceParcels_fences mine 2 { cause := 6 } ps s
  split
  next none_ =>
    have same : ps.flatMap mine ++ loose = ps.flatMap mine := by rw [List.isEmpty_iff.mp none_, List.append_nil]
    exact inside.congr fun k => same ▸ parts k
  · exact (inside.trans (.after (.fenceEvent (.refl u)) (fenceCores_fences 6 loose _))).congr parts

theorem fenceQuad_fences (q : Nat) (ks : List Nat) (s : State) : Fences ks 5 s (fenceQuad q ks s) := by
  unfold fenceQuad
  extract_lets low ps all n ev u
  have ends : Ends s u := by
    unfold u
    clear_value all
    cases all with
    | nil => exact .fenceEvent (.refl s)
    | cons x rest => exact .foldl (.failItems (.fenceEvent (.refl s))) fun _ _ hs => .foldl hs fun _ _ hs => .failItem hs
  exact .after ends (fenceCores_fences 5 ks u)

theorem Ends.lineItems {p a : Nat} {tails : List Nat} {s₀ s : State} (hs : Ends s₀ s) : Ends s₀ (Machine.lineItems p a tails s) :=
  .foldl hs fun _ _ hs => .lineItem hs

/-- R251, R549: the lines and granules of a die are lost. -/
def dieDark (d : Nat) (s : State) : State :=
  let gone := (dirtyOn s d).filter (fun g => !s.hbm.lostExtra.contains g)
  let s := { s with hbm := { s.hbm with lostExtra := gone ++ s.hbm.lostExtra } }
  s.setDie d { s.die d with lost := true, granules := [], store := {} }

/-- R320, R549: a die that is lost, with its stacks. -/
def dieGone (d : Nat) (s : State) : State :=
  (stacksOf d).foldl (fun (s : State) k => s.setStack k { s.stack k with unreachable := true }) (dieDark d s)

theorem setUnreachable (l : List Nat) (s : State) :
    let t := l.foldl (fun (s : State) k => s.setStack k { s.stack k with unreachable := true }) s
    t.time = s.time ∧ t.metas = s.metas ∧ t.store = s.store ∧ t.dies = s.dies ∧
      ∀ k, (t.stack k).unreachable = (decide (k ∈ l) || (s.stack k).unreachable) := by
  induction l generalizing s with
  | nil => exact ⟨rfl, rfl, rfl, rfl, fun k => by simp⟩
  | cons j r ih =>
    obtain ⟨time, metas, store, dies, stack⟩ := ih (s.setStack j { s.stack j with unreachable := true })
    refine ⟨time, metas, store, dies, fun k => ?_⟩
    rw [List.foldl_cons, stack k]
    by_cases own : k = j
    · rw [own, State.setStack_stack_same]
      simp
    · rw [State.setStack_stack_other _ _ _ _ own]
      simp [own]

theorem dieGone_eqs (d : Nat) (s : State) : (dieGone d s).time = s.time ∧ (∀ k, (dieGone d s).cmeta k = s.cmeta k) ∧
    ((dieGone d s).die d).lost = true ∧ ∀ k ∈ stacksOf d, ((dieGone d s).stack k).unreachable = true := by
  obtain ⟨time, metas, store, dies, stack⟩ := setUnreachable (stacksOf d) (dieDark d s)
  have metas' : (dieGone d s).metas = s.metas := metas
  have store' : (dieGone d s).store = s.store := store
  have dies' : (dieGone d s).dies = (dieDark d s).dies := dies
  have dark : ((dieDark d s).die d).lost = true := congrArg Die.lost (State.setDie_die_same ..)
  refine ⟨time, fun k => ?_, ?_, fun k listed => (stack k).trans ?_⟩
  · unfold State.cmeta fuseState
    rw [metas', store']
  · rw [State.die, dies']
    exact dark
  · rw [decide_eq_true listed, Bool.true_or]

/-- R549: the cores of a die that are up. -/
def upOn (d : Nat) (s : State) : List Nat := ((List.range 28).map (28 * d + ·)).filter (coreUp s)

theorem mem_upOn {d k : Nat} {s : State} : k ∈ upOn d s ↔ (28 * d ≤ k ∧ k < 28 * d + 28) ∧ coreUp s k = true := by
  rw [upOn, List.mem_filter, List.mem_map]
  refine and_congr_left fun _ => ⟨?_, fun ⟨low, high⟩ => ⟨k - 28 * d, List.mem_range.mpr (by omega), by omega⟩⟩
  rintro ⟨i, small, rfl⟩
  have := List.mem_range.mp small
  omega

theorem upOn_dieGone (d : Nat) (s : State) : upOn d (dieGone d s) = upOn d s := by
  have up : coreUp (dieGone d s) = coreUp s := by
    funext k
    rw [coreUp, (dieGone_eqs d s).2.1 k, coreUp]
  rw [upOn, up, upOn]

/-- R542: the cores that are up are fenced. -/
def coresGone (d : Nat) (s : State) : State := if (upOn d s).isEmpty then s else fenceDie (upOn d s) s

theorem coresGone_fences (d : Nat) (s : State) : Fences (upOn d s) 6 s (coresGone d s) := by
  unfold coresGone
  split
  next none_ =>
    rw [List.isEmpty_iff.mp none_]
    exact (Ends.refl s).fences 6
  · exact fenceDie_fences _ s

theorem loseDie_ends {d : Nat} {s : State} (here : (s.die d).lost = false) : Ends (coresGone d (dieGone d s)) (loseDie d s) := by
  unfold loseDie
  rw [if_neg (by rw [here]; exact Bool.false_ne_true)]
  exact .foldl (.refl (coresGone d (dieGone d s))) fun _ _ hs => .lineItems hs

/-- R542, R549: what the loss of a die leaves of its cores and stacks. -/
theorem loseDie_fences {d : Nat} {s : State} (here : (s.die d).lost = false) :
    Fences (upOn d s) 6 (dieGone d s) (loseDie d s) := by
  have fences := (coresGone_fences d (dieGone d s)).ends (loseDie_ends here)
  rwa [upOn_dieGone] at fences

end Sys2Proof.Machine
end

section
/-! SUPPORT. Failures of parts of the package (15 R540 to R549). -/

namespace Sys2Proof.Machine

open Sys2Proof.Claims

theorem edgeVictim_eq {a b : Nat} (lowA : a < 8) (lowB : b < 8) (edge : (a / 4 = b / 4 ∧ (a + 1 = b ∨ b + 1 = a)) ∨ (a + 4 = b ∨ b + 4 = a)) :
    edgeVictim a b = some (max a b) := by
  unfold edgeVictim
  dsimp only
  have inside : ¬ 8 ≤ max a b := by omega
  rw [if_neg inside]
  rcases edge with ⟨row, next⟩ | column
  · have here : (min a b / 4 == max a b / 4 && min a b + 1 == max a b) = true := by
      rw [Bool.and_eq_true, beq_iff_eq, beq_iff_eq]
      omega
    rw [here]
    rfl
  · have other : (min a b / 4 == max a b / 4 && min a b + 1 == max a b) = false := by
      rw [Bool.and_eq_false_iff, beq_eq_false_iff_ne, beq_eq_false_iff_ne]
      omega
    have here : (min a b % 4 == max a b % 4 && min a b + 4 == max a b) = true := by
      rw [Bool.and_eq_true, beq_iff_eq, beq_iff_eq]
      omega
    rw [other, here]
    rfl

/-- R540: a slot's command whose bundle cannot be read. -/
theorem slotCmd_bad {e : CoreEnv} {op : Option SlotOp} {x : CoreFault} {s : State} (issues : issuing (struck e s) = true)
    (bad : bundleBad (struck e s) (s.core e.core).seq.nextIdx = some x) :
    slotCmd e op s = .next (coreFault e.core x (slotStart e s)) := by
  have quiet : reviveSlot e.core s = none := reviveSlot_issuing (issuing_struck e s ▸ issues)
  unfold slotCmd slotRow
  rw [quiet]
  unfold slotRun
  simp only [strikeCore_core, issues, struck_seq, bad, Bool.not_true, Bool.false_eq_true, if_false]
  rfl

theorem quadMembers_fenced {s : State} {q k : Nat} (within : k < 4) (sound : (s.cmeta (4 * q + k)).state ≠ .bad) :
    ((fenceQuad q (quadMembers s q) s).cmeta (4 * q + k)).state = .fenced := by
  have fences := fenceQuad_fences q (quadMembers s q) s
  by_cases member : 4 * q + k ∈ quadMembers s q
  · exact (fences.fenced _ member).1
  · rw [fences.rest _ member]
    by_contra other
    refine member (List.mem_filter.mpr ⟨List.mem_map.mpr ⟨k, List.mem_range.mpr within, rfl⟩, ?_⟩)
    rw [Bool.and_eq_true, bne_iff_ne, bne_iff_ne]
    exact ⟨other, sound⟩

end Sys2Proof.Machine

open Sys2Proof Sys2Proof.Machine Sys2Proof.Claims

/-- Settles O55: each failure by its command, and what it leaves by `Fences`. -/
theorem partFailuresComplete : Obligations.PartFailuresComplete := by
  refine ⟨fun s good => ⟨fun q small some_ => ⟨?_, fun k within _ sound => quadMembers_fenced within sound⟩, fun d small => ?_, ?_,
    fun a b lowA lowB edge => ?_, fun row small => ?_⟩, fun d s small here => ?_, fun e x s issues bad cmd isNop => ?_⟩
  · have open_ : (!s.power.good || decide (56 ≤ q) || (quadMembers s q).isEmpty) = false := by
      simp [good, Nat.not_le.mpr small, some_]
    change execQuadPortFail q s = _
    unfold execQuadPortFail
    dsimp only
    rw [open_]
    rfl
  · have open_ : (!s.power.good || decide (9 ≤ d)) = false := by
      simp [good]
      omega
    have compute : (d == 8) = false := beq_eq_false_iff_ne.mpr (by omega)
    change execDieLost d s = _
    unfold execDieLost
    rw [open_, compute]
    rfl
  · change execDieLost 8 s = _
    unfold execDieLost
    rw [good]
    rfl
  · change execEdgeFail a b s = _
    unfold execEdgeFail
    rw [edgeVictim_eq lowA lowB edge]
    dsimp only
    rw [good]
    rfl
  · have open_ : (!s.power.good || decide (2 ≤ row)) = false := by simp [good, small]
    change execHubLinkLost row s = _
    unfold execHubLinkLost
    rw [open_]
    rfl
  · intro t
    obtain ⟨time, cmeta, lost, stack⟩ := dieGone_eqs d s
    have fences : Fences (upOn d s) 6 (dieGone d s) t := loseDie_fences here
    refine ⟨(fences.lost d).trans lost, fun k listed => (fences.reach k).trans (stack k listed), fun k low high up => ?_,
      fun k other => ?_⟩
    · rw [← time]
      exact fences.fenced k (mem_upOn.mpr ⟨⟨low, high⟩, up⟩)
    · rw [fences.rest k fun listed => ?_, cmeta k]
      obtain ⟨⟨low, high⟩, up⟩ := mem_upOn.mp listed
      rcases other with down | below | above
      · rw [up] at down
        cases down
      · omega
      · omega
  · rcases isNop with rfl | rfl | rfl <;> exact slotCmd_bad issues bad
end

section
/-! SUPPORT. What resets leave (16 R495, R496, R566 to R569). -/

namespace Sys2Proof.Machine

/-! R569: the cores stop. -/

theorem haltCore_idle (k : Nat) (s : State) : ((haltCore k s).core k).Idle := by
  unfold haltCore
  dsimp only
  split
  · rw [State.setCore_core_same]
    exact ⟨rfl, rfl, rfl⟩
  · rw [State.setCore_core_same]
    exact ⟨rfl, rfl, rfl⟩

theorem stopCore_idle (k : Nat) (s : State) : ((stopCore k s).core k).Idle := by
  unfold stopCore
  dsimp only
  split <;> exact haltCore_idle ..

theorem stopCores_idle (l : List Nat) (s : State) (k : Nat) (listed : k ∈ l) :
    ((l.foldl (fun s k => stopCore k s) s).core k).Idle := by
  induction l generalizing s with
  | nil => cases listed
  | cons j r ih =>
    rw [List.foldl_cons]
    by_cases later_ : k ∈ r
    · exact ih _ later_
    · obtain rfl := (List.mem_cons.mp listed).resolve_right later_
      have rest : Ends (stopCore k s) (r.foldl (fun s k => stopCore k s) (stopCore k s)) := .foldl (.refl _) fun _ _ hs => .stopCore hs
      exact rest.idle k (stopCore_idle k s)

theorem stopAll_ends (s : State) : Ends s (stopAll s) := .foldl (.refl s) fun _ _ hs => .stopCore hs

theorem stopAll_idle (s : State) (k : Nat) : ((stopAll s).core k).Idle := by
  by_cases listed : k ∈ s.cores.map (·.1)
  · exact stopCores_idle _ s k listed
  · have none_ : tblGet s.cores k = none := by
      unfold tblGet
      rw [List.find?_eq_none.mpr fun e here => ?_]
      · rfl
      · intro same
        exact listed (List.mem_map.mpr ⟨e, here, by simpa using same⟩)
    refine (stopAll_ends s).idle k ?_
    rw [State.core, none_]
    exact ⟨rfl, rfl, rfl⟩

/-! R569: the parcels are without items. -/

theorem dropParcelWork_ends (p : Nat) (s : State) : Ends s (dropParcelWork p s) := by
  unfold dropParcelWork
  dsimp only
  refine .foldl (.modParcel (.flushParcel (.foldl (.refl s) fun _ _ hs => .dropItem hs)) fun _ => ⟨rfl, fun _ => rfl⟩) fun u d hs => ?_
  split
  · exact .modTen hs
  · exact hs

theorem dropParcelWork_items (p : Nat) (s : State) : ((dropParcelWork p s).parcel p).items = [] := by
  unfold dropParcelWork
  extract_lets s1 s2 s3
  have empty : (s3.parcel p).items = [] := congrArg Parcel.items (State.setParcel_parcel_same ..)
  clear_value s3
  have rest : Ends s3 ((s3.delayed.filter (fun d => d.1 == p)).foldl (fun s d =>
      match d.2.2 with
      | .entry t cpl bs failed => s.modTen p t (fun x =>
          if cpl then { x with cplQ := x.cplQ ++ [(bs, failed)] } else { x with dlrQ := x.dlrQ ++ [bs] })
      | _ => s) s3) := by
    refine .foldl (.refl s3) fun u d hs => ?_
    split
    · exact .modTen hs
    · exact hs
  exact (rest.parcel p).2 empty

theorem dropWorks_items (l : List Nat) (s : State) {p : Nat} (listed : p ∈ l) :
    ((l.foldl (fun s p => dropParcelWork p s) s).parcel p).items = [] := by
  induction l generalizing s with
  | nil => cases listed
  | cons q r ih =>
    rw [List.foldl_cons]
    by_cases later_ : p ∈ r
    · exact ih _ later_
    · obtain rfl := (List.mem_cons.mp listed).resolve_right later_
      have rest : Ends (dropParcelWork p s) (r.foldl (fun s p => dropParcelWork p s) (dropParcelWork p s)) :=
        .foldl (.refl _) fun u q hs => hs.trans (dropParcelWork_ends q u)
      exact (rest.parcel p).2 (dropParcelWork_items p s)

/-! R568: the sessions are over. -/

theorem tblGet_map_getD {α β : Type} (t : Tbl α) (f : α → β) (k : Nat) (a : α) :
    (tblGet (t.map (fun c => (c.1, f c.2))) k).getD (f a) = f ((tblGet t k).getD a) := by
  rw [tblGet_map]
  cases tblGet t k <;> rfl

theorem dropSessions_parcel (s : State) (p : Nat) : (s.parcel p).Drains ((dropSessions s).parcel p) := by
  have same := tblGet_map_getD s.parcels (fun x : Parcel => { x with
    sealPending := false, tenancies := x.tenancies.map (fun (t : Nat × Tenancy) => (t.1, { t.2 with held := [], seals := [] })) }) p {}
  have here : (dropSessions s).parcel p = { s.parcel p with
      sealPending := false, tenancies := (s.parcel p).tenancies.map (fun t => (t.1, { t.2 with held := [], seals := [] })) } := same
  rw [here]
  exact ⟨rfl, id⟩

theorem dropSessions_session (s : State) (n : Nat) : ((dropSessions s).block n).session = none := by
  have same := tblGet_map_getD s.blocks (fun x : MBlock => { x with session := none, itemRings := false }) n {}
  have here : (dropSessions s).block n = { s.block n with session := none, itemRings := false } := same
  rw [here]

theorem dropVfs_ends (s : State) : Ends s (dropVfs s) := by
  unfold dropVfs
  have first : Ends s (((List.range 64).filter (fun n => n != 0 && tdispOf s n == .run)).foldl (fun s n => leaveRun n .unlocked s)
      { s with pcie := { s.pcie with msix := [] } }) := .foldl (.other (.refl s)) fun _ _ hs => .leaveRun hs
  refine .foldl first fun u n hs => ?_
  split
  · exact .modTen hs
  · exact hs

/-- R569: the state of a module whose work has stopped, before its sessions end. -/
def worksDropped (s : State) : State := (liveParcels (stopAll s)).foldl (fun s p => dropParcelWork p s) (stopAll s)

theorem stopAll_live (s : State) : liveParcels (stopAll s) = liveParcels s := by
  unfold liveParcels
  refine List.filter_congr fun p _ => ?_
  rw [((stopAll_ends s).parcel p).1]

theorem worksDropped_ends (s : State) : Ends s (worksDropped s) :=
  .foldl (stopAll_ends s) fun u p hs => hs.trans (dropParcelWork_ends p u)

theorem worksDropped_idle (s : State) (k : Nat) : ((worksDropped s).core k).Idle := by
  have rest : Ends (stopAll s) (worksDropped s) := .foldl (.refl _) fun u p hs => hs.trans (dropParcelWork_ends p u)
  exact rest.idle k (stopAll_idle s k)

/-- R568, R569: the state of a module whose work has stopped and whose sessions are over. -/
def workStopped (s : State) : State := dropVfs (dropSessions (worksDropped s))

theorem workStopped_eqs (s : State) : (workStopped s).power = s.power ∧ (workStopped s).time = s.time ∧
    (∀ k, ((workStopped s).core k).Idle) ∧ (∀ p ∈ liveParcels s, ((workStopped s).parcel p).items = []) ∧
    (∀ n, ((workStopped s).block n).session = none) ∧ (workStopped s).bmcSession = none := by
  have dropped := worksDropped_ends s
  have left := dropVfs_ends (dropSessions (worksDropped s))
  refine ⟨left.power.trans dropped.power, left.time.trans dropped.time, fun k => left.idle k (worksDropped_idle s k),
    fun p live => (left.parcel p).2 ((dropSessions_parcel _ p).2 (dropWorks_items _ _ (stopAll_live s ▸ live))),
    fun n => (left.session.kept n).trans (dropSessions_session _ n), left.bmc⟩

/-- R569: what a warm reset sets when the work has stopped. -/
def warmSet (perst : Bool) (s : State) : State :=
  pcieReset perst <| setAlert { s with
    delayed := []
    power := { s.power with
      ready := false, stopped := false, bootWarm := true, selfRefresh := true, bootStage := 0, waitBoot := false
      holdOn := false, holdCause := 0, holdDue := 0, drainOn := false } }

/-- R579: nothing but the state of THERM_ALERT_L. -/
theorem setAlert_alert (s : State) : ∃ a, setAlert s = { s with power := { s.power with alert := a } } := ⟨_, rfl⟩

theorem warmSet_eqs (perst : Bool) (u : State) : let t := warmSet perst u
    (t.power.ready = false ∧ t.power.selfRefresh = true ∧ t.power.bootWarm = true ∧ t.power.holdOn = false ∧ t.power.holdDue = 0 ∧
      t.power.drainOn = false ∧ t.power.good = u.power.good) ∧ (∀ k, t.core k = u.core k) ∧ (∀ p, t.parcel p = u.parcel p) ∧
      (∀ n, t.block n = u.block n) ∧ t.bmcSession = u.bmcSession ∧ t.pcie = { perst := perst } ∧ t.delayed = [] ∧ t.time = u.time := by
  obtain ⟨a, alert⟩ := setAlert_alert { u with
    delayed := []
    power := { u.power with
      ready := false, stopped := false, bootWarm := true, selfRefresh := true, bootStage := 0, waitBoot := false
      holdOn := false, holdCause := 0, holdDue := 0, drainOn := false } }
  unfold warmSet
  rw [alert]
  exact ⟨⟨rfl, rfl, rfl, rfl, rfl, rfl, rfl⟩, fun _ => rfl, fun _ => rfl, fun _ => rfl, rfl, rfl, rfl, rfl⟩

theorem warmBegin_eq {s : State} (notYet : writingBack s = false) (perst : Bool) : warmBegin perst s = warmSet perst (workStopped s) := by
  unfold warmBegin warmSet workStopped worksDropped
  dsimp only
  rw [notYet, if_neg Bool.false_ne_true]

/-- R569: what the begin of a warm reset leaves. -/
theorem warmBegin_eqs {s : State} (notYet : writingBack s = false) (perst : Bool) : let t := warmBegin perst s
    (t.power.ready = false ∧ t.power.selfRefresh = true ∧ t.power.bootWarm = true ∧ t.power.holdOn = false ∧ t.power.holdDue = 0 ∧
      t.power.drainOn = false ∧ t.power.good = s.power.good) ∧ (∀ k, (t.core k).Idle) ∧
      (∀ p ∈ liveParcels s, (t.parcel p).items = []) ∧ (∀ n, (t.block n).session = none) ∧ t.bmcSession = none ∧
      t.pcie = { perst := perst } ∧ t.delayed = [] ∧ t.time = s.time := by
  rw [warmBegin_eq notYet]
  obtain ⟨power, time, cores, items, sessions, bmc⟩ := workStopped_eqs s
  generalize workStopped s = u at power time cores items sessions bmc
  obtain ⟨set, core, parcel, block, bmcNow, pcie, delayed, now⟩ := warmSet_eqs perst u
  dsimp only
  rw [bmcNow, pcie, delayed, now]
  refine ⟨?_, fun k => ?_, fun p live => ?_, fun n => ?_, bmc, rfl, rfl, time⟩
  · rw [← power]
    exact set
  · rw [core]
    exact cores k
  · rw [parcel]
    exact items p live
  · rw [block]
    exact sessions n

theorem RecordsOnly.linkUp {s t : State} (h : RecordsOnly s t) : t.pcie.linkUp = s.pcie.linkUp := by
  unfold RecordsOnly at h
  generalize t.pcie.msixPending = v, t.pcie.statusShown = g, t.blocks = b, t.outputs = o, t.delayed = d, t.pfLog = l, t.bmcLog = m,
    t.parcels = p at h
  rw [h]

/-- R577: what the loss of the clock leaves. -/
theorem clockLost_eqs (s : State) : let t := refresh (internalEvent 0x101 { s with
      power := { s.power with refclk := false }, pcie := { s.pcie with linkUp := false, cfgReady := false } })
    t.power.refclk = false ∧ t.pcie.linkUp = false ∧ t.cores = s.cores ∧ t.parcels = s.parcels ∧ s.pfLog.tail < t.pfLog.tail := by
  intro t
  have records := (recordM_logs evInternal 4 (leBytes 0x101 4) { s with
      power := { s.power with refclk := false }, pcie := { s.pcie with linkUp := false, cfgReady := false } }).records.trans
    (refresh_records (internalEvent 0x101 { s with
      power := { s.power with refclk := false }, pcie := { s.pcie with linkUp := false, cfgReady := false } }))
  have parcels : t.parcels = s.parcels := (refresh_parcels _).trans (recordM_parcels ..)
  have tail : s.pfLog.tail < t.pfLog.tail := by
    have same : t.pfLog = (internalEvent 0x101 { s with
      power := { s.power with refclk := false }, pcie := { s.pcie with linkUp := false, cfgReady := false } }).pfLog := (refresh_signals _).pfLog
    rw [same]
    exact recordM_tail evInternal 4 (leBytes 0x101 4) { s with
      power := { s.power with refclk := false }, pcie := { s.pcie with linkUp := false, cfgReady := false } }
  exact ⟨congrArg Power.refclk records.power, records.linkUp, records.cores, parcels, tail⟩

end Sys2Proof.Machine

open Sys2Proof Sys2Proof.Machine

/-- Settles O29: `powerOff` by its fields, a warm reset by `warmBegin_eqs`. -/
theorem resetsClearTheModule : Obligations.ResetsClearTheModule := by
  refine ⟨fun latch s => ?_, fun perst s notYet => ?_⟩
  · exact ⟨rfl, rfl, rfl, rfl, rfl, rfl, rfl, rfl, rfl, rfl, rfl, rfl, rfl, rfl, rfl, rfl, rfl, rfl, rfl, rfl, rfl, rfl, rfl, rfl, rfl,
      rfl, rfl, rfl, rfl, rfl, rfl, rfl, rfl, rfl⟩
  · obtain ⟨⟨ready, refresh_, warm, hold, due, drain, -⟩, cores, items, sessions, bmc, pcie, delayed, -⟩ := warmBegin_eqs notYet perst
    exact ⟨ready, refresh_, warm, hold, due, drain, cores, items, sessions, bmc, pcie, delayed⟩

/-- Settles O30: each pin by its command, a warm reset by `warmBegin_eqs`. -/
theorem pinsAndResetsComplete : Obligations.PinsAndResetsComplete := by
  intro s warm
  have begins (perst : Bool) (good : s.power.good = true) (notYet : writingBack s = false) : warm perst (warmBegin perst s) := by
    obtain ⟨⟨ready, refresh_, isWarm, -, -, -, same⟩, cores, items, -, -, pcie, -, time⟩ := warmBegin_eqs notYet perst
    exact ⟨ready, refresh_, isWarm, same.trans good, fun k => ⟨(cores k).1, (cores k).2.1⟩, items, pcie, congrArg _ time⟩
  refine ⟨⟨rfl, rfl, rfl, rfl⟩, fun held unlatched volts => ?_, fun stays => ?_, fun good once notYet => ?_, fun good early => ?_,
    fun off => ?_, fun good up notYet => ?_, rfl, ?_, fun good up notReady => ?_, fun clock good => ?_, rfl⟩
  · have starts : (s.power.modResetL && !s.power.latchOff && decide (49000 < s.power.inputMv)) = true := by
      rw [held, unlatched, decide_eq_true volts]
      rfl
    change execModResetLDeassert s = _
    unfold execModResetLDeassert
    dsimp only
    rw [if_pos starts]
  · have stays' : (s.power.modResetL && !s.power.latchOff && decide (49000 < s.power.inputMv)) = false := by
      rcases stays with h | h | h
      · simp [h]
      · simp [h]
      · simp [h]
    change execModResetLDeassert s = _
    unfold execModResetLDeassert
    dsimp only
    rw [stays', if_neg Bool.false_ne_true]
  · refine ⟨_, ?_, rfl, begins true good notYet⟩
    change execPerstAssert s = _
    unfold execPerstAssert
    rw [good, once]
    rfl
  · change execPerstAssert s = _
    unfold execPerstAssert
    rw [good]
    simp only [Bool.not_true, Bool.false_eq_true, if_false]
    by_cases once : s.power.readyOnce = true
    · have already : writingBack s = true := early.resolve_left (by simp [once])
      rw [if_pos once, warmBegin, if_pos already]
      rfl
    · rw [if_neg once]
      rfl
  · change execPerstAssert s = _
    unfold execPerstAssert
    rw [off]
    rfl
  · refine ⟨_, ?_, rfl, begins s.pcie.perst good notYet⟩
    change execHotReset s = _
    unfold execHotReset
    rw [good, up]
    rfl
  · simp only [writingBack, Bool.and_eq_true, beq_iff_eq, and_assoc]
  · change execConfigReady s = _
    unfold execConfigReady
    rw [good, up, notReady]
    rfl
  · have runs : exec .refclkLoss s = .next (refresh (internalEvent 0x101 { s with
        power := { s.power with refclk := false }, pcie := { s.pcie with linkUp := false, cfgReady := false } })) := by
      change execRefclkLoss s = _
      unfold execRefclkLoss
      rw [clock, good]
      rfl
    refine ⟨_, runs, rfl, clockLost_eqs s⟩
end

section
/-! SUPPORT. SPDM requests and vendor-defined requests (12 R430 to R440). -/

namespace Sys2Proof.Machine

/-- R437: a request whose code, version and connection are those of a row is dealt with. -/
theorem spdmRow_takes {code need : Nat} {keyed : Bool} {r : SpdmReq} {f : State → State} {s : State}
    (reach : spdmReach s r.endpoint = true)
    (req : le r.msg 1 1 = code ∧ le r.msg 0 1 = (if code = 0x84 then 0x10 else 0x13) ∧ need ≤ spdmConn s r.endpoint)
    (sound : keyed = false ∨ s.sec.error = false) : spdmRow code need keyed r f s = .next (refresh (f s)) := by
  obtain ⟨isCode, version, far⟩ := req
  have open_ : (!spdmReach s r.endpoint || le r.msg 1 1 != code) = false := by simp [reach, isCode]
  have same : (le r.msg 0 1 != (if code == 0x84 then 0x10 else 0x13)) = false := by
    rw [version]
    simp
  have whole : (keyed && s.sec.error) = false := by
    rcases sound with h | h <;> simp [h]
  unfold spdmRow
  dsimp only
  rw [open_, same, whole, if_neg (Nat.not_lt.mpr far)]
  rfl

/-- R439: a vendor-defined request inside a finished session. -/
theorem vendorRow_takes {code : Nat} {r : SpdmReq} {f : List Byte → State → State} {x : Spdm} {s : State}
    (reach : spdmReach s r.endpoint = true)
    (req : le r.msg 1 1 = 0xFE ∧ le r.msg 0 1 = 0x13 ∧ 3 ≤ spdmConn s r.endpoint)
    (sound : s.sec.error = false) (session : spdmOf s r.endpoint = some x) (finished : x.finished = true) (secured : r.secured = true)
    (standard : le r.msg 4 2 = 3) (len : le r.msg 6 1 = 2) (vendor : le r.msg 7 2 = 0x1FD4) (isCode : le r.msg 11 1 = code) :
    vendorRow code r f s = .next (refresh (f (slice r.msg 12 (le r.msg 9 2 - 1)) s)) := by
  have own : (le r.msg 4 2 != 3 || le r.msg 6 1 != 2 || le r.msg 7 2 != 0x1FD4 || le r.msg 11 1 != code) = false := by
    simp [standard, len, vendor, isCode]
  unfold vendorRow
  dsimp only
  rw [own, if_neg Bool.false_ne_true, spdmRow_takes reach req (.inl rfl)]
  unfold inSession
  rw [session]
  dsimp only
  rw [finished, secured, sound]
  rfl

theorem inSession_finished {r : SpdmReq} {f : Spdm → State → State} {x : Spdm} {s : State} (session : spdmOf s r.endpoint = some x)
    (finished : x.finished = true) (secured : r.secured = true) : inSession r f s = f x s := by
  unfold inSession
  rw [session]
  dsimp only
  rw [finished, secured]
  rfl

theorem enterError_error (s : State) : (enterError s).sec.error = true := by
  unfold enterError
  dsimp only
  have noted : Ends { s with sec := { s.sec with error := true } }
      (recordM evSecurity 4 (pay [(1, 1), (0, 3)]) { s with sec := { s.sec with error := true } }) := .recordM (.refl _)
  have rest (l : List Nat) (u : State) : Ends u (l.foldl (fun s p =>
      let s := if isSealed s p then
          (s.parcel p).items.foldl (fun s i => itemSecurity p (tenTail s p i.tenancy) i s) s else s
      if (s.parcel p).sealPending then sealAnswer p .internal s else s) u) :=
    .foldl (.refl u) fun _ _ hs => .when (.when hs fun hs => .foldl hs fun _ _ hs => .itemSecurity hs) fun hs => .sealAnswer hs
  exact congrArg Sec.error ((rest _ _).sec.trans noted.sec)

theorem spdmFlags_bits (k : Nat) (set : k ∈ [1, 2, 4, 6, 7, 8, 9, 13, 14]) : bit (spdmFlags % 2 ^ 32) k = true ∧
    bit (spdmFlags % 2 ^ 32) 3 = false ∧ bit (spdmFlags % 2 ^ 32) 10 = false ∧ bit (spdmFlags % 2 ^ 32) 11 = false := by
  have each (k : Nat) (small : k < 32) : bit (spdmFlags % 2 ^ 32) k =
      (Nat.testBit 0x63D6 k || (Nat.testBit (le (Config.spdmBytes 0xE1 [] 0) 0 4) k && Nat.testBit 0xFFFF9021 k)) := by
    rw [bit_eq_testBit, Nat.testBit_mod_two_pow, spdmFlags, Nat.testBit_or, Nat.testBit_and]
    simp [small]
  have ones : ∀ k ∈ [1, 2, 4, 6, 7, 8, 9, 13, 14], k < 32 ∧ Nat.testBit 0x63D6 k = true := by decide
  obtain ⟨small, one⟩ := ones k set
  have clear : ∀ k ∈ [3, 10, 11], k < 32 ∧ Nat.testBit 0x63D6 k = false ∧ Nat.testBit 0xFFFF9021 k = false := by decide
  have zero (j : Nat) (listed : j ∈ [3, 10, 11]) : bit (spdmFlags % 2 ^ 32) j = false := by
    obtain ⟨small, low, high⟩ := clear j listed
    rw [each j small, low, high, Bool.and_false, Bool.or_false]
  exact ⟨by rw [each k small, one, Bool.true_or], zero 3 (by decide), zero 10 (by decide), zero 11 (by decide)⟩

/-- R437: what GET_CAPABILITIES answers after its header. -/
def capabilityBytes : List Byte :=
  zeros 1 ++ slice (Config.spdmBytes 0xE1 [] 1) 0 1 ++ zeros 2 ++ pay [(spdmFlags, 4)] ++ slice (Config.spdmBytes 0xE1 [] 2) 0 8

theorem length_capabilityBytes : capabilityBytes.length = 16 := by
  simp only [capabilityBytes, List.length_append, length_slice, zeros, List.length_replicate, pay_cons, pay_nil, length_leBytes,
    List.length_nil]

theorem capabilityBytes_flags : le capabilityBytes 4 4 = spdmFlags % 2 ^ 32 := by
  have head : (zeros 1 ++ slice (Config.spdmBytes 0xE1 [] 1) 0 1 ++ zeros 2).length = 4 := by
    simp only [List.length_append, length_slice, zeros, List.length_replicate]
  rw [capabilityBytes, List.append_assoc, le_skip (Nat.le_of_eq head), head, pay_cons, pay_nil, List.append_nil, le_leBytes]
  norm_num

/-- R437: what NEGOTIATE_ALGORITHMS answers after its header. -/
def algorithmBytes (m : List Byte) : List Byte :=
  pay [(36 + 4 * le m 2 1, 2)] ++ slice (Config.spdmBytes 0xE3 m 0) 0 2
    ++ pay [(2, 4), (16, 4), (1, 4), (0, 11)] ++ slice (Config.spdmBytes 0xE3 m 1) 0 1 ++ zeros 4
    ++ (List.range (le m 2 1)).flatMap (fun k =>
      pay [(le m (32 + 4 * (le m 28 1 + le m 29 1) + 4 * k) 1, 1), (0x20, 1),
        (spdmPick (le m (32 + 4 * (le m 28 1 + le m 29 1) + 4 * k) 1) (le m (32 + 4 * (le m 28 1 + le m 29 1) + 4 * k + 2) 2), 2)])

theorem length_algorithmBytes (m : List Byte) : (algorithmBytes m).length = 32 + 4 * le m 2 1 := by
  have picks (f : Nat → Nat) (g : Nat → Nat) : ((List.range (le m 2 1)).flatMap (fun k => pay [(f k, 1), (0x20, 1), (g k, 2)])).length =
      4 * (List.range (le m 2 1)).length := length_flatMap_of_length (fun k => by simp [length_leBytes]) _
  simp only [algorithmBytes, List.length_append, length_slice, zeros, List.length_replicate, picks, List.length_range]
  simp [length_leBytes]

theorem algorithmBytes_fields (m : List Byte) :
    le (algorithmBytes m) 4 4 = 2 ∧ le (algorithmBytes m) 8 4 = 16 ∧ le (algorithmBytes m) 12 4 = 1 := by
  have head : (pay [(36 + 4 * le m 2 1, 2)] ++ slice (Config.spdmBytes 0xE3 m 0) 0 2).length = 4 := by
    simp [length_leBytes, length_slice]
  simp only [algorithmBytes]
  generalize pay [(36 + 4 * le m 2 1, 2)] ++ slice (Config.spdmBytes 0xE3 m 0) 0 2 = a at head
  simp only [pay_cons, List.append_assoc]
  refine ⟨?_, ?_, ?_⟩
  · rw [le_skip (by omega), head, le_leBytes]
    rfl
  · rw [le_skip (by omega), head, le_leBytes_skip (by omega), le_leBytes]
    rfl
  · rw [le_skip (by omega), head, le_leBytes_skip (by omega), le_leBytes_skip (by omega), le_leBytes]
    rfl

/-- R432: a signature as SPDM gives it. -/
def signed (g : Nat × Nat) : List Byte := beBytes g.1 32 ++ beBytes g.2 32

/-- Tags that were drawn. -/
def drawn (n : Nat) (s : State) : State := { s with free := s.free + n }

section Rows

variable {r : SpdmReq} {s : State}

/-- R437: a request of a code that an endpoint's connection can take. -/
def spdmReq (r : SpdmReq) (s : State) (code need : Nat) : Prop :=
  le r.msg 1 1 = code ∧ le r.msg 0 1 = (if code = 0x84 then 0x10 else 0x13) ∧ need ≤ spdmConn s r.endpoint

theorem getVersion_runs (reach : spdmReach s r.endpoint = true) (q : spdmReq r s 0x84 0) : exec (.getVersion r) s =
    .next (refresh (spdmOut r.endpoint [0x10, 0x04, 0, 0, 0, 1, 0x00, 0x13] (setConn r.endpoint 1 s))) :=
  spdmRow_takes (keyed := false) (f := fun s => spdmOut r.endpoint [0x10, 0x04, 0, 0, 0, 1, 0x00, 0x13] (setConn r.endpoint 1 s))
    reach q (.inl rfl)

theorem getCapabilities_runs (reach : spdmReach s r.endpoint = true) (q : spdmReq r s 0xE1 1) : exec (.getCapabilities r) s =
    .next (refresh (spdmOut r.endpoint (spdmHead 0x61 0 0 ++ capabilityBytes) (setConn r.endpoint 2 s))) := by
  have runs : execGetCapabilities r s = _ := spdmRow_takes reach q (.inl rfl)
  refine runs.trans ?_
  simp only [capabilityBytes, List.append_assoc]

theorem negotiateAlgorithms_runs (reach : spdmReach s r.endpoint = true) (q : spdmReq r s 0xE3 2) (ecdsa : bit (le r.msg 8 4) 4 = true)
    (sha : bit (le r.msg 12 4) 0 = true) : exec (.negotiateAlgorithms r) s =
    .next (refresh (spdmOut r.endpoint (spdmHead 0x63 (le r.msg 2 1) 0 ++ algorithmBytes r.msg) (setConn r.endpoint 3 s))) := by
  have runs : execNegotiateAlgorithms r s = _ := spdmRow_takes reach q (.inl rfl)
  refine runs.trans ?_
  dsimp only
  rw [ecdsa, sha]
  simp only [algorithmBytes, List.append_assoc, Bool.not_true, Bool.or_self, Bool.false_eq_true, if_false]

theorem negotiateAlgorithms_refuses (reach : spdmReach s r.endpoint = true) (q : spdmReq r s 0xE3 2)
    (poor : bit (le r.msg 8 4) 4 = false ∨ bit (le r.msg 12 4) 0 = false) : exec (.negotiateAlgorithms r) s =
    .next (refresh (spdmOut r.endpoint (spdmHead 0x7F 1 0) s)) := by
  have runs : execNegotiateAlgorithms r s = _ := spdmRow_takes reach q (.inl rfl)
  refine runs.trans ?_
  have refused : (!bit (le r.msg 8 4) 4 || !bit (le r.msg 12 4) 0) = true := by
    rcases poor with h | h <;> simp [h]
  dsimp only
  rw [if_pos refused]
  rfl

theorem getDigests_runs (reach : spdmReach s r.endpoint = true) (q : spdmReq r s 0x81 3) : exec (.getDigests r) s =
    .next (refresh (spdmOut r.endpoint (spdmHead 0x01 1 1 ++ sha256 (certChain s.sec.aliasCert)) s)) :=
  spdmRow_takes (keyed := false) (f := fun s => spdmOut r.endpoint (spdmHead 0x01 1 1 ++ sha256 (slotZero s)) s) reach q (.inl rfl)

theorem getCertificate_runs (reach : spdmReach s r.endpoint = true) (q : spdmReq r s 0x82 3) (slot : le r.msg 2 1 % 16 = 0) :
    let chain := certChain s.sec.aliasCert
    let o := le r.msg 4 2
    let n := min (le r.msg 6 2) (chain.length - o)
    exec (.getCertificate r) s = .next (refresh (spdmOut r.endpoint (if o < chain.length then
      spdmHead 0x02 0 0 ++ pay [(n, 2), (chain.length - o - n, 2)] ++ (chain.drop o).take n else spdmHead 0x7F 1 0) s)) := by
  intro chain o n
  have runs : execGetCertificate r s = _ := spdmRow_takes reach q (.inl rfl)
  refine runs.trans ?_
  change Host.Outcome.next (refresh (if (le r.msg 2 1 % 16 != 0 || decide (chain.length ≤ o)) = true then spdmError r.endpoint 0x01 s
    else spdmOut r.endpoint (spdmHead 0x02 0 0 ++ pay [(n, 2), (chain.length - o - n, 2)] ++ (chain.drop o).take n) s)) = _
  by_cases inside : o < chain.length
  · rw [slot, decide_eq_false (Nat.not_le.mpr inside), if_pos inside]
    rfl
  · rw [slot, decide_eq_true (Nat.not_lt.mp inside), if_neg inside]
    rfl

theorem challenge_runs (reach : spdmReach s r.endpoint = true) (sound : s.sec.error = false) (q : spdmReq r s 0x83 3)
    (slot : le r.msg 2 1 = 0) : exec (.challenge r) s = .next (refresh (spdmOut r.endpoint (spdmHead 0x03 0 1
      ++ sha256 (certChain s.sec.aliasCert) ++ (drbgNext (drbgAt s.free)).1 ++ Config.spdmBytes 0x83 r.msg (s.free + 1)
      ++ signed (signWith s.sec.aliasKey (s.free + 2) (Config.spdmDigest 0x83 r.msg (s.free + 2)))) (drawn 3 s))) := by
  have runs : execChallenge r s = _ := spdmRow_takes reach q (.inr sound)
  refine runs.trans ?_
  dsimp only
  rw [slot, if_neg (by decide)]
  rfl

end Rows

end Sys2Proof.Machine

end

section
/-! SUPPORT. SPDM sessions and the requests inside them (12 R430 to R440). -/

namespace Sys2Proof.Machine

variable {r : SpdmReq} {s : State}

theorem getMeasurements_runs (reach : spdmReach s r.endpoint = true) (sound : s.sec.error = false) (q : spdmReq r s 0xE0 3)
    (all : le r.msg 3 1 = 0xFF) (sign : bit (le r.msg 2 1) 0 = true) : exec (.getMeasurements r) s =
    .next (refresh (spdmOut r.endpoint (spdmHead 0x60 0 0
      ++ pay [(8, 1), (((List.range 8).flatMap (fun k => measBlock s (k + 1))).length, 3)]
      ++ (List.range 8).flatMap (fun k => measBlock s (k + 1)) ++ (drbgNext (drbgAt s.free)).1
      ++ Config.spdmBytes 0xE0 r.msg (s.free + 1)
      ++ signed (signWith s.sec.aliasKey (s.free + 2) (Config.spdmDigest 0xE0 r.msg (s.free + 2)))) (drawn 3 s))) := by
  have runs : execGetMeasurements r s = _ := spdmRow_takes reach q (.inr sound)
  refine runs.trans ?_
  dsimp only
  rw [all, sign]
  rfl

theorem keyExchange_runs (reach : spdmReach s r.endpoint = true) (sound : s.sec.error = false) (q : spdmReq r s 0xE4 3)
    (whole : le r.msg 3 1 = 0) (point : onCurve (4 :: slice r.msg 40 64) = true) (pair : r.ok = true) :
    let own := p256Key 64 (drbgAt s.free)
    let hand := spdmHandshake (ecdh own (4 :: slice r.msg 40 64))
    let pr := spdmPair hand "hs data" (Config.spdmDigest 0xE4 r.msg s.free)
    ∃ a b : List Byte, exec (.keyExchange r) s = .next (refresh (spdmOut r.endpoint
      (spdmHead 0x64 0 0 ++ a ++ (p256Point own).drop 1 ++ b)
      (setSpdm r.endpoint { finished := false, number := s.free, req := pr.1, rsp := pr.2, main := hand } (drawn 4 s)))) := by
  intro own hand pr
  have runs : execKeyExchange r s = _ := spdmRow_takes reach q (.inr sound)
  refine ⟨leBytes (Config.freeNat s.free) 2 ++ zeros 2 ++ (drbgNext (drbgAt (s.free + 1))).1,
    Config.spdmBytes 0xE4 r.msg (s.free + 2) ++ signed (signWith s.sec.aliasKey (s.free + 3) (Config.spdmDigest 0xE4 r.msg (s.free + 3)))
      ++ spdmVerify pr.2 (Config.spdmDigest 0xE4 r.msg s.free), runs.trans ?_⟩
  dsimp only
  rw [whole, point, pair]
  simp only [bne_self_eq_false, Bool.not_true, Bool.or_self, Bool.false_eq_true, if_false, ← List.append_assoc]
  rfl

theorem keyExchange_fails (reach : spdmReach s r.endpoint = true) (sound : s.sec.error = false) (q : spdmReq r s 0xE4 3)
    (whole : le r.msg 3 1 = 0) (point : onCurve (4 :: slice r.msg 40 64) = true) (bad : r.ok = false) :
    exec (.keyExchange r) s = .next (refresh (spdmError r.endpoint 0x05 (enterError s))) := by
  have runs : execKeyExchange r s = _ := spdmRow_takes reach q (.inr sound)
  refine runs.trans ?_
  dsimp only
  rw [whole, point, bad]
  rfl

theorem finish_runs {x : Spdm} (reach : spdmReach s r.endpoint = true) (sound : s.sec.error = false) (q : spdmReq r s 0xE5 3)
    (session : spdmOf s r.endpoint = some x) (fresh : x.finished = false) (secured : r.secured = true) (ok : r.ok = true) :
    let main := spdmMaster x.main
    let pr := spdmPair main "app data" (Config.spdmDigest 0xE5 r.msg s.free)
    exec (.finish r) s = .next (refresh (spdmOut r.endpoint (spdmHead 0x65 0 0 ++ Config.spdmBytes 0xE5 r.msg s.free)
      (setSpdm r.endpoint { x with finished := true, req := pr.1, rsp := pr.2, main := main } (drawn 1 s)))) := by
  intro main pr
  have runs : execFinish r s = _ := spdmRow_takes reach q (.inr sound)
  refine runs.trans ?_
  dsimp only
  rw [session]
  dsimp only
  rw [fresh, secured, ok]
  rfl

section Finished

variable {x : Spdm} (reach : spdmReach s r.endpoint = true) (sound : s.sec.error = false) (session : spdmOf s r.endpoint = some x)
  (finished : x.finished = true) (secured : r.secured = true)

include reach sound session finished secured

theorem keyUpdate_runs (q : spdmReq r s 0xE9 3) (op : le r.msg 2 1 = 1 ∨ le r.msg 2 1 = 2) : exec (.keyUpdate r) s =
    .next (refresh (spdmOut r.endpoint (spdmHead 0x69 (le r.msg 2 1) (le r.msg 3 1)) (setSpdm r.endpoint { x with
      keyGen := x.keyGen + 1, req := spdmUpdated x.req, rsp := if le r.msg 2 1 = 2 then spdmUpdated x.rsp else x.rsp } s))) := by
  have runs : execKeyUpdate r s = _ := spdmRow_takes reach q (.inr sound)
  refine runs.trans ?_
  rw [inSession_finished session finished secured]
  dsimp only
  rcases op with h | h <;> rw [h] <;> rfl

theorem heartbeat_runs (q : spdmReq r s 0xE8 3) :
    exec (.heartbeat r) s = .next (refresh (spdmOut r.endpoint (spdmHead 0x68 0 0) s)) := by
  have runs : execHeartbeat r s = _ := spdmRow_takes reach q (.inr sound)
  refine runs.trans ?_
  rw [inSession_finished session finished secured]

theorem endSession_runs (q : spdmReq r s 0xEC 3) :
    exec (.endSession r) s = .next (refresh (spdmOut r.endpoint (spdmHead 0x6C 0 0) (endSpdm r.endpoint s))) := by
  have runs : execEndSession r s = _ := spdmRow_takes reach q (.inr sound)
  refine runs.trans ?_
  rw [inSession_finished session finished secured]

variable (q : spdmReq r s 0xFE 3) (standard : le r.msg 4 2 = 3) (idLen : le r.msg 6 1 = 2) (vendor : le r.msg 7 2 = 0x1FD4)
  {b : List Byte} (body : slice r.msg 12 (le r.msg 9 2 - 1) = b)

include q standard idLen vendor body

theorem keySet_runs {p t : Nat} (ten : spdmTenancy s r.endpoint = some (p, t)) (code : le r.msg 11 1 = 1) (len : b.length = 49)
    (slot : le b 0 1 ≤ 3) : exec (.keySet r) s = .next (refresh (vendorReply r.endpoint .ok [] (s.modTen p t (fun y => { y with
      keys := tblPut y.keys (le b 0 1) ⟨slice b 1 32, slice b 33 16, y.keySets⟩, keySets := y.keySets + 1 })))) := by
  have runs : execKeySet r s = _ := vendorRow_takes reach q sound session finished secured standard idLen vendor code
  refine runs.trans ?_
  rw [body, ten]
  dsimp only
  rw [len, decide_eq_false (Nat.not_lt.mpr slot)]
  rfl

theorem keyClear_runs {p t : Nat} (ten : spdmTenancy s r.endpoint = some (p, t)) (code : le r.msg 11 1 = 2) (len : b.length = 1)
    (slot : le b 0 1 ≤ 3) : exec (.keyClear r) s = .next (refresh (vendorReply r.endpoint .ok [] (s.modTen p t (fun y => { y with
      keys := tblDel y.keys (le b 0 1) })))) := by
  have runs : execKeyClear r s = _ := vendorRow_takes reach q sound session finished secured standard idLen vendor code
  refine runs.trans ?_
  rw [body, ten]
  dsimp only
  rw [len, decide_eq_false (Nat.not_lt.mpr slot)]
  rfl

theorem signerSet_runs {p t : Nat} (ten : spdmTenancy s r.endpoint = some (p, t)) (code : le r.msg 11 1 = 3)
    (key : b = [] ∨ (b.length = 65 ∧ le b 0 1 = 4)) : exec (.signerSet r) s = .next (refresh (vendorReply r.endpoint .ok
      (if b = [] then zeros 32 else sha256 b) (s.modTen p t (fun y => { y with signer := b })))) := by
  have runs : execSignerSet r s = _ := vendorRow_takes reach q sound session finished secured standard idLen vendor code
  have whole : (!b.isEmpty && (b.length != 65 || le b 0 1 != 4)) = false := by
    rcases key with none_ | ⟨len, form⟩
    · simp [none_]
    · simp [len, form]
  refine runs.trans ?_
  rw [body, ten]
  dsimp only
  rw [whole, if_neg Bool.false_ne_true]
  simp only [List.isEmpty_iff]

theorem deedParcel_runs {p t : Nat} (ten : spdmTenancy s r.endpoint = some (p, t)) (code : le r.msg 11 1 = 4) (len : b.length = 33)
    (kind : le b 0 1 = 1) : exec (.deedParcel r) s =
      .next (refresh (vendorReply r.endpoint .ok (parcelDeed s.free s p t (b.drop 1) true) (drawn 1 s))) := by
  have runs : execDeedParcel r s = _ := vendorRow_takes reach q sound session finished secured standard idLen vendor code
  refine runs.trans ?_
  rw [body, ten]
  dsimp only
  rw [len, kind]
  rfl

theorem deedPackage_runs (code : le r.msg 11 1 = 4) (len : b.length = 33) (kind : le b 0 1 = 2)
    (owner : r.endpoint = 0 ∨ r.endpoint = 64) : exec (.deedPackage r) s =
      .next (refresh (vendorReply r.endpoint .ok (packageDeed s.free s (b.drop 1)) (drawn 1 s))) := by
  have runs : execDeedPackage r s = _ := vendorRow_takes reach q sound session finished secured standard idLen vendor code
  have allowed : (r.endpoint != 0 && r.endpoint != 64) = false := by rcases owner with h | h <;> simp [h]
  refine runs.trans ?_
  rw [body]
  dsimp only
  rw [len, kind, allowed]
  rfl

end Finished

end Sys2Proof.Machine

open Sys2Proof Sys2Proof.Machine

/-- Settles O48: each request by its row. -/
theorem securityRequestsComplete : Obligations.SecurityRequestsComplete := by
  intro r s e m reach req out signed later
  refine ⟨getVersion_runs reach, fun q => ⟨capabilityBytes, getCapabilities_runs reach q, length_capabilityBytes, fun k listed => ?_⟩,
    fun q ecdsa sha => ⟨algorithmBytes m, negotiateAlgorithms_runs reach q ecdsa sha, length_algorithmBytes m, algorithmBytes_fields m⟩,
    negotiateAlgorithms_refuses reach, ?_, fun sound => ?_⟩
  · rw [capabilityBytes_flags]
    exact spdmFlags_bits k listed
  · exact ⟨getDigests_runs reach, getCertificate_runs reach, fun sound q slot => ⟨_, challenge_runs reach sound q slot⟩⟩
  · refine ⟨fun q all sign => ⟨_, getMeasurements_runs reach sound q all sign⟩, keyExchange_runs reach sound,
      fun q whole point bad => ⟨_, keyExchange_fails reach sound q whole point bad, ?_⟩,
      fun x q session fresh secured ok => ?_, fun x session finished secured => ?_⟩
    · rw [(refresh_records _).eqs.2.2.2.2.2.2.2.2.2.2.2.2.2.2.2.2.2.1]
      exact enterError_error s
    · exact ⟨_, finish_runs reach sound q session fresh secured ok⟩
    · refine ⟨keyUpdate_runs reach sound session finished secured, heartbeat_runs reach sound session finished secured,
        endSession_runs reach sound session finished secured, fun b q standard idLen vendor body => ⟨fun p t ten => ?_, fun code len kind owner =>
          deedPackage_runs reach sound session finished secured q standard idLen vendor body code len kind owner⟩⟩
      exact ⟨keySet_runs reach sound session finished secured q standard idLen vendor body ten,
        keyClear_runs reach sound session finished secured q standard idLen vendor body ten,
        signerSet_runs reach sound session finished secured q standard idLen vendor body ten,
        deedParcel_runs reach sound session finished secured q standard idLen vendor body ten⟩
end

section
/-! SUPPORT. TDISP requests (12 R442). -/

namespace Sys2Proof.Machine

theorem tdispRow_takes {r : TdispReq} {s : State} (f : State → State) (reach : spdmReach s r.vf = true) (vf : vfExists s r.vf = true)
    (secured : tsmOpen s r.vf = true) : tdispRow r f s = .next (refresh (f s)) := by
  unfold tdispRow
  rw [reach, vf, secured]
  rfl

/-- What has gone out as a TDISP message is there after the status registers have been looked at. -/
theorem spdmOut_shown (e : Nat) (msg : List Byte) (s : State) : .spdm e msg ∈ (refresh (spdmOut e msg s)).outputs :=
  (refresh_shown _).mem (List.mem_append_right _ (List.mem_singleton_self _))

theorem refresh_tdisp (s : State) : (refresh s).pcie.tdisp = s.pcie.tdisp := by rw [(refresh_signals s).rest]

theorem refresh_tdispNonce (s : State) : (refresh s).pcie.tdispNonce = s.pcie.tdispNonce := by rw [(refresh_signals s).rest]

/-- The tenancy that a mailbox block is bound to is served again (R442). -/
def serveBound (vf : Nat) (s : State) : State :=
  match boundTo s vf with
  | some (p, t) => s.modTen p t (fun x => { x with barred := false })
  | none => s

theorem serveBound_pcie (vf : Nat) (s : State) : (serveBound vf s).pcie = s.pcie := by
  unfold serveBound
  split <;> rfl

theorem serveBound_barred {vf p k : Nat} {s : State} (bound : boundTo s vf = some (p, k)) :
    (((serveBound vf s).parcel p).ten k).barred = false := by
  unfold serveBound
  rw [bound]
  simp [State.modTen, State.modParcel, Parcel.ten, Parcel.setTen]

/-- START_INTERFACE of a locked VF with the nonce of its lock, before the message and the status registers (R442). -/
def startTaken (vf : Nat) (s : State) : State :=
  serveBound vf { s with pcie := { s.pcie with
    tdisp := tblPut s.pcie.tdisp vf .run, tdispNonce := tblDel s.pcie.tdispNonce vf } }

theorem execStartInterface_runs {r : TdispReq} {s : State} (reach : spdmReach s r.vf = true) (vf : vfExists s r.vf = true)
    (secured : tsmOpen s r.vf = true) (locked : tdispOf s r.vf = .locked) (nonce : tblGet s.pcie.tdispNonce r.vf = some r.nonce) :
    execStartInterface r s = .next (refresh (spdmOut r.vf (tdispMsg r.vf 6 []) (startTaken r.vf s))) := by
  refine (tdispRow_takes _ reach vf secured).trans ?_
  dsimp only
  rw [locked, nonce]
  simp only [bne_self_eq_false, Bool.false_eq_true, if_false]
  rfl

/-- LOCK_INTERFACE of an unlocked VF, before the message and the status registers (R442). -/
def lockTaken (vf : Nat) (s : State) : State :=
  { s with free := s.free + 1, pcie := { s.pcie with
    tdisp := tblPut s.pcie.tdisp vf .locked
    tdispNonce := tblPut s.pcie.tdispNonce vf (drbgNext (drbgAt s.free)).1 } }

theorem execLockInterface_runs {r : TdispReq} {s : State} (reach : spdmReach s r.vf = true) (vf : vfExists s r.vf = true)
    (secured : tsmOpen s r.vf = true) (unlocked : tdispOf s r.vf = .unlocked) : execLockInterface r s =
    .next (refresh (spdmOut r.vf (tdispMsg r.vf 3 (drbgNext (drbgAt s.free)).1) (lockTaken r.vf s))) := by
  refine (tdispRow_takes _ reach vf secured).trans ?_
  dsimp only
  rw [unlocked]
  simp only [bne_self_eq_false, Bool.false_eq_true, if_false]
  rfl

theorem execLockInterface_locks {r : TdispReq} {s : State} (reach : spdmReach s r.vf = true) (vf : vfExists s r.vf = true)
    (secured : tsmOpen s r.vf = true) (unlocked : tdispOf s r.vf = .unlocked) : ∃ t, execLockInterface r s = .next t ∧
    tblGet t.pcie.tdisp r.vf = some .locked ∧ tblGet t.pcie.tdispNonce r.vf = some (drbgNext (drbgAt s.free)).1 ∧
    .spdm r.vf (tdispMsg r.vf 3 (drbgNext (drbgAt s.free)).1) ∈ t.outputs := by
  refine ⟨_, execLockInterface_runs reach vf secured unlocked, ?_, ?_, spdmOut_shown ..⟩
  · rw [refresh_tdisp]
    exact tblGet_put_same ..
  · rw [refresh_tdispNonce]
    exact tblGet_put_same ..

theorem execStartInterface_starts {r : TdispReq} {s : State} (reach : spdmReach s r.vf = true) (vf : vfExists s r.vf = true)
    (secured : tsmOpen s r.vf = true) (locked : tdispOf s r.vf = .locked) (nonce : tblGet s.pcie.tdispNonce r.vf = some r.nonce) :
    ∃ t, execStartInterface r s = .next t ∧ tblGet t.pcie.tdisp r.vf = some .run ∧ tblGet t.pcie.tdispNonce r.vf = none ∧
      .spdm r.vf (tdispMsg r.vf 6 []) ∈ t.outputs ∧
      ∀ p k, boundTo s r.vf = some (p, k) → ((t.parcel p).ten k).barred = false := by
  refine ⟨_, execStartInterface_runs reach vf secured locked nonce, ?_, ?_, spdmOut_shown .., fun p k bound => ?_⟩
  · rw [refresh_tdisp]
    unfold spdmOut startTaken
    rw [serveBound_pcie]
    exact tblGet_put_same ..
  · rw [refresh_tdispNonce]
    unfold spdmOut startTaken
    rw [serveBound_pcie]
    exact tblGet_del_same ..
  · unfold State.parcel
    rw [refresh_parcels]
    exact serveBound_barred (s := { s with pcie := { s.pcie with
      tdisp := tblPut s.pcie.tdisp r.vf .run, tdispNonce := tblDel s.pcie.tdispNonce r.vf } }) bound

/-- R493: the key of the link stream, or of the function's own. -/
theorem execIdeKm_takes {r : IdeReq} {s : State} (reach : spdmReach s r.fn = true) (secured : tsmOpen s r.fn = true)
    (sound : s.sec.error = false) : execIdeKm r s = .next (if r.link then { s with pcie := { s.pcie with linkIde := some r.key } }
      else { s with pcie := { s.pcie with ide := (r.fn, r.stream, r.key) :: s.pcie.ide.filter (fun e => e.1 != r.fn) } }) := by
  unfold execIdeKm
  rw [reach, secured, sound]
  by_cases link : r.link
  · rw [if_pos link, if_pos link]
    rfl
  · rw [if_neg link, if_neg link]
    rfl

/-- R451: no debug while a parcel is sealed or seal-pending. -/
theorem execDebugToken_closed {token : List Byte} {valid : Bool} {s : State} (ready : s.power.ready = true)
    (closed : ∃ p ∈ liveParcels s, sealedOrPending s p = true) :
    execDebugToken token valid s = .next { s with outputs := s.outputs ++ [.debug 0x0105] } := by
  unfold execDebugToken
  rw [ready, List.any_eq_true.mpr closed]
  rfl

theorem execDebugToken_opens {token : List Byte} {s : State} (ready : s.power.ready = true)
    (free : ∀ p ∈ liveParcels s, sealedOrPending s p = false) (unlocked : (s.store.production && s.store.dbgPermLock) = false) :
    execDebugToken token true s = .next { s with
      sec := { s.sec with dbgOpen := true, dbgEver := true }, outputs := s.outputs ++ [.debug 0] } := by
  have none : (liveParcels s).any (sealedOrPending s) = false :=
    List.any_eq_false.mpr fun p live => by simp [free p live]
  unfold execDebugToken
  rw [ready, none, unlocked]
  rfl

end Sys2Proof.Machine

open Sys2Proof Sys2Proof.Machine Sys2Proof.Claims

/-- Settles O49: each request runs to the state that R442, R493, R462 and R463 give. -/
theorem interfacesComplete : Obligations.InterfacesComplete := by
  unfold Obligations.InterfacesComplete
  refine ⟨fun r s reach vf secured => ?_, fun r s reach secured sound => ⟨fun link => ?_, fun link => ?_⟩,
    fun token valid s ready => ⟨fun closed => execDebugToken_closed (token := token) ready closed, fun free unlocked isValid => ?_⟩⟩
  · intro nonce
    refine ⟨fun unlocked => execLockInterface_locks (r := r) reach vf secured unlocked,
      fun locked given => execStartInterface_starts (r := r) reach vf secured locked given, ?_⟩
    intro y
    exact tdispRow_takes (r := r) (fun s =>
      let s := leaveRun r.vf .unlocked s
      spdmOut r.vf (tdispMsg r.vf 7 []) { s with pcie := { s.pcie with tdispNonce := tblDel s.pcie.tdispNonce r.vf } })
      reach vf secured
  · exact (execIdeKm_takes (r := r) reach secured sound).trans (by rw [if_pos link])
  · exact (execIdeKm_takes (r := r) reach secured sound).trans (by rw [link]; rfl)
  · subst isValid
    exact execDebugToken_opens (token := token) ready free unlocked
end

section
/-! SUPPORT. Instructions of update programs (10 R371). -/

namespace Sys2Proof.Machine

/-- R371: the state after the program's next instruction, before the next element. -/
def upRan (op p : Nat) (f : UpF) (i : Item) (r : GroupRun) (s : State) : GroupRun × State :=
  let g := (s.parcel p).group r.group
  let x := upStep (upCodes g (upConst g r.cf r.tr).1) op f (r.elem.drop 2)
  let r1 := { r with elem := nth r.elem 0 0 :: (nth r.elem 1 0 + 1) :: x.1 }
  (r1, modRun p i.seq r.group (fun _ => r1) (addExcItem p i.seq (countExc x.2) s))

section
variable {p : Nat} {i : Item} {r : GroupRun} {s : State} (run : progRun s p = some (i, r))
include run

theorem upCmd_runs {op : Nat} {f : UpF}
    (isOp : upOp (nth (progOf (s.parcel p) ((s.parcel p).group r.group)) (nth r.elem 1 0) 0) = op)
    (fields : upF (nth (progOf (s.parcel p) ((s.parcel p).group r.group)) (nth r.elem 1 0) 0) = f) (goesOn : op ≠ 0x3F) :
    upCmd op p f s = .next (if nth r.elem 1 0 = 15 then nextElem p i (upRan op p f i r s).1 (upRan op p f i r s).2
      else (upRan op p f i r s).2) := by
  unfold upCmd
  rw [run]
  dsimp only
  rw [isOp, fields, bne_self_eq_false, bne_self_eq_false, Bool.and_false, Bool.or_false, if_neg Bool.false_ne_true,
    if_neg (by simpa using goesOn)]
  simp only [beq_iff_eq]
  rfl

theorem upCmd_ends (isEnd : upOp (nth (progOf (s.parcel p) ((s.parcel p).group r.group)) (nth r.elem 1 0) 0) = 0x3F) :
    upCmd 0x3F p {} s = .next (nextElem p i r s) := by
  unfold upCmd
  rw [run]
  dsimp only
  rw [isEnd]
  rfl

end

end Sys2Proof.Machine

open Sys2Proof Sys2Proof.Machine Sys2Proof.Claims

/-- Settles O38: every operation but UP_END is one and the same command, which names its operation. -/
theorem updateProgramsRun : Obligations.UpdateProgramsRun := by
  unfold Obligations.UpdateProgramsRun
  intro p f i r s run
  refine ⟨fun op cmd named isOp fields => ?_, fun isEnd => upCmd_ends run isEnd⟩
  have goesOn : op ≠ 0x3F := by
    rintro rfl
    simp at named
  have ran := upCmd_runs run isOp fields goesOn
  have calls : exec cmd s = upCmd op p f s := by
    simp only [List.mem_cons, Prod.mk.injEq, List.not_mem_nil, or_false] at named
    rcases named with ⟨rfl, rfl⟩ | ⟨rfl, rfl⟩ | ⟨rfl, rfl⟩ | ⟨rfl, rfl⟩ | ⟨rfl, rfl⟩ | ⟨rfl, rfl⟩ | ⟨rfl, rfl⟩ | ⟨rfl, rfl⟩ |
      ⟨rfl, rfl⟩ | ⟨rfl, rfl⟩ | ⟨rfl, rfl⟩ | ⟨rfl, rfl⟩ | ⟨rfl, rfl⟩ | ⟨rfl, rfl⟩ | ⟨rfl, rfl⟩ <;> rfl
  exact calls.trans ran
end

section
/-! SUPPORT. The work lists of parcels (9 R331, R335, 10 R348, 13 R486, 14 R526). -/

namespace Sys2Proof.Machine

/-- R486: the next entry of a submission ring is admitted. -/
theorem execItemAdmit_admits {n p t : Nat} {e : List Byte} {s : State} (bound : boundTo s n = some (p, t))
    (ready : s.power.ready = true) (may : mayAdmit s p t = true) (reads : (s.block n).readStopped = false)
    (more : (s.block n).req.head ≠ (s.block n).req.tail) (room : roomFor s p t = true) (few : (tenItems s p t).length < 16)
    (entry : hostRead s n ((s.block n).req.addr (s.block n).req.head 64) 64 = some e) : execItemAdmit n s =
    .next (refresh (admitItem p
      { seq := (takeSeq p t s).1, tenancy := t, itemId := le e 0 4, length := le e 4 4, userTag := le e 8 8 }
      (writeAdmitted n (s.block n).req.head (takeSeq p t s).1 ((takeSeq p t s).2.setBlock n { s.block n with
        req := { (s.block n).req with head := wrap32 ((s.block n).req.head + 1) } })))) := by
  unfold execItemAdmit
  dsimp only
  rw [bound]
  dsimp only
  rw [ready, may, reads, room, entry, beq_false_of_ne more, decide_eq_false (Nat.not_le.mpr few)]
  rfl

/-- R301: an item for re-issue comes first in its parcel. -/
theorem execItemReissue_puts_first {p : Nat} {i : Item} {s : State}
    (found : (s.parcel p).items.find? (fun i => i.reissuePending && i.begun) = some i) (head : s.time.cycle < 1024)
    (later : i.segFrame < s.time.postmark) (cool : s.power.holdOn = false) : execItemReissue p s =
    .next (s.modParcel p (fun x => { x with
      items := { i with begun := false, seg := 0, exc := [0, 0, 0, 0] } :: x.items.filter (fun y => y.seq != i.seq) })) := by
  have now : (inHead s && decide (i.segFrame < s.time.postmark) && !s.power.holdOn) = true := by
    simp [inHead, head, later, cool]
  unfold execItemReissue
  rw [found]
  dsimp only
  rw [now]
  rfl

/-- R526: a collective item begins once its gate has completed and no earlier item of its tenancy is left. -/
theorem execCollectiveBegin_begins {p seq : Nat} {i : Item} {s : State} (item : (s.parcel p).item seq = some i)
    (coll : i.kind = .coll) (waiting : i.begun = false) (cool : s.power.holdOn = false) (runs : s.power.drainOn = false)
    (served : inService (s.parcel p) = true)
    (first : ∀ j ∈ (s.parcel p).items.takeWhile (fun j => j.seq != seq), j.tenancy ≠ i.tenancy)
    (gate : (gateState s p i.tenancy i.gate).isSome = true) :
    let s1 := s.modItem p seq (fun i => { i with begun := true, coll := {} })
    let s2 := collAdvance p seq (collFuel (s1.parcel p) i) s1
    execCollectiveBegin p seq s = .next (refresh (collPump p seq ((s2.parcel p).inbox.length + 1) s2)) := by
  have none : ((s.parcel p).items.takeWhile (fun j => j.seq != seq)).any (fun j => j.tenancy == i.tenancy) = false :=
    List.any_eq_false.mpr fun j earlier => by simpa using first j earlier
  obtain ⟨gone, done⟩ := Option.isSome_iff_exists.mp gate
  unfold execCollectiveBegin
  rw [item]
  dsimp only
  rw [none, coll, waiting, cool, runs, served, done]
  rfl

end Sys2Proof.Machine

open Sys2Proof Sys2Proof.Machine Sys2Proof.Claims

/-- Settles O36: what the conditions of admission, of a re-issue and of a collective's begin leave of each command. -/
theorem itemsAreAdmitted : Obligations.ItemsAreAdmitted := by
  unfold Obligations.ItemsAreAdmitted
  refine ⟨fun n p t e s bound ready may reads more room few entry => ?_,
    fun p i s found head later cool => execItemReissue_puts_first found head later cool,
    fun p seq i s item coll waiting cool runs served first gate =>
      execCollectiveBegin_begins item coll waiting cool runs served first gate⟩
  intro k s1 s2
  exact execItemAdmit_admits bound ready may reads more room few entry
end

section
/-! SUPPORT. The steps of an update item's group (10 R351, R364 to R393). -/

namespace Sys2Proof.Machine

section
variable {p g : Nat} {i : Item} {r : GroupRun} {s : State} (run : runOfGroup s p g = some (i, r))
include run

theorem execUpdateGroupTakeUp_takes (waits : r.phase = .wait)
    (first : (i.groups.find? (fun q => q.phase == .wait)).any (fun q => q.group == g) = true)
    (thawed : gFrozen ((s.parcel p).group g) = false)
    (sound : tblGet (s.parcel p).doomed g ≠ some (gStep ((s.parcel p).group g) + 1))
    (gate : gateState s p i.tenancy r.gate = some true) (cool : s.power.holdOn = false)
    (aligned : gSkew ((s.parcel p).group g) = false) (below : gStep ((s.parcel p).group g) ≠ 0xFFFFFFFF) :
    execUpdateGroupTakeUp p g s = .next (refresh (absorb p g
      (modRun p i.seq g (fun q => { q with phase := .pass1, step := gStep ((s.parcel p).group g) + 1 }) s))) := by
  unfold execUpdateGroupTakeUp
  rw [run]
  dsimp only
  rw [waits, first, thawed, beq_false_of_ne sound, gate, cool, aligned, beq_false_of_ne below]
  rfl

theorem execUpdatePass1Complete_sums (phase : r.phase = .pass1)
    (aligned : (gSharded ((s.parcel p).group g) && gSkew ((s.parcel p).group g)) = false)
    (ok : (pass1 (whoOf p i) ((s.parcel p).group g) s).1 = .ok) :
    let x := pass1 (whoOf p i) ((s.parcel p).group g) s
    let q := x.2.2.1
    execUpdatePass1Complete p g s = .next (refresh (enterNorm p i g (modRun p i.seq g (fun r => { r with
      sw := q.sw, sg := q.sg, swAll := q.sw, sgAll := q.sg, rows := q.rows, cols := q.cols, elements := q.elements })
      (addExcItem p i.seq (countExc q.exc) x.2.2.2)))) := by
  unfold execUpdatePass1Complete
  rw [run]
  dsimp only
  rw [phase, aligned, ok]
  rfl

/-- R366, R367: the clip factor and the trust ratio of a group, with their exceptions. -/
def clipOf (ge : List Byte) (sum : Nat) : XV :=
  if gPolicy ge = 1 ∨ gPolicy ge = 2 then clipFactorX ge sum else xLit one32

theorem execUpdatePass2Start_starts {sum : Nat} (phase : r.phase = .norm) (known : governing (s.parcel p) i r = some sum) :
    let cf := clipOf ((s.parcel p).group g) sum
    let tr := trustRatioX ((s.parcel p).group g) cf.1 r.swAll r.sgAll
    let r1 := { r with
      phase := .pass2, cf := cf.1, tr := tr.1
      clipped := !(f32 cf.1).isNan && decide (cmpV (f32 cf.1) (f32 one32) < 0) }
    execUpdatePass2Start p g s = .next (refresh (addExcItem p i.seq (countExc (cf.2 ++ tr.2)) (modRun p i.seq g
      (fun _ => { r1 with elem := if gRule ((s.parcel p).group g) = 4 then elemLoad p i r1 0 s else [] }) s))) := by
  intro cf tr r1
  have factor : (if (gPolicy ((s.parcel p).group g) == 1 || gPolicy ((s.parcel p).group g) == 2) = true then
      clipFactorX ((s.parcel p).group g) sum else xLit one32) = cf := by
    simp only [Bool.or_eq_true, beq_iff_eq]
    rfl
  unfold execUpdatePass2Start
  rw [run]
  dsimp only
  rw [known]
  dsimp only
  rw [phase, factor]
  simp only [bne_self_eq_false, Bool.false_eq_true, if_false, beq_iff_eq]
  rfl

/-- R377, R380: the state once pass 2 has written a group's new state, before its outcome. -/
def pass2Written (p g : Nat) (i : Item) (r : GroupRun) (s : State) : State :=
  let x := pass2 (whoOf p i) r s
  let q := x.2.2.1
  modRun p i.seq g (fun r => { r with
    sdw := orderedSum add64 0 q.dw, tally := q.tally, clipped := r.clipped || q.clipped })
    (flushItem p i.seq (addExcItem p i.seq (countExc q.exc) x.2.2.2))

theorem execUpdatePass2Complete_writes (phase : r.phase = .pass2)
    (aligned : (gSharded ((s.parcel p).group g) && gSkew ((s.parcel p).group g)) = false)
    (ok : (pass2 (whoOf p i) r s).1 = .ok) : execUpdatePass2Complete p g s =
    .next (refresh (if gSharded ((s.parcel p).group g) then voteReady p i g (pass2Written p g i r s)
      else finishGroup p i.seq g .done 0 true
        (modGroup p g (fun b => overlay b 4 (leBytes (gStep b + 1) 4)) (pass2Written p g i r s)))) := by
  unfold execUpdatePass2Complete
  rw [run]
  dsimp only
  rw [phase, ok]
  simp only [bne_self_eq_false, Bool.false_eq_true, if_false]
  by_cases sharded : gSharded ((s.parcel p).group g) = true
  · have near : gSkew ((s.parcel p).group g) = false := by simpa [sharded] using aligned
    rw [if_pos sharded, if_pos sharded, near]
    rfl
  · rw [if_neg sharded, if_neg sharded]
    rfl

theorem execSealWaitExpiry_aborts (sharded : gSharded ((s.parcel p).group g) = true) (phase : r.phase = .voted)
    (leads : gShard ((s.parcel p).group g) = 0)
    (past : sealWaitOver s p (8192 + g) i r ((s.parcel p).group g) ((List.range (gShards ((s.parcel p).group g))).filter
      (fun k => k != gShard ((s.parcel p).group g) && !(r.votes.map (·.1)).contains k)) = true) :
    execSealWaitExpiry p g s = .next (refresh (finishGroup p i.seq g .stepAborted 2 false s)) := by
  rw [leads] at past
  unfold execSealWaitExpiry
  rw [run]
  dsimp only
  rw [sharded, phase, leads, past]
  rfl

theorem execInDoubtQuery_asks (phase : r.phase = .inDoubt) (later : r.votedAt ≠ s.time.postmark + 1) :
    let ks := (List.range (gShards ((s.parcel p).group g))).filter (fun k => k != gShard ((s.parcel p).group g) &&
      !s.fed.lostMembers.contains (shardMember (s.parcel p) ((s.parcel p).group g) k % 16384))
    execInDoubtQuery p g s = .next (modRun p i.seq g (fun r => { r with votedAt := s.time.postmark + 1 })
      (ks.foldl (fun u k => sendShard p g k ftQuery 0 (gStep ((s.parcel p).group g) + 1) u) s)) := by
  intro ks
  have same : (ks.foldl (fun u k => sendShard p g k ftQuery 0 (gStep ((s.parcel p).group g) + 1) u) s).time = s.time :=
    (Ends.foldl (.refl s) fun _ _ sent => .sendShard sent).time
  unfold execInDoubtQuery
  rw [run]
  dsimp only
  rw [phase, beq_false_of_ne later]
  simp only [bne_self_eq_false, Bool.or_false, Bool.false_eq_true, if_false]
  dsimp only [ks] at same
  rw [same]

end

/-- R384: a journalled decision is applied in a frame head, in the order of the groups and after what was accepted before it. -/
theorem execSealCommitApply_applies {p g : Nat} {j : Journal} {s : State} (entry : journalOf (s.parcel p) g = some j)
    (commit : j.decision = some true) (open_ : j.applied = false) (earlier : j.at_ < s.time.postmark) (head : s.time.cycle < 1024)
    (lowest : ∀ k ∈ (s.parcel p).journal, k.decision = some true → k.applied = false → g ≤ k.group)
    (turn : ∀ c ∈ s.changes, c.1 < s.time.postmark → c.1 ≤ j.at_ → changeReady s c.2 = false) (folded : foldWaits s = false) :
    execSealCommitApply p g s = .next (refresh (applyCommit p g j s)) := by
  have due : (j.decision == some true && !j.applied && decide (j.at_ < s.time.postmark)) = true := by
    rw [commit, open_, decide_eq_true earlier]
    rfl
  have none_lower : (s.parcel p).journal.any (fun k => (k.decision == some true && !k.applied &&
      decide (k.at_ < s.time.postmark)) && decide (k.group < g)) = false := by
    refine List.any_eq_false.mpr fun k mem => ?_
    simp only [Bool.and_eq_true, beq_iff_eq, Bool.not_eq_true', decide_eq_true_eq, not_and, Nat.not_lt]
    exact fun ⟨⟨decided, fresh⟩, _⟩ => lowest k mem decided fresh
  have none_before : s.changes.any (fun c => decide (c.1 < s.time.postmark) && decide (c.1 ≤ j.at_) && changeReady s c.2) = false := by
    refine List.any_eq_false.mpr fun c mem => ?_
    simp only [Bool.and_eq_true, decide_eq_true_eq, not_and, Bool.not_eq_true]
    exact fun ⟨before, accepted⟩ => turn c mem before accepted
  unfold execSealCommitApply
  dsimp only
  rw [entry, Option.filter_some, if_pos due]
  dsimp only
  rw [none_lower, none_before, folded, inHead, decide_eq_true head]
  rfl

end Sys2Proof.Machine

open Sys2Proof Sys2Proof.Machine Sys2Proof.Claims

/-- Settles O37: each step of a group, from its conditions. -/
theorem updateStepsComplete : Obligations.UpdateStepsComplete := by
  unfold Obligations.UpdateStepsComplete
  refine ⟨fun p g i r s run => ?_, fun p g j s entry commit open_ earlier head lowest turn folded =>
    execSealCommitApply_applies entry commit open_ earlier head lowest turn folded⟩
  intro ge
  refine ⟨fun waits first thawed sound gate cool aligned below =>
      execUpdateGroupTakeUp_takes run waits first thawed sound gate cool aligned below,
    fun phase aligned => execUpdatePass1Complete_sums run phase aligned, fun sum phase known =>
      execUpdatePass2Start_starts run phase known, ?_,
    fun missing sharded phase leads isMissing past => ?_, fun phase later => execInDoubtQuery_asks run phase later⟩
  · intro phase aligned x q s1 ok
    exact execUpdatePass2Complete_writes run phase aligned ok
  · rw [isMissing] at past
    exact execSealWaitExpiry_aborts run sharded phase leads past
end

section
/-! SUPPORT. The work on parcels ends: the states of the parcels, and the logs of a parcel without tenancies (11 R408 to R411). -/

namespace Sys2Proof.Machine

theorem clearHalves_ends (k : Nat) (s : State) : Ends s (clearHalves k s) := .setCore (.refl s)

theorem zeroScratch_ends (k : Nat) (s : State) : Ends s (zeroScratch k s) := .setCore (.refl s)

theorem clearParcel_ends (p : Nat) (s : State) : Ends s (clearParcel p s) := by
  unfold clearParcel
  dsimp only
  exact .modParcel (.flushParcel (.foldl (.refl s) fun u k h => (h.trans (clearHalves_ends k u)).trans (zeroScratch_ends ..)))

/-- Every parcel stays in its state. -/
def StatesKept (s t : State) : Prop := ∀ q, (t.parcel q).state = (s.parcel q).state

namespace StatesKept

variable {s t u : State}

theorem refl (s : State) : StatesKept s s := fun _ => rfl

theorem of_parcels (k : StatesKept s t) (same : u.parcels = t.parcels := by rfl) : StatesKept s u := fun q => by
  unfold State.parcel
  rw [same]
  exact k q

theorem of_ends (k : StatesKept s t) (h : Ends t u) : StatesKept s u := fun q => (h.parcel q).1.trans (k q)

theorem foldl {α : Type} {f : State → α → State} {l : List α} (k : StatesKept s t)
    (h : ∀ u a, StatesKept s u → StatesKept s (f u a)) : StatesKept s (l.foldl f t) := by
  induction l generalizing t with
  | nil => exact k
  | cons a r ih => exact ih (h t a k)

theorem when {c : Prop} {_ : Decidable c} (a : StatesKept s t) (b : StatesKept s t → StatesKept s u) :
    StatesKept s (if c then u else t) := by
  split
  · exact b a
  · exact a

theorem modTen {p k : Nat} {f : Tenancy → Tenancy} (h : StatesKept s t) : StatesKept s (t.modTen p k f) :=
  h.of_ends (.modTen (.refl t))

theorem dropReply {tk : Ticket} (k : StatesKept s t) : StatesKept s (Machine.dropReply tk t) := by
  unfold Machine.dropReply
  split
  · exact k
  · exact k.of_parcels

theorem replyNow {tk : Ticket} {st : RStatus} {f : Bool} {b : List Byte} (k : StatesKept s t) :
    StatesKept s (Machine.replyNow tk st f b t) := k.of_ends (.of_replies (.refl t) (replyNow_replies ..))

theorem refuse {tk : Ticket} {st : RStatus} (k : StatesKept s t) : StatesKept s (Machine.refuse tk st t) :=
  k.of_ends (.reply (.refl t))

theorem deliverOne {p : Nat} {d : Delayed} (k : StatesKept s t) : StatesKept s (Machine.deliverOne p d t) := by
  cases d with
  | reply tk st b =>
    unfold Machine.deliverOne
    dsimp only
    split
    · exact k.dropReply
    · exact k.replyNow
  | irq n m => exact k.of_ends (.of_signals (.refl t) (setIrqNow_signals ..))
  | msg n j => exact k.of_ends (.of_signals (.refl t) (blockMsix_signals ..))
  | entry i c b f => exact k.modTen.of_ends (.eventsReadable (.drainRings (.refl _)))

theorem deliverAll {p : Nat} {l : List Delayed} (k : StatesKept s t) : StatesKept s (Machine.deliverAll p l t) := by
  have given : StatesKept s (l.foldl (fun s d => Machine.deliverOne p d s) t) := k.foldl fun _ _ h => h.deliverOne
  exact .foldl given.of_parcels fun _ _ h => h.deliverOne

theorem flushDelayed {p : Nat} (k : StatesKept s t) : StatesKept s (Machine.flushDelayed p t) :=
  .deliverAll k.of_parcels

theorem zeroLot {l : Nat} (k : StatesKept s t) : StatesKept s (Machine.zeroLot l t) := k.of_parcels

theorem resetClears {p : Nat} (k : StatesKept s t) : StatesKept s (Machine.resetClears p t) :=
  k.of_ends (.modParcel (clearParcel_ends p t))

theorem dropGrans {p : Nat} (k : StatesKept s t) : StatesKept s (Machine.dropGrans p t) :=
  k.of_ends (.foldl (.refl t) fun _ _ h => .zeroGran (.setGran h))

theorem dropHeld {n : Nat} (k : StatesKept s t) : StatesKept s (Machine.dropHeld n t) := by
  refine k.foldl fun u p h => h.foldl fun u i h => ?_
  dsimp only
  split
  · exact h
  · exact h.modTen.foldl fun _ _ h => h.dropReply

theorem endSession {n : Nat} (k : StatesKept s t) : StatesKept s (Machine.endSession n t) := by
  unfold Machine.endSession
  dsimp only
  split
  · exact k
  · have held : StatesKept s (Machine.dropHeld n (t.setBlock n { t.block n with
        session := none, itemRings := false, readStopped := false, open_ := 0 })) := k.of_parcels.dropHeld
    refine of_ends ?_ (.setIrq (.refl _))
    split
    · split
      · exact held
      · exact (held.modTen.foldl fun _ _ h => h.dropReply).when fun h => h.of_ends (.sealAnswer (.refl _))
    · exact held

theorem ringDiscard {p i : Nat} (k : StatesKept s t) : StatesKept s (Machine.ringDiscard p i t) := by
  unfold Machine.ringDiscard
  dsimp only
  split
  · exact k
  · exact k.modTen.of_ends (.recordP (.refl _))

theorem waits {w : List Wait} (k : StatesKept s t) : StatesKept s { t with fed := { t.fed with waits := w } } := k

theorem lapseWindows {p : Nat} (k : StatesKept s t) : StatesKept s (Machine.lapseWindows p t) := k

theorem endSpdm {e : Nat} (k : StatesKept s t) : StatesKept s (Machine.endSpdm e t) := k

end StatesKept

/-! Records of a parcel that has no tenancy (R553, R556). -/

theorem recordNow_parcels_unused {kind p : Nat} {s : State} (unused : (s.parcel p).inUse = []) (wide : kindTen kind ≠ 1)
    (t seq len : Nat) (a b : List Byte) : (recordNow kind p t seq len a b s).parcels = s.parcels := by
  unfold recordNow
  dsimp only
  have own : (if kindBmc kind then { logPf ⟨s.time.postmark, s.time.stamp, kind, p, t, len, 0, seq, a⟩ s with
      bmcLog := logAppend 1024 (operatorCopy (logPf ⟨s.time.postmark, s.time.stamp, kind, p, t, len, 0, seq, a⟩ s)
        ⟨s.time.postmark, s.time.stamp, kind, p, t, len, 0, seq, a⟩)
        (logPf ⟨s.time.postmark, s.time.stamp, kind, p, t, len, 0, seq, a⟩ s).bmcLog }
      else logPf ⟨s.time.postmark, s.time.stamp, kind, p, t, len, 0, seq, a⟩ s).parcels = s.parcels := by
    split <;> exact logPf_parcels _ s
  generalize (if kindBmc kind then _ else _) = u at own ⊢
  have none_ : (u.parcel p).inUse = [] := by
    unfold State.parcel at unused ⊢
    rw [own, unused]
  have narrow : (kindTen kind == 1) = false := beq_false_of_ne wide
  rw [none_, narrow]
  split
  · exact own
  · simpa using own

theorem unused_parcels {p : Nat} {s t : State} (unused : (s.parcel p).inUse = []) (same : t.parcels = s.parcels) :
    (t.parcel p).inUse = [] := by
  unfold State.parcel at unused ⊢
  rw [same, unused]

theorem satLogs_parcels_unused {ps : List Nat} {s : State} (unused : ∀ p ∈ ps, (s.parcel p).inUse = []) (n : Nat) (old : State) :
    (satLogs ps n old s).parcels = s.parcels := by
  induction n generalizing old s with
  | zero => rfl
  | succ n ih =>
    have records (l : List ((Nat × Nat × Nat × Nat) × (Nat × Nat × Nat × Nat))) {u : State} (at_ : ∀ x ∈ l, 48 ≤ x.1.1 ∨ x.1.1 ∈ ps)
        (same : u.parcels = s.parcels) :
        (l.foldl (fun s x => recordNow evSat x.1.1 x.1.2.1 0xFFFFFFFF 4 (leBytes 17 2 ++ leBytes x.1.2.2.1 2)
          (leBytes 17 2 ++ leBytes x.1.2.2.1 2) s) u).parcels = s.parcels := by
      induction l generalizing u with
      | nil => exact same
      | cons x r ih =>
        refine ih (fun y h => at_ y (List.mem_cons_of_mem _ h)) (.trans ?_ same)
        rcases at_ x List.mem_cons_self with none_ | own
        · exact recordNow_parcels none_ ..
        · exact recordNow_parcels_unused (unused_parcels (unused _ own) same) (by decide) ..
    unfold satLogs
    dsimp only
    split
    · rfl
    · have same := records (((lostCounts ps old).zip (lostCounts ps s)).filter (fun x =>
          x.1.2.2.2 + 1 != 2 ^ 48 && x.2.2.2.2 + 1 == 2 ^ 48)) (u := s) (fun x hit => ?_) rfl
      · exact (ih (fun p own => unused_parcels (unused p own) same) _).trans same
      · have logs := (List.of_mem_zip (List.mem_filter.mp hit).1).1
        simp only [lostCounts, List.mem_append, List.mem_cons, List.not_mem_nil, or_false, List.mem_flatMap, List.mem_map] at logs
        rcases logs with (h | h) | ⟨p, own, k, -, h⟩
        · exact .inl (h ▸ (by decide : 48 ≤ 255))
        · exact .inl (h ▸ (by decide : 48 ≤ 255))
        · exact .inr (h ▸ own)

/-- R553, R556: an event of a parcel without tenancies goes to no log of a parcel. -/
theorem recordP_parcels_unused {kind p : Nat} {s : State} (unused : (s.parcel p).inUse = []) (wide : kindTen kind ≠ 1)
    (t seq len : Nat) (a b : List Byte) : (recordP kind p t seq len a b s).parcels = s.parcels := by
  have same := recordNow_parcels_unused unused wide t seq len a b
  unfold recordP
  rw [satLogs_parcels_unused _ _ _, same]
  split
  · simp
  · intro q own
    rw [List.mem_singleton.mp own]
    exact unused_parcels unused same

/-! The release of a parcel (R411). -/

/-- R411: a parcel to be released, before the event that says so. -/
def releaseClears (p : Nat) (s : State) : State :=
  let x := s.parcel p
  let s := flushDelayed p s
  let s := dropGrans p (resetClears p s)
  let s := ((s.parcel p).lots.map (fun e => e.2.lot)).foldl (fun s l => zeroLot l s) s
  let s := (x.inUse.map (fun t => (x.ten t).mailbox)).foldl (fun s n =>
    if blockFn s n == 0 then endSession n s else endSpdm n (endSession n s)) s
  let s := lapseWindows p s
  let left := x.inUse.flatMap (fun t => ((s.parcel p).ten t).held)
  let s := left.foldl (fun s h => refuse h.tk .badParcel s) s
  let s := flushDelayed p s
  let s := x.inUse.foldl (fun s t => ringDiscard p t s) s
  { s with fed := { s.fed with waits := s.fed.waits.filter (fun w => w.parcel != p) } }

theorem releaseClears_states (p : Nat) (s : State) : StatesKept s (releaseClears p s) := by
  have cleared := (StatesKept.refl s).flushDelayed (p := p) |>.resetClears (p := p) |>.dropGrans (p := p)
  unfold releaseClears
  dsimp only
  refine .waits (.foldl (.flushDelayed (.foldl (.lapseWindows (.foldl (.foldl cleared fun _ _ h => h.zeroLot)
    fun u n h => ?_)) fun _ _ h => h.refuse)) fun _ _ h => h.ringDiscard)
  split
  · exact h.endSession
  · exact h.endSession.endSpdm

end Sys2Proof.Machine
end

section
/-! SUPPORT. The ends of a parcel's work, the cadastre's bytes and a tenancy's saved state (11 R394 to R417, 12 R449, R460). -/

namespace Sys2Proof.Machine

/-! What each end of work leaves of its command. -/

theorem execParcelCreateDone_starts {p : Nat} {tk : Ticket} {s : State} (work : (s.parcel p).work = .creating tk) :
    execParcelCreateDone p s = .next (refresh (reply tk .ok (leBytes p 2) (cad (parcelStarts p s.time.postmark
      (((s.parcel p).lots.map (fun e => e.2.lot)).foldl (fun s l => zeroLot l s) s))))) := by
  have time : (((s.parcel p).lots.map (fun e => e.2.lot)).foldl (fun s l => zeroLot l s) s).time = s.time :=
    foldl_keeps (f := fun s l => zeroLot l s) (g := State.time) (fun _ _ => rfl) _ s
  unfold execParcelCreateDone
  rw [work]
  dsimp only
  rw [time]
  rfl

/-- R410: a parcel that has been reset, before a tenancy runs in it again. -/
def resetCleared (p : Nat) (prior : PState) (y : State) : State :=
  askSeal p ((resetClears p y).modParcel p (fun x => { x with state := prior, work := .none }))

/-- R410, R416: the position that runs after a reset: the given one, or the lowest in use. -/
def pickUsed (x : Parcel) (n : Nat) : Nat := if x.inUse.contains n then n else ((x.inUse.head?).getD 0)

theorem pickUsed_of_mem {x : Parcel} {n : Nat} (used : n ∈ x.inUse) : pickUsed x n = n :=
  if_pos (List.contains_iff_mem.mpr used)

theorem execParcelResetDone_returns {p : Nat} {tk : Ticket} {prior : PState} {inc : Option Nat} {s y : State}
    (work : (s.parcel p).work = .resetting tk prior inc) (turn : turnIn s (Change.resets p) = some y)
    (done : (s.parcel p).items = []) : execParcelResetDone p s = .next (refresh (reply tk .ok [] (match inc with
      | some n => restoreTen p (pickUsed (s.parcel p) n) (resetCleared p prior y)
      | none => cad (startSlice p (pickUsed (s.parcel p) (s.parcel p).running) (resetCleared p prior y))))) := by
  unfold execParcelResetDone
  dsimp only
  split
  · next same =>
    cases same.symm.trans work
    rw [turn, done]
    cases inc <;> rfl
  · next other => exact absurd work (other _ _ _)

/-- R449: a parcel that has been sealed, before its commands are answered. -/
def sealApplied (p : Nat) (y : State) : State :=
  cad (y.modParcel p (fun x => { x with
    state := .isSealed, sealPending := false, sealedAt := y.time.postmark, coarse := parcelTotals x
    tenancies := x.tenancies.map (fun e => (e.1, { e.2 with seals := [] })) }))

theorem execParcelSealApply_seals {p : Nat} {s y : State} (asked : (s.parcel p).sealPending = true)
    (active : (s.parcel p).state = .active) (free : operatorHeld (s.parcel p) = false)
    (turn : turnIn s (Change.seals p) = some y) : execParcelSealApply p s = .next (refresh
      (((s.parcel p).inUse.flatMap (fun t => ((s.parcel p).ten t).seals)).foldl
        (fun s tk => deliverOne p (.reply tk .ok []) s) (sealApplied p y))) := by
  unfold execParcelSealApply
  dsimp only
  rw [asked, active, free, turn]
  rfl

theorem deliverOne_reply_parcels (p : Nat) (tk : Ticket) (st : RStatus) (b : List Byte) (s : State) :
    (deliverOne p (.reply tk st b) s).parcels = s.parcels := by
  unfold deliverOne
  dsimp only
  split
  · unfold dropReply
    split <;> rfl
  · rw [(replyNow_replies tk st _ b s).rest]

theorem sealApplied_parcel (p : Nat) (y : State) : ((sealApplied p y).parcel p).state = .isSealed ∧
    ((sealApplied p y).parcel p).sealPending = false ∧ ((sealApplied p y).parcel p).sealedAt = y.time.postmark ∧
    ((sealApplied p y).parcel p).coarse = parcelTotals (y.parcel p) := by
  have here : (sealApplied p y).parcel p = { y.parcel p with
      state := .isSealed, sealPending := false, sealedAt := y.time.postmark, coarse := parcelTotals (y.parcel p)
      tenancies := (y.parcel p).tenancies.map (fun e => (e.1, { e.2 with seals := [] })) } := by
    unfold sealApplied State.parcel
    rw [cad_parcels]
    simp [State.modParcel, State.setParcel, State.parcel]
  rw [here]
  exact ⟨rfl, rfl, rfl, rfl⟩

theorem execParcelSealApply_leaves {p : Nat} {s y : State} (asked : (s.parcel p).sealPending = true)
    (active : (s.parcel p).state = .active) (free : operatorHeld (s.parcel p) = false)
    (turn : turnIn s (Change.seals p) = some y) : ∃ t, execParcelSealApply p s = .next t ∧ (t.parcel p).state = .isSealed ∧
      (t.parcel p).sealPending = false ∧ (t.parcel p).sealedAt = s.time.postmark ∧
      (t.parcel p).coarse = parcelTotals (s.parcel p) := by
  refine ⟨_, execParcelSealApply_seals asked active free turn, ?_⟩
  obtain ⟨-, time, parcels⟩ := turnIn_eqs turn
  have same : s.parcel p = y.parcel p := by
    unfold State.parcel
    rw [parcels]
  have left (tks : List Ticket) : (refresh (tks.foldl (fun s tk => deliverOne p (.reply tk .ok []) s) (sealApplied p y))).parcel p =
      (sealApplied p y).parcel p := by
    unfold State.parcel
    rw [refresh_parcels, foldl_keeps (g := State.parcels) fun s tk => deliverOne_reply_parcels p tk .ok [] s]
  rw [left, ← time, same]
  exact sealApplied_parcel p y

/-- R411: how many lots a parcel that is released has had written. -/
def releasedLots (p : Nat) (s : State) : List Byte :=
  leBytes (((dropGrans p (resetClears p (flushDelayed p s))).parcel p).lots.map (fun e => e.2.lot)).length 4

/-- R411: a parcel that has been released, before the command is answered. -/
def released (p : Nat) (x : Parcel) (y : State) : State :=
  recordP evScrub p 0xFF 0xFFFFFFFF 4 (releasedLots p y) (releasedLots p y) ((releaseClears p y).setParcel p x)

theorem execParcelReleaseDone_releases {p : Nat} {tk : Ticket} {s y : State} (work : (s.parcel p).work = .releasing tk)
    (turn : turnIn s (Change.releases p) = some y) (done : (s.parcel p).items = []) :
    execParcelReleaseDone p s = .next (refresh (reply tk .ok [] (cad (released p {} y)))) := by
  have same : s.parcel p = y.parcel p := by
    unfold State.parcel
    rw [(turnIn_eqs turn).2.2]
  unfold execParcelReleaseDone
  dsimp only
  rw [work]
  dsimp only
  rw [turn, done, same]
  rfl

theorem released_parcels (p : Nat) (y : State) : (released p {} y).parcels = ((releaseClears p y).setParcel p {}).parcels := by
  have unused : (((releaseClears p y).setParcel p {}).parcel p).inUse = [] := by
    have here : ((releaseClears p y).setParcel p {}).parcel p = {} := by simp [State.setParcel, State.parcel]
    rw [here]
    decide
  exact recordP_parcels_unused unused (by decide) ..

theorem execParcelReleaseDone_leaves {p : Nat} {tk : Ticket} {s y : State} (work : (s.parcel p).work = .releasing tk)
    (turn : turnIn s (Change.releases p) = some y) (done : (s.parcel p).items = []) :
    ∃ t, execParcelReleaseDone p s = .next t ∧ t.parcel p = {} ∧ ∀ q, q < 48 → q ≠ p → (t.parcel q).state = (s.parcel q).state := by
  refine ⟨_, execParcelReleaseDone_releases work turn done, ?_⟩
  have left (q : Nat) : (refresh (reply tk .ok [] (cad (released p {} y)))).parcel q = ((releaseClears p y).setParcel p {}).parcel q := by
    unfold State.parcel
    rw [refresh_parcels, (reply_replies tk .ok [] _).parcels, cad_parcels, released_parcels]
  refine ⟨?_, fun q _ other => ?_⟩
  · rw [left]
    simp [State.setParcel, State.parcel]
  · have same : y.parcel q = s.parcel q := by
      unfold State.parcel
      rw [(turnIn_eqs turn).2.2]
    rw [left, ← same, ← releaseClears_states p y q]
    simp [State.setParcel, State.parcel, other]

theorem execSealedDelivery_delivers {p : Nat} {s : State} (head : s.time.cycle < 1024) :
    let due (d : Nat × Nat × Delayed) : Bool := d.1 == p && decide (d.2.1 < s.time.postmark)
    execSealedDelivery p s = .next (refresh (deliverAll p ((s.delayed.filter due).map (·.2.2))
      { s with delayed := s.delayed.filter (fun d => !due d) })) := by
  unfold execSealedDelivery
  rw [inHead, decide_eq_true head]
  rfl

/-- R43: a change that no command of this session asked for waits for the frame head alone. -/
theorem turnIn_unasked {k : Change → Bool} {s : State} (head : s.time.cycle < 1024) (folded : foldWaits s = false)
    (none_ : ∀ c ∈ s.changes, k c.2 = false) : turnIn s k = some s := by
  have unasked : s.changes.any (fun c => k c.2) = false := List.any_eq_false.mpr fun c own => by simp [none_ c own]
  unfold turnIn
  rw [unasked, folded, inHead, decide_eq_true head]
  rfl

/-! The bytes of a copy of the cadastre (R394 to R396) and of a saved state (R417). -/

theorem length_tenDesc (t : Tenancy) : (tenDesc t).length = 16 := by simp [tenDesc]

theorem length_entryOf (p : Nat) (x : Parcel) (lost : Nat → Bool) : (entryOf p x lost).length = 5632 := by
  simp [entryOf, length_flatMap_of_length (n := 16) (fun t => length_tenDesc _),
    length_flatMap_of_length (n := 4) (fun j => length_leBytes _ 4)]

theorem length_cadHeader (c : CadCopy) (crc : Nat) : (cadHeader c crc).length = 64 := by simp [cadHeader]

theorem length_cadEntries {c : CadCopy} (whole : ∀ e ∈ c.image, e.2.length = 5632) : (cadEntries c).length = 270336 := by
  have each (p : Nat) : ((tblGet c.image p).getD (freeEntry p)).length = 5632 := by
    unfold tblGet
    cases found : c.image.find? (fun e => e.1 == p) with
    | none => exact length_entryOf p {} (fun _ => false)
    | some e => exact whole e (List.mem_of_find?_eq_some found)
  unfold cadEntries
  rw [length_flatMap_of_length each, List.length_range]

/-- R395: the header of a copy but for its CRC. -/
theorem cadHeader_crc (c : CadCopy) (crc : Nat) : (cadHeader c crc).take 16 = (cadHeader c 0).take 16 ∧
    (cadHeader c crc).drop 20 = (cadHeader c 0).drop 20 := by
  have cut (crc : Nat) : cadHeader c crc =
      (leBytes 0x41444143 4 ++ leBytes 1 2 ++ leBytes c.image.length 2 ++ leBytes c.generation 8) ++ (leBytes crc 4 ++ zeros 44) := by
    simp [cadHeader]
  have front : (leBytes 0x41444143 4 ++ leBytes 1 2 ++ leBytes c.image.length 2 ++ leBytes c.generation 8).length = 16 := by simp
  rw [cut crc, cut 0]
  constructor
  · rw [List.take_left' front, List.take_left' front]
  · have past (crc : Nat) := List.drop_append (l₁ := leBytes 0x41444143 4 ++ leBytes 1 2 ++ leBytes c.image.length 2 ++
      leBytes c.generation 8) (l₂ := leBytes crc 4 ++ zeros 44) (i := 20)
    rw [past, past, front, List.drop_left' (length_leBytes crc 4), List.drop_left' (length_leBytes 0 4)]

theorem cadBytes_crc (c : CadCopy) : crc32c ((cadBytes c).take 16 ++ (cadBytes c).drop 20) = cadCrc c := by
  obtain ⟨front, rest⟩ := cadHeader_crc c (cadCrc c)
  have size := length_cadHeader c (cadCrc c)
  unfold cadBytes
  rw [List.take_append_of_le_length (by omega), List.drop_append_of_le_length (by omega), front, rest, ← List.append_assoc]
  rfl

theorem cadBytes_fields {c : CadCopy} (whole : ∀ e ∈ c.image, e.2.length = 5632) : let b := cadBytes c
    b.length = 270400 ∧ le b 0 4 = 0x41444143 ∧ le b 4 2 = 1 ∧ le b 6 2 = c.image.length % 65536 ∧
      le b 8 8 = c.generation % 2 ^ 64 ∧ le b 16 4 = crc32c (b.take 16 ++ b.drop 20) % 2 ^ 32 := by
  intro b
  have cut : b = leBytes 0x41444143 4 ++ (leBytes 1 2 ++ (leBytes c.image.length 2 ++ (leBytes c.generation 8 ++
      (leBytes (cadCrc c) 4 ++ (zeros 44 ++ cadEntries c))))) := by
    simp [b, cadBytes, cadHeader]
  refine ⟨?_, ?_, ?_, ?_, ?_, ?_⟩
  · rw [show b.length = (cadHeader c (cadCrc c)).length + (cadEntries c).length from List.length_append,
      length_cadHeader, length_cadEntries whole]
  · rw [cut, le_leBytes]
    norm_num
  · rw [cut, le_leBytes_skip (by omega), le_leBytes]
    norm_num
  · rw [cut, le_leBytes_skip (by omega), le_leBytes_skip (by omega), le_leBytes]
    norm_num
  · rw [cut, le_leBytes_skip (by omega), le_leBytes_skip (by omega), le_leBytes_skip (by omega), le_leBytes]
    norm_num
  · rw [cadBytes_crc, cut, le_leBytes_skip (by omega), le_leBytes_skip (by omega), le_leBytes_skip (by omega),
      le_leBytes_skip (by omega), le_leBytes]
    norm_num

theorem length_savedState (s : State) (p t : Nat) : (savedState s p t).length = 256 := by simp [savedState]

end Sys2Proof.Machine

open Sys2Proof Sys2Proof.Machine Sys2Proof.Claims

/-- Settles O35: what the end of each kind of work leaves, and the layouts of the stored copies. -/
theorem parcelEventsComplete : Obligations.ParcelEventsComplete := by
  unfold Obligations.ParcelEventsComplete
  refine ⟨fun p s => ?_, fun k s head folded none_ => turnIn_unasked head folded none_, fun c whole => cadBytes_fields whole,
    length_savedState⟩
  intro x
  refine ⟨fun tk work => execParcelCreateDone_starts work, fun tk prior inc y work turn done => ?_,
    fun tk y work turn done => execParcelReleaseDone_leaves work turn done,
    fun y asked active free turn => execParcelSealApply_leaves asked active free turn,
    fun head => execSealedDelivery_delivers head⟩
  intro z
  have runs := execParcelResetDone_returns work turn done
  refine ⟨?_, ?_⟩
  · rintro rfl used
    rw [pickUsed_of_mem used] at runs
    exact runs
  · rintro n rfl used
    dsimp only at runs
    rw [pickUsed_of_mem used] at runs
    exact runs
end

section
/-! SUPPORT. The management sideband (16 R583 to R586). -/

namespace Sys2Proof.Machine

theorem execSensorUpdate_reads {s : State} (good : s.power.good = true) : execSensorUpdate s = .next { s with telem := readSensors s } :=
  if_pos good

theorem execTelemetryWindowUpdate_writes {s : State} (ready : s.power.ready = true) (head : s.time.cycle < 1024) :
    execTelemetryWindowUpdate s = .next { s with telem := { s.telem with window := windowRegs s } } := by
  unfold execTelemetryWindowUpdate
  rw [ready, inHead, decide_eq_true head]
  rfl

/-- R585: the average of a sensor's samples, or its last one. -/
theorem averageOf_eq (k last : Nat) (s : State) : averageOf s k last = match tblGet s.telem.acc k with
    | some (sum, n) => if n = 0 then last else sum / n
    | none => last := by
  unfold averageOf
  cases tblGet s.telem.acc k with
  | none => rfl
  | some e => simp only [beq_iff_eq]

section
variable {msg : List Byte} {s : State} (up : sideUp s = true) (request : bit (le msg 0 1) 7 = true)
include up request

theorem execPldmRequest_answers (whole : 3 ≤ msg.length) : execPldmRequest msg s = match le msg 1 1 % 64 with
    | 0 => .next (pldmBase msg s)
    | 2 => .next (pldmPlatform msg s)
    | _ => .next (pldmOut msg 0x20 [] s) := by
  unfold execPldmRequest
  rw [up, request, decide_eq_false (Nat.not_lt.mpr whole)]
  rfl

theorem execPldmRequest_base (whole : 3 ≤ msg.length) (type : le msg 1 1 % 64 = 0) :
    execPldmRequest msg s = .next (pldmBase msg s) := by
  rw [execPldmRequest_answers up request whole, type]
  rfl

theorem execPldmRequest_platform (whole : 3 ≤ msg.length) (type : le msg 1 1 % 64 = 2) :
    execPldmRequest msg s = .next (pldmPlatform msg s) := by
  rw [execPldmRequest_answers up request whole, type]
  rfl

theorem execPldmRequest_other (whole : 3 ≤ msg.length) (base : le msg 1 1 % 64 ≠ 0) (platform : le msg 1 1 % 64 ≠ 2) :
    execPldmRequest msg s = .next (pldmOut msg 0x20 [] s) := by
  rw [execPldmRequest_answers up request whole]
  split
  · next h => exact absurd h base
  · next h => exact absurd h platform
  · rfl

theorem execMctpControl_assigns (whole : 2 ≤ msg.length) (code : le msg 1 1 = 1) (op : le msg 2 1 % 4 ≠ 2) :
    execMctpControl msg s = .next (mctpOut msg 0 (pay [(0, 1), (le msg 3 1, 1), (0, 1)])
      { s with telem := { s.telem with eid := le msg 3 1 } }) := by
  unfold execMctpControl
  rw [up, request, decide_eq_false (Nat.not_lt.mpr whole), code]
  dsimp only
  rw [beq_false_of_ne op]
  rfl

theorem execMctpControl_resets (whole : 2 ≤ msg.length) (code : le msg 1 1 = 1) (op : le msg 2 1 % 4 = 2) :
    execMctpControl msg s = .next (refresh (mctpOut msg 0 (pay [(0, 1), (0, 1), (0, 1)])
      (endBmcSession { s with telem := { s.telem with eid := 0 } }))) := by
  unfold execMctpControl
  rw [up, request, decide_eq_false (Nat.not_lt.mpr whole), code]
  dsimp only
  rw [op]
  rfl

theorem execMctpControl_tells (whole : 2 ≤ msg.length) (code : le msg 1 1 = 2) :
    execMctpControl msg s = .next (mctpOut msg 0 (pay [(s.telem.eid, 1), (0, 1), (0, 1)]) s) := by
  unfold execMctpControl
  rw [up, request, decide_eq_false (Nat.not_lt.mpr whole), code]
  rfl

end

theorem pldmBase_tid {msg : List Byte} (code : le msg 2 1 = 2) (s : State) :
    pldmBase msg s = pldmOut msg 0 (leBytes s.telem.tid 1) s := by
  unfold pldmBase
  rw [code]
  rfl

theorem pldmPlatform_numeric {msg : List Byte} {v : Nat} {s : State} (code : le msg 2 1 = 0x11)
    (reading : numericSensor s.telem (le msg 3 2) = some v) : pldmPlatform msg s =
    pldmOut msg 0 ([2, 0] ++ slice (sideFree 1 msg s).1 0 4 ++ leBytes v 2) { s with free := s.free + 1 } := by
  unfold pldmPlatform
  rw [code]
  dsimp only
  rw [reading]
  rfl

theorem pldmPlatform_state {msg : List Byte} {v : Nat} {s : State} (code : le msg 2 1 = 0x21)
    (reading : stateSensor s.telem (le msg 3 2) = some v) : pldmPlatform msg s =
    pldmOut msg 0 (pay [(1, 1), (0, 1), (v, 1)] ++ slice (sideFree 1 msg s).1 0 2) { s with free := s.free + 1 } := by
  unfold pldmPlatform
  rw [code]
  dsimp only
  rw [reading]
  rfl

/-- R467: an endpoint reset ends the controller's session. -/
theorem execMctpControl_ends {msg : List Byte} {s : State} (up : sideUp s = true) (request : bit (le msg 0 1) 7 = true)
    (whole : 2 ≤ msg.length) (code : le msg 1 1 = 1) (op : le msg 2 1 % 4 = 2) :
    ∃ t, execMctpControl msg s = .next t ∧ t.bmcSession = none ∧ t.telem.eid = 0 := by
  refine ⟨_, execMctpControl_resets up request whole code op, ?_, ?_⟩ <;> rw [(refresh_signals _).rest] <;> rfl

end Sys2Proof.Machine

open Sys2Proof Sys2Proof.Machine Sys2Proof.Claims

/-- Settles O51: the readings, the window and the answers, each from its conditions. -/
theorem sidebandCompletes : Obligations.SidebandCompletes := by
  unfold Obligations.SidebandCompletes
  refine ⟨fun s good => execSensorUpdate_reads good, averageOf_eq, fun s ready head => execTelemetryWindowUpdate_writes ready head,
    fun msg s up whole request => ⟨fun type code => ?_, fun v type code reading => ?_, fun v type code reading => ?_,
      fun base platform => execPldmRequest_other up request whole base platform⟩,
    fun msg s up whole request => ⟨fun code op => execMctpControl_assigns up request whole code op,
      fun code op => execMctpControl_ends up request whole code op, fun code => execMctpControl_tells up request whole code⟩⟩
  · rw [← pldmBase_tid code]
    exact execPldmRequest_base up request whole type
  · exact ⟨_, (execPldmRequest_platform up request whole type).trans (congrArg _ (pldmPlatform_numeric code reading))⟩
  · exact ⟨_, (execPldmRequest_platform up request whole type).trans (congrArg _ (pldmPlatform_state code reading))⟩
end

section
/-! SUPPORT. Writes of mailbox registers (13 R467, R474, R475, R486, R491, 15 R555). -/

namespace Sys2Proof.Machine

theorem regRow_takes {fn n : Nat} {s : State} (open_ : regOpen s fn n = true) (f : State → State) :
    regRow fn n f s = .next (refresh (f s)) := if_pos open_

section
variable {n v : Nat} {s : State}

theorem wrDoorbell_takes (on : (s.block n).enable = true) (free : (s.block n).inlineBusy = false) (rung : bit v 0 = true) :
    wrDoorbell n v s = zRun dispatch { block := n, env := (s.block n).inlineReq } s := by
  unfold wrDoorbell
  dsimp only
  rw [on, free, rung]
  rfl

theorem wrDoorbell_busy (on : (s.block n).enable = true) (busy : (s.block n).inlineBusy = true) (rung : bit v 0 = true) :
    wrDoorbell n v s = setIrq n 64 s := by
  unfold wrDoorbell
  dsimp only
  rw [on, busy, rung]
  rfl

theorem wrReqTail_moves {q : Ring} (moves : (s.block n).req.moveTail v = some q) :
    wrReqTail n v s = s.setBlock n { s.block n with req := q, readStopped := false } := by
  unfold wrReqTail setReqTail
  rw [moves]
  rfl

theorem wrReqTail_refused (refused : (s.block n).req.moveTail v = none) : wrReqTail n v s = setIrq n 64 s := by
  unfold wrReqTail setReqTail
  rw [refused]
  rfl

/-- As for `Keeps.wrEnvTail`: the kernel would compute the place in the ring. -/
theorem wrEnvTail_moves {q : Ring} (moves : (s.block n).env.moveTail v = some q) :
    wrEnvTail n v s = takeSlots n 256 (s.setBlock n { s.block n with env := q }) := by
  obtain ⟨row, rule⟩ : ∃ row, row = @wrEnvTail := ⟨_, rfl⟩
  rw [← rule]
  delta wrEnvTail at rule
  subst rule
  beta_reduce
  rw [moves]

/-- R409: the tenancy that a block is bound to does not depend on the blocks. -/
theorem boundTo_setBlock (s : State) (n m : Nat) (b : MBlock) : boundTo (s.setBlock m b) n = boundTo s n := rfl

/-- As for `Keeps.wrCplHead`. -/
theorem wrCplHead_moves {q : Ring} {p t : Nat} (moves : (s.block n).cpl.moveHead v = some q) (bound : boundTo s n = some (p, t)) :
    wrCplHead n v s = drainCpl p t n ((s.parcel p).ten t).cplQ.length (s.setBlock n { s.block n with cpl := q, cplStopped := false }) := by
  obtain ⟨row, rule⟩ : ∃ row, row = @wrCplHead := ⟨_, rfl⟩
  rw [← rule]
  delta wrCplHead at rule
  subst rule
  beta_reduce
  rw [moves]
  dsimp only
  rw [boundTo_setBlock, bound]
  rfl

/-- As for `Keeps.wrDlrHead`. -/
theorem wrDlrHead_moves {q : Ring} {p t : Nat} (moves : (s.block n).dlr.moveHead v = some q) (bound : boundTo s n = some (p, t)) :
    wrDlrHead n v s = drainRings p t (s.setBlock n { s.block n with dlr := q, dlrStopped := false }) := by
  obtain ⟨row, rule⟩ : ∃ row, row = @wrDlrHead := ⟨_, rfl⟩
  rw [← rule]
  delta wrDlrHead at rule
  subst rule
  beta_reduce
  rw [moves]
  dsimp only
  rw [boundTo_setBlock, bound]

theorem wrCtrl_on (on : bit v 0 = true) : wrCtrl n v s = takeSlots n 256 (s.setBlock n { s.block n with enable := true }) :=
  if_pos on

theorem wrCtrl_off (off : bit v 0 = false) : wrCtrl n v s = (endSession n s).modBlock n (fun b => { b with enable := false }) := by
  unfold wrCtrl
  rw [off]
  rfl

/-- R12: a one clears the bit, but for a bit that hardware sets in the same cycle. -/
theorem wrIrqStatus_clears (w : W1c) : ∃ x, wrIrqStatus n w s = s.setBlock n { s.block n with irqStatus := x } ∧
    ∀ k, k < 8 → bit x k = (bit (s.block n).irqStatus k && (!bit w.v k || bit w.hw k)) := by
  refine ⟨_, rfl, fun k within => ?_⟩
  rw [bit_mapOf]
  simp [bitsSet, within, Bool.and_comm]

theorem wrEvlogHead_eq : wrEvlogHead v s = if s.pfLog.head ≤ v ∧ v ≤ s.pfLog.tail then
    { s with pfLog := { s.pfLog with head := v } } else s := by
  unfold wrEvlogHead
  by_cases within : s.pfLog.head ≤ v ∧ v ≤ s.pfLog.tail
  · rw [if_pos within, decide_eq_false (Nat.not_lt.mpr within.1), decide_eq_false (Nat.not_lt.mpr within.2)]
    rfl
  · have outside : (decide (v < s.pfLog.head) || decide (s.pfLog.tail < v)) = true := by
      rw [Bool.or_eq_true, decide_eq_true_eq, decide_eq_true_eq]
      omega
    rw [if_neg within, if_pos outside]

end

end Sys2Proof.Machine

open Sys2Proof Sys2Proof.Machine Sys2Proof.Claims

/-- Settles O52: each write of an open block is its register's effect and a look at the status registers. -/
theorem mailboxWritesComplete : Obligations.MailboxWritesComplete := by
  unfold Obligations.MailboxWritesComplete
  refine fun fn n v s => ⟨fun open_ => ?_, fun up => ?_⟩
  · have row (f : State → State) {t : State} (same : f s = t) : regRow fn n f s = .next (refresh t) :=
      (regRow_takes open_ f).trans (by rw [same])
    intro b
    refine ⟨fun on free rung => row _ (wrDoorbell_takes on free rung), fun on busy rung => row _ (wrDoorbell_busy on busy rung),
      fun q moves => row _ (wrReqTail_moves moves), fun refused => row _ (wrReqTail_refused refused),
      fun q moves => row _ (wrEnvTail_moves moves), fun q p t moves bound => row _ (wrCplHead_moves moves bound),
      fun q p t moves bound => row _ (wrDlrHead_moves moves bound), fun on => row _ (wrCtrl_on on),
      fun off => row _ (wrCtrl_off off), fun w => ?_, row _ rfl⟩
    obtain ⟨x, writes, bits⟩ := wrIrqStatus_clears (n := n) (s := s) w
    exact ⟨x, row _ writes, bits⟩
  · have written : exec (.evlogHeadWrite v) s = .next (wrEvlogHead v s) := congrArg _ (if_pos up)
    rw [written, wrEvlogHead_eq]
end

section
/-! SUPPORT. Courier frames (14 R511 to R531). -/

namespace Sys2Proof.Machine

/-! A frame on a channel is opened, counted and handed on (R510, R522 to R524). -/

/-- A frame of a type has come for the package, and the channel that it names opens it: its bytes, parcel, channel and payload,
and the state that the opening leaves. -/
structure Opens (fr : CFrame) (ty : Nat) (s : State) (b : List Byte) (p ch : Nat) (body : List Byte) (y : State) : Prop where
  bytes : (received s fr).bytes = b
  parcel : fParcel b = p
  chan : fChan b = ch
  ours : forUs s (received s fr) ty = true
  live : (s.parcel p).state ≠ .free
  opens : openFrame p ch b s = (some body, y)

/-- R522, R528: the rank of a frame's source on its channel. -/
def rankOf (c : Channel) (src : Nat) (data : Bool) : Option Nat :=
  if c.kind = 1 then (if c.peerMember = src then some 0 else none) else srcRank c src data

/-- The kind of a channel is kept when a frame on it is opened. -/
theorem openFrame_kind {p ch : Nat} {b body : List Byte} {s y : State} (opens : openFrame p ch b s = (some body, y)) :
    ((y.parcel p).chan ch).kind = ((s.parcel p).chan ch).kind := by
  unfold openFrame at opens
  dsimp only at opens
  split at opens
  · split at opens
    · cases opens
    · split at opens
      · cases opens
      · cases opens
        rfl
  · split at opens
    · cases opens
    · split at opens
      · cases opens
      · split at opens
        · cases opens
        · cases opens
          simp [State.modParcel, State.setParcel, State.parcel, Parcel.chan]

theorem LogsOnly.chan {s t : State} (h : LogsOnly s t) (p ch : Nat) : (t.parcel p).chan ch = (s.parcel p).chan ch := by
  have same := congrArg Parcel.channels (h.rest p)
  exact congrArg (fun l : Tbl Channel => (tblGet l ch).getD {}) same

theorem satEvent_logs (p t seq code idx : Nat) (s : State) : LogsOnly s (satEvent p t seq code idx s) := recordP_logs ..

theorem modParcel_chan (p ch : Nat) (c : Channel) (s : State) :
    ((s.modParcel p (fun x => { x with channels := tblPut x.channels ch c })).parcel p).chan ch = c := by
  simp [State.modParcel, State.setParcel, State.parcel, Parcel.chan]

theorem countFrame_kind (p ch : Nat) (s : State) :
    (((countFrame p ch false s).parcel p).chan ch).kind = ((s.parcel p).chan ch).kind := by
  unfold countFrame
  simp only [Bool.false_eq_true, if_false]
  split
  · rw [(satEvent_logs ..).chan, modParcel_chan]
  · rw [modParcel_chan]

namespace Opens

variable {fr : CFrame} {ty p ch k : Nat} {b body : List Byte} {s y : State} {kinds : List Nat}

theorem onChannel (h : Opens fr ty s b p ch body y) (f : List Byte → Nat → Nat → Nat → List Byte → State → State)
    (kind : ((s.parcel p).chan ch).kind ∈ kinds) (rank : rankOf ((s.parcel p).chan ch) (fSrc b) (ty == 0x01) = some k) :
    onChannel fr ty kinds f s = .next (refresh (f b p ch k body (countFrame p ch false y))) := by
  obtain ⟨rfl, rfl, rfl, ours, live, opens⟩ := h
  unfold rankOf at rank
  unfold Machine.onChannel
  generalize received s fr = g at *
  dsimp only
  rw [ours]
  simp only [Bool.not_true, Bool.false_eq_true, if_false, beq_iff_eq, ftData]
  rw [rank]
  dsimp only
  rw [beq_false_of_ne live, List.contains_iff_mem.mpr kind, opens]
  rfl

theorem counted_kind (h : Opens fr ty s b p ch body y) :
    (((countFrame p ch false y).parcel p).chan ch).kind = ((s.parcel p).chan ch).kind :=
  (countFrame_kind ..).trans (openFrame_kind h.opens)

/-! POINT channels (R524, R525). -/

section
variable (point : ((s.parcel p).chan ch).kind = 1) (peer : ((s.parcel p).chan ch).peerMember = fSrc b)
include point peer

theorem onPoint (h : Opens fr ty s b p ch body y) (f : List Byte → Nat → Nat → Nat → List Byte → State → State) (own : 1 ∈ kinds) :
    Machine.onChannel fr ty kinds f s = .next (refresh (f b p ch 0 body (countFrame p ch false y))) :=
  h.onChannel f (point ▸ own) (by rw [rankOf, if_pos point, if_pos peer])

theorem pointData (h : Opens fr 0x01 s b p ch body y) :
    execData fr s = .next (refresh (streamData p ch (fTag b) body (countFrame p ch false y))) := by
  have kept := h.counted_kind.trans point
  have runs : execData fr s = _ := h.onPoint point peer _ (by decide)
  refine runs.trans ?_
  rw [kept]
  rfl

theorem pointCredit (h : Opens fr 0x02 s b p ch body y) :
    let x := countFrame p ch false y
    let c1 := (x.parcel p).chan ch
    let st := (tblGet c1.streams (fTag b)).getD {}
    execCredit fr s = .next (refresh (flushTx p ch (fTag b) (st.tx.length + 1) (x.modParcel p (fun z => { z with
      channels := tblPut z.channels ch { c1 with
        streams := tblPut c1.streams (fTag b) { st with credit := st.credit + le body 0 4 } } })))) :=
  h.onPoint point peer _ (by decide)

theorem pointReset (h : Opens fr 0x03 s b p ch body y) :
    execReset fr s = .next (refresh (streamReset p ch (fTag b) (countFrame p ch false y))) :=
  h.onPoint point peer _ (by decide)

end

/-! COLLECTIVE channels (R526 to R531). -/

section
variable (collective : ((s.parcel p).chan ch).kind = 2)
include collective

theorem onCollective (rank : srcRank ((s.parcel p).chan ch) (fSrc b) (ty == 0x01) = some k) (h : Opens fr ty s b p ch body y)
    (f : List Byte → Nat → Nat → Nat → List Byte → State → State) (own : 2 ∈ kinds) :
    Machine.onChannel fr ty kinds f s = .next (refresh (f b p ch k body (countFrame p ch false y))) :=
  h.onChannel f (collective ▸ own) (by rw [rankOf, if_neg (by rw [collective]; decide), rank])

theorem collectiveData (rank : srcRank ((s.parcel p).chan ch) (fSrc b) true = some k) (h : Opens fr 0x01 s b p ch body y) :
    execData fr s = .next (refresh (onCollData p ch k (fOffset b) body (countFrame p ch false y))) := by
  have kept := h.counted_kind.trans collective
  have runs : execData fr s = _ := h.onCollective collective rank _ (by decide)
  refine runs.trans ?_
  rw [kept]
  rfl

section
variable (rank : srcRank ((s.parcel p).chan ch) (fSrc b) false = some k)
include rank

theorem collectiveAbort (h : Opens fr 0x04 s b p ch body y) :
    execAbort fr s = .next (refresh (onAbort p ch (le body 0 4) (fSrc b) (countFrame p ch false y))) :=
  h.onCollective collective rank _ (by decide)

theorem collectiveSkew (h : Opens fr 0x05 s b p ch body y) (group : le body 0 2 < 4096) :
    execSkew fr s = .next (refresh (setSkew p (le body 0 2) (countFrame p ch false y))) := by
  have runs : execSkew fr s = _ := h.onCollective collective rank _ (by decide)
  refine runs.trans ?_
  rw [if_pos group]

theorem groupFrame_takes (h : Opens fr ty s b p ch body y) (other : (ty == 0x01) = false) (whole : body.length = 16)
    (group : le body 0 2 < 4096) :
    groupFrame ty fr s = .next (refresh (onGroupMsg p ch ty k body (countFrame p ch false y))) := by
  have runs : groupFrame ty fr s = _ := h.onCollective collective (other ▸ rank) _ (by decide)
  refine runs.trans ?_
  rw [whole, decide_eq_true group]
  rfl

theorem collectiveAnswer (h : Opens fr 0x23 s b p ch body y) {i : Item} {r : GroupRun}
    (run : runOfGroup (countFrame p ch false y) p (le body 0 2) = some (i, r)) (doubt : r.phase = .inDoubt) (step : r.step = le body 4 4) :
    execAnswer fr s = .next (refresh (onDecision p (le body 0 2) (le body 4 4) (le body 8 1 == 1) (countFrame p ch false y))) := by
  have runs : execAnswer fr s = _ := h.onCollective collective rank _ (by decide)
  refine runs.trans ?_
  rw [run]
  dsimp only
  rw [doubt, step, beq_self_eq_true, beq_self_eq_true]
  rfl

end

end

end Opens

/-- R531: a message of one frame whose earlier parts are forgotten. -/
def forgets (p ch ty k : Nat) (s : State) : State :=
  s.modParcel p (fun y => { y with inbox := y.inbox.filter (fun e => !(e.type == 256 + ty && e.channel == ch && e.rank == k)) })

/-- R513: a message of one frame is handed on at once. -/
theorem gather_whole {ty p ch k : Nat} {b : List Byte} (f : Nat → Nat → Nat → List Byte → State → State) (first : fOffset b = 0)
    (last : fLast b = true) (body : List Byte) (s : State) : gather ty f b p ch k body s = f p ch k body (forgets p ch ty k s) := by
  unfold gather
  dsimp only
  rw [first, last]
  rfl

namespace Opens

variable {fr : CFrame} {p ch k : Nat} {b body : List Byte} {s y : State} (collective : ((s.parcel p).chan ch).kind = 2)
  (rank : srcRank ((s.parcel p).chan ch) (fSrc b) false = some k) (first : fOffset b = 0) (last : fLast b = true)
include collective rank first last

theorem collectiveNorm (h : Opens fr 0x24 s b p ch body y) (whole : 24 ≤ body.length) (group : le body 0 2 < 4096) :
    execNorm fr s = .next (refresh (onGroupMsg p ch 0x24 k body (forgets p ch 0x24 k (countFrame p ch false y)))) := by
  have runs : execNorm fr s = _ := h.onCollective collective rank _ (by decide)
  refine runs.trans ?_
  rw [gather_whole _ first last, decide_eq_true whole, decide_eq_true group]
  rfl

theorem collectiveTally (h : Opens fr 0x25 s b p ch body y) :
    execTally fr s = .next (refresh (onTally p ch k body (forgets p ch 0x25 k (countFrame p ch false y)))) := by
  have runs : execTally fr s = _ := h.onCollective collective rank _ (by decide)
  refine runs.trans ?_
  rw [gather_whole _ first last]
  rfl

end Opens

end Sys2Proof.Machine
end

section
/-! SUPPORT. HOLD, TICK and frames for other members (14 R512, R515, R519). -/

namespace Sys2Proof.Machine

theorem received_courier {fr : CFrame} {s : State} (courier : (s.port fr.port).mode8023 = false) : received s fr = fr := by
  unfold received
  rw [courier]
  rfl

/-- R512: a frame for another member goes on with one hop less. -/
theorem execCourierFrameForward_routes {fr : CFrame} {b : List Byte} {s : State} (bytes : (received s fr).bytes = b)
    (open_ : portOpen s (received s fr) = true) (away : fDest b ≠ s.fed.member) (wait : fType b ≠ 0x11)
    (sound : fSrc b ∉ s.fed.lostMembers) (hops : 2 ≤ fHops b) :
    execCourierFrameForward fr s = .next (routeFrame (b.set 11 (BitVec.ofNat 8 (fHops b - 1))) s) := by
  have present : s.fed.lostMembers.contains (fSrc b) = false := by simpa using sound
  unfold execCourierFrameForward
  dsimp only
  rw [open_, bytes, beq_false_of_ne away, present, if_neg (Nat.not_le.mpr hops)]
  simp only [ftTick, beq_false_of_ne wait]
  rfl

/-- R553: an event of the package that goes to the BMC joins its log. -/
theorem satLogs_bmcLog_tail (ps : List Nat) (n : Nat) (old s : State) : s.bmcLog.tail ≤ (satLogs ps n old s).bmcLog.tail := by
  induction n generalizing old s with
  | zero => exact Nat.le_refl _
  | succ n ih =>
    unfold satLogs
    extract_lets hit
    split
    · exact Nat.le_refl _
    · exact Nat.le_trans (foldl_grows (g := fun s : State => s.bmcLog.tail)
        (fun s x => (Nat.le_add_right _ _).trans_eq (recordNow_bmcLog_tail ..).symm) hit s) (ih s _)

theorem recordM_bmcLog_tail {kind : Nat} (told : kindBmc kind = true) (len : Nat) (body : List Byte) (s : State) :
    s.bmcLog.tail < (recordM kind len body s).bmcLog.tail := by
  unfold recordM recordP
  refine Nat.lt_of_lt_of_le ?_ (satLogs_bmcLog_tail _ _ _ _)
  rw [recordNow_bmcLog_tail, if_pos told]
  exact Nat.lt_succ_self _

/-- R519: every wait on the sender of a HOLD is extended. -/
def heldWaits (b : List Byte) (s : State) : List Wait :=
  s.fed.waits.map (fun w => if w.member = fSrc b then { w with ext := w.ext + le b 32 2 } else w)

/-- R519: the state after a HOLD, before its record. -/
def heldSeen (b : List Byte) (s : State) : State :=
  { s with fed := { s.fed with
      waits := heldWaits b s
      holdSeen := s.fed.holdSeen.filter (fun e => !(e.1 == fSrc b && e.2.1 == le b 34 1)) ++
        [(fSrc b, le b 34 1, nowCycles s + le b 32 2 * 3300000)] } }

/-- R519: whether this HOLD's condition has been seen. -/
def holdKnown (b : List Byte) (s : State) : Bool :=
  s.fed.holdSeen.any (fun e => e.1 == fSrc b && e.2.1 == le b 34 1 && decide (nowCycles s ≤ e.2.2))

theorem execHold_holds {fr : CFrame} {b : List Byte} {s : State} (bytes : (received s fr).bytes = b)
    (ours : forUs s (received s fr) 0x10 = true) (len : fLen b = 8) : execHold fr s = .next (if holdKnown b s then heldSeen b s
      else recordM evHoldReceived 5 (pay [(fSrc b, 2), (le b 32 2, 2), (le b 34 1, 1)]) (heldSeen b s)) := by
  have waits : (s.fed.waits.map (fun w => if (w.member == fSrc b) = true then { w with ext := w.ext + le b 32 2 } else w)) =
      heldWaits b s := by
    simp only [heldWaits, beq_iff_eq]
  unfold execHold
  dsimp only
  rw [bytes, show forUs s (received s fr) ftHold = true from ours, len, waits]
  rfl

theorem execHold_extends {fr : CFrame} {b : List Byte} {s : State} (bytes : (received s fr).bytes = b)
    (ours : forUs s (received s fr) 0x10 = true) (len : fLen b = 8) : ∃ t, execHold fr s = .next t ∧
      t.fed.waits = heldWaits b s ∧ (s.fed.holdSeen = [] → s.bmcLog.tail < t.bmcLog.tail) := by
  refine ⟨_, execHold_holds bytes ours len, ?_, fun fresh => ?_⟩
  · split
    · rfl
    · rw [(recordM_logs ..).records.fed]
      rfl
  · have new : holdKnown b s = false := by
      unfold holdKnown
      rw [fresh]
      rfl
    rw [new, if_neg Bool.false_ne_true]
    exact recordM_bmcLog_tail (by decide) _ _ (heldSeen b s)

/-- R516: what a TICK leaves in the federation. -/
def tickTaken (b : List Byte) (s : State) : State :=
  { s with
    free := s.free + 1
    fed := { s.fed with
      tickSeen := true, tickPostmark := le b 32 8, tickPeriod := le b 40 4, offset := tickOffset s (le b 44 8)
      samples := if s.fed.quiet then s.fed.samples ++ [tickOffset s (le b 44 8)] else s.fed.samples } }

theorem sendOn_fed (k : Nat) (fr : List Byte) (s : State) : (sendOn k fr s).fed = s.fed := by
  unfold sendOn
  dsimp only
  split
  · split <;> rfl
  · rfl

/-- R515, R516: a TICK with a hop left is taken and goes on. -/
theorem execTick_takes {fr : CFrame} {s : State} (ready : s.power.ready = true) (first : fr.replayed = false)
    (known : (s.fed.federated || s.fed.forming.isSome) = true) (follows : s.fed.member ≠ s.fed.datum) (up : fr.port = s.fed.upstream)
    (port : (s.port fr.port).st = .up) (courier : (s.port fr.port).mode8023 = false) (type : fType fr.bytes = 0x11)
    (number : fFed fr.bytes = s.fed.number) (whole : fWhole fr.bytes = true) (len : fLen fr.bytes = 20)
    (sound : fSrc fr.bytes ∉ s.fed.lostMembers) (hops : 2 ≤ fHops fr.bytes) :
    ∃ t, execTick fr s = .next t ∧ t.fed = (tickTaken fr.bytes s).fed := by
  have present : s.fed.lostMembers.contains (fSrc fr.bytes) = false := by simpa using sound
  have barred : (!(s.power.ready && (s.fed.federated || s.fed.forming.isSome)) || fr.replayed || s.fed.member == s.fed.datum ||
      fr.port != s.fed.upstream || (s.port fr.port).st != .up || (s.port fr.port).mode8023 || fType fr.bytes != ftTick ||
      fFed fr.bytes != s.fed.number || !fWhole fr.bytes || fLen fr.bytes != 20 || s.fed.lostMembers.contains (fSrc fr.bytes)) =
      false := by
    rw [ready, known, first, beq_false_of_ne follows, ← up, port, courier, type, number, whole, len, present]
    simp [ftTick]
  unfold execTick
  dsimp only
  rw [barred, if_neg Bool.false_ne_true, if_neg (Nat.not_le.mpr hops)]
  refine ⟨_, rfl, ?_⟩
  refine (foldl_keeps (g := State.fed) (fun s k => ?_) _ _).trans rfl
  exact sendOn_fed k _ s

end Sys2Proof.Machine

open Sys2Proof Sys2Proof.Machine Sys2Proof.Claims

/-- Settles O57: a frame of each type on a channel that opens it, and the frames of no channel. -/
theorem courierFramesComplete : Obligations.CourierFramesComplete := by
  unfold Obligations.CourierFramesComplete
  refine ⟨fun fr ty body s y => ?_, fun fr s => ?_, fun fr s => ?_, fun fr s courier => received_courier courier, fun fr s => ?_⟩
  · intro b p ch ours live opens c x
    have h : Opens fr ty s b p ch body y := ⟨rfl, rfl, rfl, ours, live, opens⟩
    refine ⟨fun point peer => ⟨?_, ?_, ?_⟩, fun k collective rank => ⟨?_, ?_, ?_, fun whole group => ⟨?_, ?_, ?_, ?_⟩, fun first last => ?_⟩⟩
    · rintro rfl
      exact h.pointData point peer
    · rintro rfl
      exact h.pointCredit point peer
    · rintro rfl
      exact h.pointReset point peer
    · rintro rfl
      exact h.collectiveData collective rank
    · rintro rfl
      exact h.collectiveAbort collective rank
    · rintro rfl group
      exact h.collectiveSkew collective rank group
    · rintro rfl
      exact h.groupFrame_takes collective rank rfl whole group
    · rintro rfl
      exact h.groupFrame_takes collective rank rfl whole group
    · rintro rfl
      exact h.groupFrame_takes collective rank rfl whole group
    · rintro i r rfl run doubt step
      exact h.collectiveAnswer collective rank run doubt step
    · intro z
      refine ⟨?_, ?_⟩
      · rintro rfl whole group
        exact h.collectiveNorm collective rank first last whole group
      · rintro rfl
        exact h.collectiveTally collective rank first last
  · intro b open_ away wait sound hops
    exact execCourierFrameForward_routes rfl open_ away wait sound hops
  · intro b ours len
    exact execHold_extends rfl ours len
  · intro b ready first known follows up port courier type number whole len sound hops
    obtain ⟨t, runs, fed⟩ := execTick_takes ready first known follows up port courier type number whole len sound hops
    refine ⟨t, runs, ?_⟩
    rw [fed]
    exact ⟨rfl, rfl, rfl, rfl⟩
end

section
/-! SUPPORT. What the host reads and writes (14 R493 to R502). -/

namespace Sys2Proof.Machine

theorem hostUp_not_retry {s : State} (up : hostUp s = true) : hostRetry s = false := by
  unfold hostUp at up
  simp only [Bool.and_eq_true] at up
  obtain ⟨⟨good, link⟩, ready⟩ := up
  unfold hostRetry
  rw [good, link, ready]
  rfl

theorem fnOpen_of {fn : Nat} {s : State} (up : hostUp s = true) (small : fn < 64) (own : fn = 0 ∨ blockFn s fn = fn) :
    fnOpen s fn = true := by
  unfold fnOpen
  rw [up, decide_eq_true small]
  rcases own with rfl | h
  · rfl
  · rw [h]
    simp

/-! Configuration space (R493, R494, R496). -/

section
variable {fn : Nat} {s : State}

theorem configRead_retry (retry : hostRetry s = true) (small : fn < 64) (o : Nat) : configRead s fn o = .retry := by
  unfold configRead
  rw [retry, decide_eq_true small]
  rfl

theorem configRead_value (up : hostUp s = true) (small : fn < 64) (own : fn = 0 ∨ blockFn s fn = fn) (o : Nat) :
    configRead s fn o = .value (if o == 0 then (functionId fn).1 + 65536 * (functionId fn).2.1
      else if o == 8 then 256 * (functionId fn).2.2 + Config.revisionId.toNat
      else if fn == 0 && o == cfgNumVfs then s.pcie.numVfs
      else if fn == 0 && o == cfgSriovControl then b2n s.pcie.vfEnable
      else if o == cfgAtsControl then b2n (s.pcie.atsOn.contains fn) * 2 ^ 15
      else ((tblGet (configCaps fn) o).getD ((tblGet s.pcie.cfg (4096 * fn + o)).getD 0))) := by
  unfold configRead
  dsimp only
  rw [hostUp_not_retry up, fnOpen_of up small own]
  cases tblGet (configCaps fn) o <;> rfl

theorem configRead_ids (up : hostUp s = true) (small : fn < 64) (own : fn = 0 ∨ blockFn s fn = fn) :
    configRead s fn 0 = .value (0x1FD4 + 65536 * (if fn = 0 then 0x0A20 else 0x0A21)) ∧
    ∃ v, configRead s fn 8 = .value v ∧ v / 256 = 0x120000 := by
  refine ⟨(configRead_value up small own 0).trans ?_, _, configRead_value up small own 8, ?_⟩
  · simp [functionId]
  · change (256 * 0x120000 + Config.revisionId.toNat) / 256 = 0x120000
    have byte := Config.revisionId.isLt

    omega

theorem configRead_sriov (up : hostUp s = true) :
    configRead s 0 0x20E = .value 63 ∧ configRead s 0 0x214 = .value 1 ∧ configRead s 0 0x216 = .value 1 ∧
      configRead s 0 0x21A = .value 0x0A21 ∧ configRead s 0 cfgNumVfs = .value s.pcie.numVfs ∧
      configRead s 0 cfgSriovControl = .value (b2n s.pcie.vfEnable) := by
  have value := configRead_value up (by decide : 0 < 64) (.inl rfl)
  exact ⟨value _, value _, value _, value _, value _, value _⟩

theorem execConfigurationWrite_retry (retry : hostRetry s = true) (small : fn < 64) (o v : Nat) :
    execConfigurationWrite fn o v s = .next { s with outputs := s.outputs ++ [.retryStatus fn] } := by
  unfold execConfigurationWrite
  rw [retry, decide_eq_true small]
  rfl

/-- R442: what a VF that is written to is left in. -/
def configTouched (fn : Nat) (s : State) : State :=
  if tdispOf s fn = .locked ∨ tdispOf s fn = .run then leaveRun fn .error s else s

theorem execConfigurationWrite_vf (up : hostUp s = true) (vf : vfExists s fn = true) {o : Nat} (notAts : o ≠ cfgAtsControl)
    (notDev : o ≠ cfgDevControl) (v : Nat) : execConfigurationWrite fn o v s = .next (refresh { configTouched fn s with
      pcie := { (configTouched fn s).pcie with cfg := tblPut (configTouched fn s).pcie.cfg (4096 * fn + o) v } }) := by
  have vfFn : (fn == 0) = false := by
    unfold vfExists at vf
    simp only [Bool.and_eq_true, bne_iff_ne] at vf
    exact beq_false_of_ne vf.1
  have touched : (if (fn != 0 && (tdispOf s fn == .locked || tdispOf s fn == .run)) = true then leaveRun fn .error s else s) =
      configTouched fn s := by
    simp only [bne, vfFn, Bool.not_false, Bool.true_and, Bool.or_eq_true, beq_iff_eq]
    rfl
  unfold execConfigurationWrite
  dsimp only
  rw [hostUp_not_retry up, up, vf, touched, vfFn, beq_false_of_ne notAts, beq_false_of_ne notDev]
  simp only [Bool.false_and, Bool.not_true, Bool.and_false, Bool.or_false, Bool.false_eq_true, if_false]
  rfl

theorem execConfigurationWrite_pf (up : hostUp s = true) (o v : Nat) : execConfigurationWrite 0 o v s = .next (refresh (
    if o = cfgNumVfs then setVfs (min v 63) s.pcie.vfEnable s
    else if o = cfgSriovControl then setVfs s.pcie.numVfs (bit v 0) s
    else if o = cfgAtsControl then { s with pcie := { s.pcie with
      atsOn := if bit v 15 then 0 :: s.pcie.atsOn.filter (· != 0) else s.pcie.atsOn.filter (· != 0) } }
    else { s with pcie := { s.pcie with
      cfg := tblPut s.pcie.cfg (4096 * 0 + o) (if o == cfgDevControl then devControl v else v) } })) := by
  unfold execConfigurationWrite
  dsimp only
  rw [hostUp_not_retry up, up]
  simp only [beq_self_eq_true, Bool.true_and, beq_iff_eq, Bool.false_and, Bool.not_true, bne_self_eq_false, Bool.or_false,
    Bool.false_eq_true, if_false]
  rfl

end

end Sys2Proof.Machine
end

section
/-! SUPPORT. Registers, BAR2, resets of functions and host memory (13 R469, R473, 14 R495 to R502). -/

namespace Sys2Proof.Machine

/-! Reads of registers (R469, R498, R502). -/

theorem bar0Read_length {fn : Nat} {s : State} (up : hostUp s = true) (small : fn < 64) (own : fn = 0 ∨ blockFn s fn = fn) (o n : Nat) :
    ∃ b, bar0Read s fn o n = some b ∧ b.length = n := by
  unfold bar0Read
  dsimp only
  rw [fnOpen_of up small own]
  exact ⟨_, rfl, by simp⟩

section
variable {fn n : Nat} {s : State} (ready : s.power.ready = true)
include ready

/-- R451: the first two words of a block are not hidden from the PF. -/
theorem blockRead_first {o : Nat} (first : o < 8) : blockRead s fn n o = blockWord (mbxId s n) (mbxStatus s n) (s.block n) o := by
  unfold blockRead
  rw [ready, decide_eq_false (Nat.not_le.mpr first), Bool.and_false]
  rfl

theorem blockRead_open (open_ : fn ≠ 0 ∨ (blockFn s n = 0 ∧ blockSealed s n = false)) (o : Nat) :
    blockRead s fn n o = blockWord (mbxId s n) (mbxStatus s n) (s.block n) o := by
  have shown : (fn == 0 && (blockFn s n != 0 || blockSealed s n)) = false := by
    rcases open_ with h | ⟨own, plain⟩
    · rw [beq_false_of_ne h, Bool.false_and]
    · rw [own, plain]
      simp
  unfold blockRead
  rw [ready, shown]
  rfl

theorem blockRead_hidden {o : Nat} (past : 8 ≤ o) (pf : fn = 0) (other : blockFn s n ≠ 0 ∨ blockSealed s n = true) :
    blockRead s fn n o = 0 := by
  have hidden : (fn == 0 && (blockFn s n != 0 || blockSealed s n)) = true := by
    rw [pf]
    rcases other with h | h
    · simp [h]
    · simp [h]
  unfold blockRead
  rw [ready, hidden, decide_eq_true past]
  rfl

theorem blockRead_reserved : blockRead s fn n 0x10 = 0 := by
  by_cases hidden : fn = 0 ∧ (blockFn s n ≠ 0 ∨ blockSealed s n = true)
  · exact blockRead_hidden ready (by decide) hidden.1 hidden.2
  · have open_ : fn ≠ 0 ∨ (blockFn s n = 0 ∧ blockSealed s n = false) := by
      rw [← Bool.not_eq_true]
      tauto
    exact (blockRead_open ready open_ 0x10).trans rfl

end

/-! Writes of registers (R10 to R12, R498). -/

theorem execRegisterWrite_words {fn o w : Nat} {v : W1c} {s : State} (up : hostUp s = true)
    (other : fn ≠ 0 ∨ o < 0x200008 ∨ 0x200010 ≤ o) : execRegisterWrite fn o w v s =
    .next (refresh ((splitWords o (leBytes v.v w)).foldl (fun s x => wrWord fn x.1 x.2.1 x.2.2 v.hw s) s)) := by
  have elsewhere : (fn == 0 && decide (0x200008 ≤ o) && decide (o < 0x200010)) = false := by
    simp only [Bool.and_eq_false_iff, beq_eq_false_iff_ne, decide_eq_false_iff_not]
    omega
  unfold execRegisterWrite
  dsimp only
  rw [up, elsewhere]
  rfl

/-- R12, R498: a one clears BAR2_MISS, but for one that hardware sets in the same cycle. -/
theorem wrPf_bar2Miss (w o : Nat) (s : State) :
    (wrPf 0x1000 0 (leBytes w 4) o s).pcie.bar2Miss = (s.pcie.bar2Miss && (!bit w 15 || bit o 15)) := by
  have written : bit (merge32 0 0 (leBytes w 4)) 15 = bit w 15 := by
    have whole : overlay (leBytes 0 4) 0 (leBytes w 4) = leBytes w 4 := by simp [overlay, zeros]
    unfold merge32
    rw [whole, leNat_leBytes]
    have same : w % 256 ^ 4 / 2 ^ 15 % 2 = w / 2 ^ 15 % 2 := by omega
    unfold bit
    rw [same]
  unfold wrPf
  rw [written]
  cases bit w 15 <;> cases bit o 15 <;> simp

/-! BAR2 (R499 to R501). -/

theorem pieces_single {a n : Nat} (within : a % 256 + n ≤ 256) (some_ : 1 ≤ n) : pieces a n = [(a, n)] := by
  have one : (a % 256 + n + 255) / 256 = 1 := by omega
  have low : max a ((a / 256 + 0) * 256) = a := by omega
  have high : min (a + n) ((a / 256 + 0 + 1) * 256) - a = n := by omega
  unfold pieces
  rw [one]
  simp only [List.range_one, List.map_cons, List.map_nil]
  rw [low, high]

section
variable {a p t v : Nat} {s : State} (up : hostUp s = true)
include up

theorem execBar2Read_single {n : Nat} (within : a % 256 + n ≤ 256) (some_ : 1 ≤ n) (go : bar2At s a false = .go p t v) :
    let x := pvRead p t v n false { ten := t } s
    execBar2Read a n s = .next (refresh { x.2.2.2 with
      outputs := x.2.2.2.outputs ++ [.bar2 (if x.1 = .ok then some x.2.2.1 else none)] }) := by
  intro x
  have read : bar2Pieces [(a, n)] [] false s = (if x.1 = .ok then x.2.2.1 else [], !(decide (x.1 = .ok)), x.2.2.2) := by
    unfold bar2Pieces
    rw [go]
    dsimp only
    change (if (x.1 == .ok) = true then _ else _) = _
    by_cases ok : x.1 = .ok
    · rw [ok]
      rfl
    · rw [beq_false_of_ne ok, if_neg ok, decide_eq_false ok]
      rfl
  unfold execBar2Read
  dsimp only
  rw [up, pieces_single within some_, read]
  by_cases ok : x.1 = .ok
  · simp only [ok]
    rfl
  · simp only [ok]
    rfl

theorem execBar2Write_single {d : List Byte} (within : a % 256 + d.length ≤ 256) (some_ : 1 ≤ d.length)
    (go : bar2At s a true = .go p t v) :
    execBar2Write a d s = .next (refresh (pvWrite p t v d false (p, 0xFFFFFFFF) { ten := t } s).2.2.2) := by
  have written : bar2Puts [(a, d.length)] d s = (pvWrite p t v d false (p, 0xFFFFFFFF) { ten := t } s).2.2.2 := by
    unfold bar2Puts
    rw [go]
    dsimp only
    rw [List.take_length]
    rfl
  unfold execBar2Write
  rw [up, pieces_single within some_, written]
  rfl

theorem execAtsInvalidate_completes {fn : Nat} (on : fn ∈ s.pcie.atsOn) :
    execAtsInvalidate fn a s = .next { s with outputs := s.outputs ++ [.atsDone fn a] } := by
  unfold execAtsInvalidate
  rw [up, List.contains_iff_mem.mpr on]
  rfl

end

/-! Host memory (R473, R495). -/

theorem hostRead_span {s : State} {block a n x : Nat} (spans : hostSpans s (blockFn s block) a n = some [(x, n)])
    (inside : a + n ≤ 2 ^ 64) (sound : spanOk s (x, n) = true) : hostRead s block a n = some (memReadN s.host.mem x n) := by
  have kept : (decide (a + n ≤ 2 ^ 64) && [(x, n)].all (spanOk s)) = true := by
    rw [decide_eq_true inside, List.all_cons, sound]
    rfl
  unfold hostRead hostReach
  rw [spans, Option.filter_some, if_pos kept]
  simp

theorem hostSpans_own {s : State} {fn : Nat} (off : fn ∉ s.pcie.atsOn) (a n : Nat) : hostSpans s fn a n = some [(a, n)] :=
  if_neg (by simpa using off)

theorem hostSpans_page {s : State} {fn a n page : Nat} (on : fn ∈ s.pcie.atsOn) (within : a % 4096 + n ≤ 4096) (some_ : 1 ≤ n)
    (at_ : atsPage s fn (a / 4096) = some page) : hostSpans s fn a n = some [(page * 4096 + a % 4096, n)] := by
  have one : (a % 4096 + n + 4095) / 4096 = 1 := by omega
  have low : max a (a / 4096 * 4096) = a := by omega
  have high : min (a + n) ((a / 4096 + 1) * 4096) - a = n := by omega
  unfold hostSpans
  rw [if_pos (List.contains_iff_mem.mpr on), one]
  simp only [List.range_one, List.foldr_cons, List.foldr_nil, Nat.add_zero, at_, low, high]
  rfl

end Sys2Proof.Machine
end

section
/-! SUPPORT. Resets of functions (14 R497): the settings of mailbox blocks. -/

namespace Sys2Proof.Machine

/-- R467: what the host has set in a mailbox block and its session. -/
structure Settings where
  enable : Bool
  session : Option Session
  itemRings : Bool
  envRing : Bool
  irqMask : Nat

def MBlock.settings (b : MBlock) : Settings := ⟨b.enable, b.session, b.itemRings, b.envRing, b.irqMask⟩

/-- R497: the settings of a block after a function-level reset. -/
def resetSettings : Settings := ⟨false, none, false, false, 0xFF⟩

theorem MBlock.settings_unmailed (b : MBlock) : b.unmailed.settings = b.settings := rfl

theorem MBlock.settings_unsignalled (b : MBlock) : b.unsignalled.settings = b.settings := rfl

/-- The settings of every block and VF Enable are kept. -/
structure SettingsKept (s t : State) : Prop where
  block : ∀ n, (t.block n).settings = (s.block n).settings
  vfs : t.pcie.vfEnable = s.pcie.vfEnable

namespace SettingsKept

variable {s t u : State}

theorem refl (s : State) : SettingsKept s s := ⟨fun _ => rfl, rfl⟩

theorem trans (a : SettingsKept s t) (b : SettingsKept t u) : SettingsKept s u :=
  ⟨fun n => (b.block n).trans (a.block n), b.vfs.trans a.vfs⟩

theorem of_mails {n : Nat} (k : SettingsKept s t) (h : MailsOnly n t u) : SettingsKept s u := by
  refine k.trans ⟨fun m => ?_, by rw [h.replies.rest]⟩
  by_cases own : m = n
  · rw [own, ← MBlock.settings_unmailed, h.own, MBlock.settings_unmailed]
  · rw [← MBlock.settings_unsignalled, h.other m own, MBlock.settings_unsignalled]

theorem foldl {α : Type} {f : State → α → State} {l : List α} (k : SettingsKept s t)
    (h : ∀ u a, SettingsKept s u → SettingsKept s (f u a)) : SettingsKept s (l.foldl f t) := by
  induction l generalizing t with
  | nil => exact k
  | cons a r ih => exact ih (h t a k)

theorem when {c : Prop} {_ : Decidable c} (a : SettingsKept s t) (b : SettingsKept s t → SettingsKept s u) :
    SettingsKept s (if c then u else t) := by
  split
  · exact b a
  · exact a

theorem modTen {p i : Nat} {f : Tenancy → Tenancy} (k : SettingsKept s t) : SettingsKept s (t.modTen p i f) := ⟨k.block, k.vfs⟩

theorem setIrq {n v : Nat} (k : SettingsKept s t) : SettingsKept s (Machine.setIrq n v t) :=
  k.of_mails ((setIrq_signals n v t).mails n)

theorem dropReply {tk : Ticket} (k : SettingsKept s t) : SettingsKept s (Machine.dropReply tk t) := k.of_mails (dropReply_mails ..)

theorem reply {tk : Ticket} {st : RStatus} {b : List Byte} (k : SettingsKept s t) : SettingsKept s (Machine.reply tk st b t) :=
  k.of_mails (replyWith_mails ..)

theorem sealAnswer {p : Nat} {st : RStatus} (k : SettingsKept s t) : SettingsKept s (Machine.sealAnswer p st t) := by
  unfold Machine.sealAnswer
  dsimp only
  exact foldl ⟨k.block, k.vfs⟩ fun _ _ h => h.reply

theorem dropHeld {n : Nat} (k : SettingsKept s t) : SettingsKept s (Machine.dropHeld n t) := by
  refine k.foldl fun u p h => h.foldl fun u i h => ?_
  dsimp only
  split
  · exact h
  · exact h.modTen.foldl fun _ _ h => h.dropReply

end SettingsKept

/-- R468: a session that ends takes its item rings out of service. -/
def sessionClosed (n : Nat) (s : State) : State :=
  s.setBlock n { s.block n with session := none, itemRings := false, readStopped := false, open_ := 0 }

theorem endSession_closes {n : Nat} {s : State} {x : Session} (open_ : (s.block n).session = some x) :
    SettingsKept (sessionClosed n s) (endSession n s) := by
  have held : SettingsKept (sessionClosed n s) (dropHeld n (sessionClosed n s)) := (SettingsKept.refl _).dropHeld
  unfold endSession
  dsimp only
  rw [open_]
  dsimp only
  refine SettingsKept.setIrq ?_
  change SettingsKept (sessionClosed n s) (match boundTo (dropHeld n (sessionClosed n s)) n with | some (p, t) => _ | none => _)
  split
  · split
    · exact held
    · exact (held.modTen.foldl fun _ _ h => h.dropReply).when fun h => h.sealAnswer
  · exact held

theorem endSession_vfs (n : Nat) (s : State) : (endSession n s).pcie.vfEnable = s.pcie.vfEnable := by
  cases session : (s.block n).session with
  | none =>
    unfold endSession
    dsimp only
    rw [session]
  | some x => exact (endSession_closes session).vfs

theorem endSession_session (n : Nat) (s : State) : ((endSession n s).block n).session = none := by
  cases session : (s.block n).session with
  | none =>
    unfold endSession
    dsimp only
    rw [session]
    exact session
  | some x =>
    have kept := congrArg Settings.session ((endSession_closes session).block n)
    refine kept.trans ?_
    simp [sessionClosed, MBlock.settings]

theorem endSession_other {n m : Nat} (other : m ≠ n) (s : State) : ((endSession n s).block m).settings = (s.block m).settings := by
  cases session : (s.block n).session with
  | none =>
    unfold endSession
    dsimp only
    rw [session]
  | some x =>
    refine ((endSession_closes session).block m).trans ?_
    unfold sessionClosed
    rw [State.setBlock_block_other _ _ _ _ other]

theorem flrBlock_own (n : Nat) (s : State) : ((flrBlock n s).block n).settings = resetSettings := by
  have session := endSession_session n s
  have here : ((flrBlock n s).block n) = { (endSession n s).block n with
      enable := false, irqStatus := 0, irqMask := 0xFF, itemRings := false, envRing := false
      inlineReq := zeros 1024, inlineRpl := zeros 1024 } := State.setBlock_block_same ..
  rw [here]
  unfold MBlock.settings
  dsimp only
  rw [session]
  rfl

theorem flrBlock_other {n m : Nat} (other : m ≠ n) (s : State) : ((flrBlock n s).block m).settings = (s.block m).settings := by
  have here : ((flrBlock n s).block m) = (endSession n s).block m := State.setBlock_block_other _ _ _ _ other
  rw [here, endSession_other other]

theorem flrBlock_vfs (n : Nat) (s : State) : (flrBlock n s).pcie.vfEnable = s.pcie.vfEnable := endSession_vfs n s

/-- R497: every block after a function-level reset of the PF. -/
def blocksReset (s : State) : State := (List.range 64).foldl (fun s n => flrBlock n s) s

theorem blocksReset_settings {n : Nat} (block : n < 64) (s : State) : ((blocksReset s).block n).settings = resetSettings := by
  have each := foldl_range_each (get := fun s n => (s.block n).settings) (f := fun s n => flrBlock n s) (g := fun _ _ => resetSettings)
    (fun s k => flrBlock_own k s) (fun s k j other => flrBlock_other other s) 64 n s
  exact each.trans (if_pos block)

theorem blocksReset_vfs (s : State) : (blocksReset s).pcie.vfEnable = s.pcie.vfEnable :=
  foldl_keeps (f := fun s n => flrBlock n s) (g := fun s : State => s.pcie.vfEnable) (fun s n => flrBlock_vfs n s) _ s

/-- R497: the interface of the PF after its function-level reset. -/
def pfReset (s : State) : State :=
  { s with pcie := { s.pcie with
      windows := [], lapsed := [], bar2En := false, msix := s.pcie.msix.filter (fun e => e.1 / 4096 != 0)
      msixPending := s.pcie.msixPending.filter (fun e => e.1 != 0), atsOn := [] } }

theorem execFlrPf_resets {s : State} (up : hostUp s = true) :
    execFlrPf s = .next (refresh (pfReset (blocksReset (setVfs s.pcie.numVfs false s)))) := by
  unfold execFlrPf
  rw [up]
  rfl

theorem refresh_settings (s : State) (n : Nat) : ((refresh s).block n).settings = (s.block n).settings := by
  rw [(refresh_signals s).block n]
  rfl

theorem execFlrPf_leaves {s : State} (up : hostUp s = true) : ∃ t, execFlrPf s = .next t ∧ t.pcie.vfEnable = false ∧
    t.pcie.windows = [] ∧ t.pcie.bar2En = false ∧ t.pcie.atsOn = [] ∧ ∀ n, n < 64 → (t.block n).enable = false ∧
      (t.block n).session = none ∧ (t.block n).itemRings = false ∧ (t.block n).envRing = false ∧ (t.block n).irqMask = 0xFF := by
  have off : (blocksReset (setVfs s.pcie.numVfs false s)).pcie.vfEnable = false := (blocksReset_vfs _).trans rfl
  have blocks (n : Nat) (block : n < 64) : ((blocksReset (setVfs s.pcie.numVfs false s)).block n).settings = resetSettings :=
    blocksReset_settings block _
  refine ⟨_, execFlrPf_resets up, ?_⟩
  generalize blocksReset (setVfs s.pcie.numVfs false s) = u at off blocks
  have rest := (refresh_signals (pfReset u)).rest
  refine ⟨?_, ?_, ?_, ?_, fun n block => ?_⟩
  · rw [rest]
    exact off
  · rw [rest]
    rfl
  · rw [rest]
    rfl
  · rw [rest]
    rfl
  · have settings := (refresh_settings (pfReset u) n).trans (blocks n block)
    simpa only [MBlock.settings, resetSettings, Settings.mk.injEq] using settings

theorem execFlrVf_resets {vf : Nat} {s : State} (up : hostUp s = true) (exists_ : vfExists s vf = true) :
    let y := flrBlock vf (leaveRun vf .unlocked s)
    execFlrVf vf s = .next (refresh { y with pcie := { y.pcie with
      atsOn := y.pcie.atsOn.filter (· != vf), msix := y.pcie.msix.filter (fun e => e.1 / 4096 != vf)
      msixPending := y.pcie.msixPending.filter (fun e => e.1 != vf) } }) := by
  intro y
  unfold execFlrVf
  rw [up, exists_]
  rfl

/-- R495: ATS of the PF follows its enable bit, and that of the VFs stays. -/
theorem execConfigurationWrite_ats {s : State} (up : hostUp s = true) (v : Nat) : ∃ t,
    execConfigurationWrite 0 cfgAtsControl v s = .next t ∧ (0 ∈ t.pcie.atsOn ↔ bit v 15 = true) ∧
      ∀ fn, fn ≠ 0 → (fn ∈ t.pcie.atsOn ↔ fn ∈ s.pcie.atsOn) := by
  refine ⟨_, execConfigurationWrite_pf up cfgAtsControl v, ?_⟩
  rw [if_neg (by decide), if_neg (by decide), if_pos rfl]
  have kept (w : State) : (refresh w).pcie.atsOn = w.pcie.atsOn := by rw [(refresh_signals w).rest]
  rw [kept]
  dsimp only
  cases bit v 15
  · exact ⟨by simp, fun fn other => by simp [other]⟩
  · exact ⟨by simp, fun fn other => by simp [other]⟩

end Sys2Proof.Machine

open Sys2Proof Sys2Proof.Machine Sys2Proof.Claims

/-- Settles O54: each access of the host, from its conditions. -/
theorem hostAccessesComplete : Obligations.HostAccessesComplete := by
  unfold Obligations.HostAccessesComplete
  refine ⟨fun fn s good link cfg small => ?_, fun s block a n inside => ?_, fun s up => ?_⟩
  · have retry : hostRetry s = true := by
      unfold hostRetry
      rw [good, link, cfg]
      rfl
    exact ⟨fun o => configRead_retry retry small o, fun o v => execConfigurationWrite_retry retry small o v⟩
  · intro fn
    exact ⟨fun off sound => hostRead_span (hostSpans_own off a n) inside sound,
      fun t on within some_ page sound => hostRead_span (hostSpans_page on within some_ page) inside sound⟩
  · refine ⟨fun fn o w v other => execRegisterWrite_words up other, fun fn o n small own => bar0Read_length up small own o n,
      fun fn small own => configRead_ids up small own, configRead_sriov up, fun fn n block ready => ?_,
      fun w o => wrPf_bar2Miss w o s, ?_, fun a d p t v within some_ go => execBar2Write_single up within some_ go,
      fun fn a on => execAtsInvalidate_completes up on, execFlrPf_leaves up, fun vf exists_ => execFlrVf_resets up exists_,
      fun v => execConfigurationWrite_pf up cfgNumVfs v, fun v => execConfigurationWrite_pf up cfgSriovControl v,
      fun fn o v vf notAts notDev => execConfigurationWrite_vf up vf notAts notDev v,
      fun v => execConfigurationWrite_pf up cfgDevControl v, fun v => execConfigurationWrite_ats up v⟩
    · refine ⟨blockRead_first ready (by decide), blockRead_first ready (by decide), blockRead_reserved ready, fun open_ => ?_,
        fun o past pf other => blockRead_hidden ready past pf other⟩
      have read := blockRead_open ready open_
      exact ⟨read 8, read 0xC, read 0x14, read 0x18⟩
    · intro a n p t v within some_ go
      exact execBar2Read_single up within some_ go
end
